-- ==== Sys2Proof/Word.lean ====
section
/-!
DEFINITION. The plain types of the hub. A register is 32 bits wide (R6); its fields are kept as numbers below two to the field's width.
-/
namespace Sys2Proof

/-- A register word (R6). -/
abbrev Word := BitVec 32

/-- A byte of a memory, a frame or a message. -/
abbrev Byte := BitVec 8

/-- A table of entries by number (an instance, an index, an address).
An entry that is not listed is at its idle value. -/
abbrev Map (α : Type) := List (Nat × α)

end Sys2Proof
end

