-- ==== Sys2Proof/Machine/Terms.lean ====
section
/-!
DEFINITION. The terms that commands carry and that the state and the outputs are made of: requesters, supplies, frames, wake events, modes.
-/
namespace Sys2Proof

/-- Who makes a register access (R40): tenant `t` over the ring or the local Ethernet port, the local host, the Steward secure world, the Annex. -/
inductive Req where
  | tenant (t : Nat)
  | host
  | secure
  | annex
deriving DecidableEq, Repr

/-- The requester code of R40. -/
def Req.code : Req → Nat
  | .tenant t => t % 8
  | .host => 0x8
  | .secure => 0x9
  | .annex => 0xA

/-- The requester of a code 0x0 to 0xA of R40. -/
def Req.ofCode (c : Nat) : Req :=
  if c = 0x8 then .host else if c = 0x9 then .secure else if c = 0xA then .annex else .tenant (c % 8)

/-- Who waits for the outcome of an access that leaves this node (R258, R267): a host access by its number, a DMA descriptor, a load or
store of the Steward core by its number, a control request of the Ethernet port, or nobody. -/
inductive Origin where
  | host (n : Nat)
  | dma (qp idx : Nat)
  | secure (n : Nat)
  | annex (n : Nat)
  /-- HTAG, the request's source address, and the IEEE 802.1Q tag's four bytes where there was one (R455). -/
  | control (htag : Nat) (src tag : List Byte)
  | none
deriving DecidableEq, Repr

/-- The requester that an access of this node came from; a control request counts as its tenant (R40, R454). -/
def Origin.requester (o : Origin) (ten : Nat) : Req :=
  match o with
  | .secure _ => .secure
  | .annex _ => .annex
  | .control _ _ _ => .tenant ten
  | _ => .host

/-- Who learns the outcome of a write that a full FIFO stalls (R363): the requester of a single write at a local address, or a longer write by its number and
the place of the stalled word in it. -/
inductive Waiter where
  | reply (req : Req) (addr : Nat)
  | part (id place addr : Nat)
deriving DecidableEq, Repr

/-- What a PCI Express configuration request does (R464): it reads, or writes a byte of configuration space, Bus Master Enable, or the power state. -/
inductive PcieChange where
  | read (off : Nat)
  | byte (off value : Nat)
  | busMaster (on : Bool)
  | d3hot (on : Bool)
deriving DecidableEq, Repr

/-- What the local Ethernet port receives (R448, R449): a frame from its destination address through its FCS, by the express or the preemptable
MAC; a fragment of a preemptable frame with its four check bytes, the first or a later one, its frame number and fragment count; a verify or a
respond mPacket. -/
inductive EtherRx where
  | frame (bytes : List Byte) (express : Bool)
  | fragment (start : Bool) (number count : Nat) (bytes : List Byte)
  | verify
  | respond
deriving DecidableEq, Repr

/-- The twelve modes of R62. -/
inductive Mode where
  | shelf | waking | cellar | test | transparent | held | armed | running | degraded | islanded | maintenance | safeStop
deriving DecidableEq, Repr

/-- The codes of R62. -/
def Mode.code : Mode → Nat
  | .shelf => 0x0 | .waking => 0x1 | .cellar => 0x2 | .test => 0x3 | .transparent => 0x4 | .held => 0x5
  | .armed => 0x6 | .running => 0x7 | .degraded => 0x8 | .islanded => 0x9 | .maintenance => 0xA | .safeStop => 0xB

/-- The mode of a code; codes 0xC to 0xF are not used (R62). -/
def Mode.ofCode : Nat → Mode
  | 0x1 => .waking | 0x2 => .cellar | 0x3 => .test | 0x4 => .transparent | 0x5 => .held | 0x6 => .armed
  | 0x7 => .running | 0x8 => .degraded | 0x9 => .islanded | 0xA => .maintenance | 0xB => .safeStop
  | _ => .shelf

/-- The modes from Transparent on. -/
def Mode.fromTransparent : Mode → Bool
  | .shelf => false | .waking => false | .cellar => false | .test => false
  | _ => true

/-- The modes from Cellar on. -/
def Mode.fromCellar : Mode → Bool
  | .shelf => false | .waking => false
  | _ => true

/-- The modes in which the hub forwards the ring (R16): every mode except Shelf, Waking and Test. -/
def Mode.forwards : Mode → Bool
  | .shelf => false | .waking => false | .test => false
  | _ => true

/-- The modes whose outputs are driven (R62). -/
def Mode.drives : Mode → Bool
  | .running => true | .degraded => true | .islanded => true
  | _ => false

/-- The modes whose Atrium slots and Track samples are published (R62, R203). -/
def Mode.publishes : Mode → Bool
  | .transparent => true | .held => true | .armed => true | .running => true | .degraded => true
  | _ => false

/-- The supply domains of R95. -/
inductive Supply where
  | core | sram | sd | sdh | io | mem | fp | vka
  | bank (k : Nat)
deriving DecidableEq, Repr

/-- The bit of a domain in SUPPLY_STAT and SUPPLY_LOST; banks in bits 16 and up. -/
def Supply.bit : Supply → Nat
  | .core => 0 | .sram => 1 | .sd => 2 | .sdh => 3 | .io => 4 | .mem => 5 | .fp => 6 | .vka => 7
  | .bank k => 16 + k % 16

/-- The wake events of R102, in the order of the WAKE_CAUSE bits; for the Ethernet wake pattern, a slot of its detector as it reads, none where it
reads neither 0 nor 1 (R458). -/
inductive Wake where
  | east | west | slot (reading : Option Bool) | pin | supply
deriving DecidableEq, Repr

/-- The bit of a wake event in WAKE_CAUSE. -/
def Wake.bit : Wake → Nat
  | .east => 1 | .west => 2 | .slot _ => 3 | .pin => 4 | .supply => 5

/-- The classes of ring frames (R116). -/
inductive Cls where
  | express | timed | bulk | link
deriving DecidableEq, Repr

/-- The header fields of an LRL frame (R120). -/
structure Header where
  ver : Nat := 1
  type : Nat := 0
  dir : Bool := false
  wrapped : Bool := false
  dual : Bool := false
  mirror : Bool := false
  ten : Nat := 0xF
  group : Bool := false
  dst : Nat := 0
  src : Nat := 0
  seq : Nat := 0
  len : Nat := 0
  hops : Nat := 0
  flow : Nat := 0
  tag : Nat := 0
  aux : Nat := 0
deriving DecidableEq, Repr

/-- An LRL frame: its class, its header and its payload (R120). -/
structure Frame where
  cls : Cls := .express
  hdr : Header := {}
  payload : List Byte := []
deriving DecidableEq, Repr

/-- The check a frame is sent with: the correct CRC-32, or its complement (a stomped check, R121). -/
inductive Check where
  | good | stomped
deriving DecidableEq, Repr

/-- What a UART's line brings (R370): a character's data bits, the first received in bit 0, the level of its parity bit (of no account without one) and whether a stop
bit was low, or a break. -/
inductive UartRx where
  | char (data : Nat) (parityBit stopLow : Bool)
  | brk
deriving DecidableEq, Repr

/-- A CAN or CAN FD frame (R431, R439): `id` has 29 bits with IDE, else 11; `data` holds the data bytes that the DLC gives. -/
structure CanFrame where
  ide : Bool := false
  id : Nat := 0
  fdf : Bool := false
  brs : Bool := false
  rtr : Bool := false
  esi : Bool := false
  dlc : Nat := 0
  data : List Byte := []
deriving DecidableEq, Repr

/-- The data bytes of a DLC (R439). -/
def canLength (fdf : Bool) (dlc : Nat) : Nat :=
  if dlc ≤ 8 then dlc
  else if !fdf then 8
  else match dlc with
    | 9 => 12 | 10 => 16 | 11 => 20 | 12 => 24 | 13 => 32 | 14 => 48
    | _ => 64

/-- What else falls on the clock edge of a zone's trip (R503). -/
inductive ZoneEdge where
  | alone | vinOut | offWritten | damage
deriving DecidableEq, Repr

/-- The path of a service call to the Steward (R545): a mailbox; an ECALL with its argument pointer; a ring frame with its SRC, TEN and CALL_ID;
an Ethernet frame with its source address and CALL_ID. -/
inductive SvcPath where
  | mailbox (m : Nat)
  | ecall (ptr : Nat)
  | ring (src ten callId : Nat)
  | ether (mac : List Byte) (callId : Nat)
deriving DecidableEq, Repr

/-- The classes in which the firmware serves one call at a time (R545). -/
inductive SvcClass where
  | mailbox | ecall | ring | ether
deriving DecidableEq, Repr

/-- What a coprocessor descriptor asks for (R548, R550), as its 32 bytes spell it; addresses are core addresses. The two Track operations
carry a sample (TS, its sub-tick, position, velocity, acceleration) and the horizon of R209. -/
inductive CopOp where
  | sha (src len dst : Nat)
  | ecdsa (digest key sig : Nat)
  | aes (decrypt : Bool) (slot iv src len dst tag : Nat)
  | crc (src len dst : Nat)
  | trackAt (ts sub pos : Nat) (vel acc : Int) (horizonMs t dst : Nat)
  | trackFire (ts sub pos : Nat) (vel acc : Int) (horizonMs minV target : Nat) (lead : Int) (t dst : Nat)
  | keyLoad
  | keyWrite (slot src : Nat)
  | keyClear (slot : Nat)
  | bad (unit : Nat)
deriving DecidableEq, Repr

end Sys2Proof
end

