-- ==== Sys2Proof/Syntax.lean ====
section
/-!
DEFINITION. The commands of the hub: one constructor for each row of the table of operations and events.
-/
namespace Sys2Proof

/-- The commands that the hub takes, in the order of the table of operations and events. -/
inductive Instr where
  /-- REGISTER_WRITE (R41). A write to a register field that has no row of its own, checked for alignment, ownership, gating and staging, and stored. -/
  | registerWrite (req : Req) (page off size value : Nat)
  /-- XKEY_OPEN (R44). A write of 0xE7 to PG_CTRL.XKEY opens the page's expert level. -/
  | xkeyOpen (req : Req) (page : Nat)
  /-- XKEY_CLOSE (R46). A write of any other value to PG_CTRL.XKEY closes the page's expert level. -/
  | xkeyClose (req : Req) (page value : Nat)
  /-- SRST (R61). A write of 1 to PG_CTRL.SRST soft-resets the page's block, keeping staged and committed values and the fence. -/
  | srst (req : Req) (page : Nat)
  /-- PG_IRQ_RAW_CLEAR (R37). A W1C write to PG_IRQ_RAW clears flags, except one set by hardware on the same edge. -/
  | pgIrqRawClear (req : Req) (page mask setNow : Nat)
  /-- PG_FLT_CLEAR (R38). A W1C write to PG_FLT clears sticky fault bits; an active source sets its bit again on the next cycle. -/
  | pgFltClear (req : Req) (page mask active : Nat)
  /-- DISCARD (R54). A write of 1 to PG_SEAL.DISCARD copies every committed value of the page back into its staged value, refused while a commit runs. -/
  | discard (req : Req) (page : Nat)
  /-- VALIDATE (R52). COMMIT command 0x1 snapshots and checks the staged configuration and computes the seal without committing. -/
  | validate (req : Req)
  /-- COMMIT_NOW (R52). COMMIT command 0x2 validates and schedules the commit at the first edge after validation ends. -/
  | commitNow (req : Req)
  /-- COMMIT_AT (R52). COMMIT command 0x3 validates and schedules the commit at the ring time in SYS.COMMIT_TIME, refused if outside 1 ms to 10 s ahead. -/
  | commitAt (req : Req)
  /-- COMMIT_EPOCH (R52). COMMIT command 0x4 validates and schedules the commit at the next Atrium sampling instant. -/
  | commitEpoch (req : Req)
  /-- ABORT (R52). COMMIT command 0xF cancels a SCHEDULED commit and sets LAST_RESULT to ABORTED. -/
  | abort (req : Req)
  /-- VALIDATION_END (R51). Validation of the snapshot ends: the seal is compared under R58 and the commit is refused or becomes SCHEDULED. -/
  | validationEnd (internalError : Bool)
  /-- COMMIT_INSTANT (R55). At commit instant T every committed value takes its staged value, COMMIT_GEN increments and work in flight follows R56. -/
  | commitInstant
  /-- COMMIT_REFUSED_LATE (R53). The COMMIT_AT instant arrives before validation has ended and the commit is refused with code 0x0A02. -/
  | commitRefusedLate
  /-- REVERT (R79). MODE_REQ REVERT resets every staged and committed value except SEAL_CODE and moves the hub to Transparent. -/
  | revert (req : Req)
  /-- MAINT_ENTER (R90). MODE_REQ MAINT_ENTER moves the hub to Maintenance, recording the mode it came from in RETURN. -/
  | maintEnter (req : Req)
  /-- MAINT_EXIT (R90). MODE_REQ MAINT_EXIT returns the hub to the mode in RETURN. -/
  | maintExit (req : Req)
  /-- SHELF (R100). MODE_REQ SHELF drives outputs safe, ends forwarding with a LEAVE, idles transmitters, writes keep-alive records and drives PWR_EN low. -/
  | shelf (req : Req)
  /-- SAFESTOP (R92). MODE_REQ SAFESTOP moves the hub to Safe-stop. -/
  | safestop (req : Req)
  /-- TEST (R586). MODE_REQ TEST, in Factory or Returned, moves the hub to Test and starts the full self-test. -/
  | test (req : Req)
  /-- RESTART (R107). MODE_REQ RESTART issues a system reset and the hub enters Waking. -/
  | restart (req : Req)
  /-- ARMED_TO_RUNNING (R82). Once every enabled arm condition holds, the hub leaves Armed for Running or Degraded at the instant R82 gives. -/
  | armedToRunning
  /-- ARMED_WAIT_10S (R84). SYS.MODE has shown Armed for 10 s without change and SYS PG_IRQ_RAW bit 1 is set. -/
  | armedWait10s
  /-- RING_LOST (R87). Both ring ports have been without link or keep-alive for the detection time, or the arc is below ISLAND_MIN, and the hub enters Islanded. -/
  | ringLost
  /-- RING_REJOINED (R89). At a sampling instant after rejoin and valid time the hub leaves Islanded for Running or Degraded. -/
  | ringRejoined
  /-- SUPPLY_PRESENT (R95). A supply domain has stayed above its Good threshold for 50 µs and becomes present; a bank under AUTO measures its class. -/
  | supplyPresent (domain : Supply) (millivolts : Nat)
  /-- SUPPLY_LOST (R99). A supply domain has stayed below its Lost threshold for 2 µs and the hub reacts per domain: Shelf, power-on reset, link loss, bank fence, DRAM fence or zones off. -/
  | supplyLost (domain : Supply)
  /-- POWER_ON (R107). VKA becomes present and the power-on reset reaches everything except the fuses; the hub enters Waking with reason 0x01. -/
  | powerOn (ioSel : Bool)
  /-- WAKE_EVENT (R102). An enabled wake event qualifies in Shelf and the hub enters Waking with reason 0x02 and drives PWR_EN high. -/
  | wakeEvent (event : Wake)
  /-- POWER_ON_HOLD_END (R103). The 1 ms power-on hold after the last core supply became present ends. -/
  | powerOnHoldEnd
  /-- REFERENCE_VALID (R105). A reference input shows 4,096 consecutive edges within ±15 % and becomes valid. -/
  | referenceValid (is25 : Bool)
  /-- CORE_PLL_LOCK (R103). The core PLLs lock, the straps are sampled, core reset is released and the boot ROM starts. -/
  | corePllLock (cellarN bootsel ioSel : Bool) (hostsel : Nat)
  /-- REF25_LOST (R106). The 25 MHz reference is lost with 156.25 MHz valid; REF25_LOST is set and the PLLs hold their frequency. -/
  | ref25Lost
  /-- CORE_PLL_SWITCHOVER (R106). Within 10 µs of REF25_LOST the core PLLs switch to the 156.25 MHz reference. -/
  | corePllSwitchover
  /-- REF156_LOST (R106). The 156.25 MHz reference is lost and every SerDes link goes down. -/
  | ref156Lost
  /-- CLOCK_LOSS (R106). Both references are lost and a clock-loss system reset returns the hub to step 3 of R103. -/
  | clockLoss
  /-- PLL_UNLOCK (R106). A core PLL is out of lock for 1 µs with its reference valid and the fatal PLL_UNLOCK source is set. -/
  | pllUnlock (pll : Nat)
  /-- RST_N (R107). RST_N held low for at least 1 µs gives a system reset with reason 0x03. -/
  | rstN
  /-- PERST_N (R477). A PCI Express fundamental or hot reset resets the host port only and stops every queue pair. -/
  | perstN
  /-- GATE_REQ (R110). A write to SYS.GATE_REQ requests clock or power gating of groups, pending until HOLD, EN and coprocessor conditions permit. -/
  | gateReq (req : Req) (value : Nat)
  /-- GATE_HOLD (R110). A write from the Steward secure world to SYS.GATE_HOLD holds or releases gate groups. -/
  | gateHold (req : Req) (value : Nat)
  /-- GATE_TAKE_EFFECT (R110). A pending gate request finds its conditions met and the group takes the requested gate state. -/
  | gateTakeEffect (group : Nat)
  /-- UNGATE_COMPLETE (R111). A group's ungating completes and its pages begin to run, behaving as after a soft reset. -/
  | ungateComplete (group : Nat)
  /-- TRANSMIT_FRAME (R127). A ring port free to start a frame or fragment picks the next by the precedence of Express, Timed, link and Bulk. -/
  | transmitFrame (port stamp cut : Nat) (bad : Bool) (own : List Byte) (mark : Nat)
  /-- TRANSIT_FRAME (R152). A received frame with a valid header is forwarded, delivered or removed by the topology unit's rows and R124. -/
  | transitFrame (port stamp sd : Nat) (lane4 : Bool) (body : List Byte)
  /-- BULK_FRAGMENT (R129). A Bulk continuation fragment is received and reassembled, or the open frame is discarded as FRAG_ERR. -/
  | bulkFragment (port sd : Nat) (body : List Byte)
  /-- RECEIVE_ENERGY (R133). A port in WAIT_SIGNAL sees receive energy with RX_LOS deasserted and moves to LOCKING. -/
  | receiveEnergy (port : Nat) (los : Bool)
  /-- AUTO_DWELL (R135). The dwell on a try rate expires under AUTO and the port moves to the next rate. -/
  | autoDwell (port : Nat)
  /-- BLOCK_LOCK (R133). A LOCKING port acquires CDR lock and block lock or synchronisation and moves to HELLO. -/
  | blockLock (port : Nat)
  /-- LOCKING_TIMEOUT (R133). 1 ms passes in LOCKING without both locks and the port returns to WAIT_SIGNAL. -/
  | lockingTimeout (port : Nat)
  /-- HELLO_SEND (R134). A port in HELLO sends a HELLO frame every 10 µs, or every 100 ms in REFUSED. -/
  | helloSend (port : Nat)
  /-- HELLO (R133). A HELLO link frame is received and may take the port to UP or REFUSED. -/
  | hello (port : Nat) (frame : Frame)
  /-- HELLO_TIMEOUT (R133). 1 ms passes in HELLO without reaching UP and the port returns to WAIT_SIGNAL. -/
  | helloTimeout (port : Nat)
  /-- LOSS_OF_LOCK (R133). An UP port loses signal, CDR lock or block lock and enters SETTLING. -/
  | lossOfLock (port : Nat) (los : Bool) (symbols : Nat)
  /-- HI_BER (R133). hi_ber, loss of synchronisation, TX_FAULT or a rate change takes an UP port to DOWN. -/
  | hiBer (port symbols : Nat)
  /-- SETTLING_TIMEOUT (R133). 12 µs pass in SETTLING and the port enters DOWN. -/
  | settlingTimeout (port : Nat)
  /-- DOWN_HOLD_END (R133). 100 µs pass in DOWN and the port returns to WAIT_SIGNAL. -/
  | downHoldEnd (port : Nat)
  /-- BULK_HOLD (R137). A Bulk frame held for a port not UP exceeds BULK_HOLD and is discarded in HOLD_TO. -/
  | bulkHold (port queue : Nat)
  /-- TX_FAULT (R138). The module's TX_FAULT input goes high, setting SFP_TXFAULT and taking the port to DOWN. -/
  | txFault (port : Nat) (high : Bool)
  /-- MOD_ABS (R139). A module is inserted or removed; within 50 ms its A0h page is read into the window. -/
  | modAbs (port : Nat) (absent acknowledged : Bool) (a0 : List Byte)
  /-- SFP_A2_READ (R139). Every 100 ms the hub reads the module's A2h diagnostics page, setting SFP_I2C after failed retries. -/
  | sfpA2Read (port : Nat) (acknowledged : Bool) (a2 : List Byte)
  /-- KEEP_ALIVE_SEND (R148). A port in UP or SETTLING that has started no frame for 3 µs, or whose seed changed, sends a keep-alive. -/
  | keepAliveSend (port : Nat)
  /-- KEEP_ALIVE (R147). A keep-alive link frame is received, refreshing the seed and, with LEAVING set, wrapping the port. -/
  | keepAlive (port : Nat) (frame : Frame)
  /-- KEEP_ALIVE_LOSS (R148). An UP port's idle time reaches 10 µs and it leaves UP for DOWN. -/
  | keepAliveLoss (port : Nat)
  /-- ID_ASSIGN (R144). A position-mode node without an ID takes a free candidate ID from its numbered neighbour and sends JOIN. -/
  | idAssign
  /-- SEED (R145). A node whose seed has held for 50 ms with no announcement takes ID 1. -/
  | seed
  /-- ID_RETAKE (R146). 1 ms after withdrawal a position-mode node takes a new ID. -/
  | idRetake
  /-- PRESENT_SEND (R150). Every ANN_INT a numbered node sends a PRESENT announcement. -/
  | presentSend
  /-- JOIN (R151). A JOIN announcement is received, creating or refreshing a member entry and emptying windows on a new incarnation. -/
  | join (port : Nat) (frame : Frame)
  /-- PRESENT (R151). A PRESENT announcement is received, refreshing the member entry and break records. -/
  | present (port : Nat) (frame : Frame)
  /-- LEAVE (R151). A LEAVE announcement is received and the member entry is removed. -/
  | leave (port : Nat) (frame : Frame)
  /-- BREAK (R158). A BREAK announcement is received on the port it names, creating a break record and changing the limits and steering. -/
  | breakAnnouncement (port : Nat) (frame : Frame)
  /-- HEAL (R162). A HEAL announcement is received and its record is scheduled for removal at T_h. -/
  | heal (port : Nat) (frame : Frame)
  /-- HOPS_EXPIRE (R151). HOPS_E or HOPS_W expires 3 × ANN_INT after its last announcement, removing the entry when both have expired. -/
  | hopsExpire (id port : Nat)
  /-- LINK_STABLE (R162). An UP port not open has stayed UP for LINK_STABLE and the node sends HEAL with T_h. -/
  | linkStable (port : Nat)
  /-- HEAL_INSTANT (R162). At T_h the port is open, wrapping stops and matching records are removed. -/
  | healInstant (sender port : Nat)
  /-- STEER_HOLD (R161). A flow held after a change of direction reaches STEER_HOLD and its frames leave on the new direction. -/
  | steerHold (flow : Nat)
  /-- WAKE (R164). A write of 1 to a TOPO.WAKE bit unparks the port, which sends idle characters. -/
  | wake (req : Req) (value : Nat)
  /-- NEIGHBOUR_DELAY_REQUEST_SEND (R177). Every PD_INT an UP port sends a neighbour delay request. -/
  | neighbourDelayRequestSend (port : Nat)
  /-- NEIGHBOUR_DELAY_REQUEST (R177). A neighbour delay request is received and answered with a response carrying TURN. -/
  | neighbourDelayRequest (port stamp : Nat) (frame : Frame)
  /-- NEIGHBOUR_DELAY_RESPONSE (R178). A neighbour delay response is received and d is filtered into the port's mean delay. -/
  | neighbourDelayResponse (port stamp : Nat) (frame : Frame)
  /-- PD_LOST (R177). No response has arrived 100 µs after a request and it is counted in PD_LOST. -/
  | pdLost (port : Nat)
  /-- SYNC_SEND (R180). Every SYNC_INT the master sends a time sync frame. -/
  | syncSend
  /-- TIME_SYNC (R182). A delivered time sync frame is accepted or ignored and drives the servo, state machine and master choice. -/
  | timeSync (port stamp : Nat) (frame : Frame)
  /-- SYNC_TO (R183). No accepted sync for SYNC_TO moves the main path to HOLDOVER or FREE. -/
  | syncTo
  /-- MASTER_CLAIM (R187). A candidate that has accepted no better sync for SYNC_TO + PRIO × 20 µs claims and becomes master. -/
  | masterClaim
  /-- HOLD_VALID (R184). HOLD_VALID passes in HOLDOVER or RELOCK and the main path stops being valid. -/
  | holdValid
  /-- FALL_BACK_LOAD (R173). Every 125 µs the fall-back value is copied from main-path ring time while the main path is in use. -/
  | fallBackLoad
  /-- NOW_LO (R171). A read of TIME.NOW_LO latches NOW_HI and NOW_SUB from the same ring time. -/
  | nowLo (req : Req)
  /-- FB_INC (R172). A write to TIME.FB_INC sets the fall-back increment, refused outside 1.9–2.1 ns. -/
  | fbInc (req : Req) (value : Nat)
  /-- SAMPLE_INSTANT (R200). At a Track source's sample instant the encoder is read and a Track sample frame is sent. -/
  | sampleInstant (track : Nat)
  /-- SSI_READ_END (R382). An SSI read ends and its value goes to the Track unit or the receive FIFO, or a frame error is raised. -/
  | ssiReadEnd (unit raw : Nat) (first last : Bool)
  /-- TRACK_SAMPLE (R206). A delivered Track sample is accepted or counted as rejected and advances the Track state machine. -/
  | trackSample (frame : Frame)
  /-- CONVERSION_PASS (R215). A conversion pass converts every pending action of a Track into firing instants after a sample is accepted. -/
  | conversionPass (track : Nat)
  /-- CONVERSION (R214). A newly queued positional action is converted within 2 µs into a firing instant or halted. -/
  | conversion (owner number : Nat)
  /-- AGE_LIM (R207). A Track's age exceeds AGE_LIM and it leaves LIVE; pending actions follow their stale policies. -/
  | ageLim (track : Nat)
  /-- AGE_LIM2 (R218). A Track's age exceeds AGE_LIM2 and pending EXTRAP actions not yet fired are discarded. -/
  | ageLim2 (track : Nat)
  /-- PRESET_CMD (R221). A write to TRK.PRESET_CMD with key 0x5E7A presets the source's position at the next sample instant. -/
  | presetCmd (req : Req) (track value : Nat)
  /-- STATS_CLR (R224). A write to STATS_CLR empties the drift bins of the profiles named. -/
  | statsClr (req : Req) (track mask : Nat)
  /-- FB_MISS (R222). No feedback edge within FB_WIN of a firing closes the measurement as a miss. -/
  | fbMiss (track profile : Nat)
  /-- SMP_TS_LO (R227). A read of SMP_TS_LO latches the rest of the newest sample. -/
  | smpTsLo (req : Req) (track : Nat)
  /-- NOW_POS_LO (R210). A read of NOW_POS_LO latches p(t) and v(t) at the read. -/
  | nowPosLo (req : Req) (track : Nat)
  /-- SAMPLING_INSTANT (R236). At S(n) a node samples and publishes its slot, and Atrium-driven outputs take the values of the closed epoch. -/
  | samplingInstant (epoch : Nat)
  /-- CLOSE_INSTANT (R241). At C(n) the epoch closes and banks, validity bitmap, stale ages and descriptor change at one edge. -/
  | closeInstant
  /-- ATRIUM_SLOT (R239). A delivered Atrium slot frame is checked and stored into the back bank, or discarded or marked invalid. -/
  | atriumSlot (frame : Frame)
  /-- READY (R234). A write of 1 to ATR.PUB_CTL.READY marks the publish shadow ready for the next S(n). -/
  | ready (req : Req)
  /-- PUBLISH_BUFFER_WRITE (R234). A write to the publish buffer shadow, refused and counted in PUB_BUSY while READY is 1. -/
  | publishBufferWrite (req : Req) (offset size value : Nat)
  /-- EPOCH_LO (R253). A read of ATR.EPOCH_LO latches EPOCH_HI and VALID from the same close. -/
  | epochLo (req : Req)
  /-- REMOTE_WRITE_ISSUE (R259). A local requester's write to a remote address is issued by the bridge as a posted remote write. -/
  | remoteWriteIssue (req : Req) (n : Nat) (window : Bool) (node : Nat) (bulk : Option Bool) (addr acc : Nat) (data : List Byte)
  /-- REMOTE_READ_ISSUE (R265). A local requester's read of a remote address takes an open-read slot and is sent as a read request. -/
  | remoteReadIssue (req : Req) (n : Nat) (window : Bool) (node : Nat) (bulk : Option Bool) (addr acc len : Nat)
  /-- REMOTE_WRITE (R263). A delivered remote write is checked and applied word by word, with an error response on failure. -/
  | remoteWrite (frame : Frame)
  /-- REMOTE_READ_REQUEST (R263). A delivered remote read request is checked, served and answered with a response. -/
  | remoteReadRequest (frame : Frame) (uncorr : Option Nat)
  /-- READ_RESPONSE (R267). A delivered response completes its matching open read, or is logged as unmatched. -/
  | readResponse (frame : Frame)
  /-- RD_TO (R266). An open read has no matched response after RD_TO and completes with status 0x0D. -/
  | rdTo (slot : Nat)
  /-- TAG_SLOT_RELEASE (R265). 50 ms after a timeout frees a read slot the slot may be assigned again. -/
  | tagSlotRelease (slot : Nat)
  /-- INTERRUPT_MESSAGE_SEND (R272). An IRQ_OUT entry sends an interrupt message on a rising PG_IRQ_PEND bit, at most once per 10 µs. -/
  | interruptMessageSend (entry : Nat)
  /-- IRQ_SEND (R272). A write to BRG.IRQ_SEND sends the named IRQ_OUT entry if its SW is 1. -/
  | irqSend (req : Req) (value : Nat)
  /-- INTERRUPT_MESSAGE (R273). A delivered interrupt message is taken to its sink at once or held until the other path catches up. -/
  | interruptMessage (port : Nat) (frame : Frame)
  /-- IRQ_HELD_RELEASE (R273). A held interrupt message is delivered once the other path's window reaches its SEQ, is empty or its port is not UP. -/
  | irqHeldRelease (src seq : Nat)
  /-- IRQ_HOLD (R273). A message still held after IRQ_HOLD is delivered and counted in IRQ_LATE. -/
  | irqHold (src seq : Nat)
  /-- ROUTED_MESSAGE (R277). A delivered routed CAN or serial message is matched against inbound entries and queued for transmission. -/
  | routedMessage (frame : Frame)
  /-- STEWARD_MESSAGE (R546). A delivered Steward message frame is queued as a service call or delivered as a reply. -/
  | stewardMessage (frame : Frame)
  /-- MIRROR_COPY (R301). A delivered mirror copy is sent out of the local Ethernet port or discarded in PSC_DISCARD. -/
  | mirrorCopy (frame : Frame)
  /-- TUNNELLED_ETHERNET_FRAME (R453). A delivered tunnelled Ethernet frame is sent out of the Ethernet port and offered to the host queue pairs. -/
  | tunnelledEthernetFrame (frame : Frame) (buffers : List (Nat × Nat)) (cut : Nat)
  /-- BULK_ADMISSION (R288). A Bulk frame header reaching the switch core is classified, metered, pinned by the Lens and admitted or dropped. -/
  | bulkAdmission
  /-- EXPRESS_ADMISSION (R287). An Express or Timed frame is admitted within its port's reserve share or dropped in XT_DROP. -/
  | expressAdmission
  /-- PIN_AGE (R298). A pin entry unused for PIN_AGE seconds becomes invalid. -/
  | pinAge (flow : Nat)
  /-- LENS_EPOCH (R299). At a multiple of ROT_INT minutes of ring time the Lens salt changes. -/
  | lensEpoch
  /-- TRAINING_END (R290). DRAM training ends and the controller becomes READY or FAILED. -/
  | trainingEnd (passed : Bool) (mr4 : Nat)
  /-- QD_DEPTH (R307). A read of QOS.QD_DEPTH latches QD_AVG and QD_DRAM. -/
  | qdDepth (req : Req)
  /-- TOKEN_REFILL (R315). At every S(n) each tenant's token count is set to XBUDGET and waiting frames are sent. -/
  | tokenRefill
  /-- RAW_EDGE (R334). A channel's raw level changes and the glitch filter starts its measure. -/
  | rawEdge (channel : Nat) (level : Bool)
  /-- FILTERED_EDGE (R334). The glitch filter accepts a new level, which is counted, captured and passed to reactions and feedback. -/
  | filteredEdge (channel : Nat) (withPair : Bool)
  /-- OUT_LEVEL (R341). A write to CH.OUT.LEVEL is an event of source 4 on the channel's output. -/
  | outLevel (req : Req) (channel : Nat) (level : Bool)
  /-- OUT_DUTY (R344). A write to CH.OUT.DUTY sets the PWM duty from the next period. -/
  | outDuty (req : Req) (channel duty : Nat)
  /-- QE3 (R346). A write to QE3 pushes the timed-action queue entry or refuses it. -/
  | qE3 (req : Req) (channel tag : Nat)
  /-- QUEUE_ENTRY_FIRE (R347). A queue entry reaches its instant or F and fires, leaving the queue. -/
  | queueEntryFire (channel : Nat)
  /-- PENDING_END (R348). A pulse's pending end falls due and drives the opposite level. -/
  | pendingEnd (channel : Nat)
  /-- FLUSH (R349). A write of 1 to CH.CTL.FLUSH discards every queue entry. -/
  | flush (req : Req) (channel : Nat)
  /-- REARM (R350). A write of 1 to CH.CTL.REARM arms a ONCE reaction. -/
  | rearm (req : Req) (channel : Nat)
  /-- CAP_CLR (R356). A write of 1 to CH.CTL.CAP_CLR empties the capture FIFO. -/
  | capClr (req : Req) (channel : Nat)
  /-- CAP_ACK (R336). A write to CAP_ACK consumes the oldest capture entries, refused above COUNT. -/
  | capAck (req : Req) (channel n : Nat)
  /-- CNT (R337). A write to CH.CNT sets the count, refused for a source Track's encoder. -/
  | cnt (req : Req) (channel value : Nat)
  /-- CAP_LO (R356). A read of CAP_LO latches CAP_HI and CAP_INFO. -/
  | capLo (req : Req) (channel : Nat)
  /-- FIRE_INFO (R356). A read of FIRE_INFO latches FIRE_LO and FIRE_HI. -/
  | fireInfo (req : Req) (channel : Nat)
  /-- READBACK (R343). The pin level differs from the driven level for 1 µs and READBACK is counted and raised. -/
  | readback (channel : Nat)
  /-- SUPPLY_RANGE (R329). A bank supply stays outside its class window for 1 ms and SUPPLY_RANGE is raised. -/
  | supplyRange (bank : Nat)
  /-- TXD (R363). A write to TXD or the push window pushes a transmit entry, stalling while the FIFO is full. -/
  | txd (req : Req) (page off value : Nat)
  /-- STALL_TO (R363). A stalled push finds no free entry within STALL_MAX and completes with an error response. -/
  | stallTo (page : Nat)
  /-- RXD (R362). A read of RXD or the pop window pops a receive entry, or the idle item when empty. -/
  | rxd (req : Req) (page off : Nat)
  /-- TX_FLUSH (R390). A write of 1 to FIFO_CTL.TX_FLUSH empties the transmit FIFO. -/
  | txFlush (req : Req) (page : Nat)
  /-- RX_FLUSH (R390). A write of 1 to FIFO_CTL.RX_FLUSH empties the receive FIFO. -/
  | rxFlush (req : Req) (page : Nat)
  /-- TS_CLR (R390). A write of 1 to FIFO_CTL.TS_CLR empties the stamp FIFO. -/
  | tsClr (req : Req) (page : Nat)
  /-- TS_ACK (R390). A write to TS_ACK consumes the oldest stamp entries. -/
  | tsAck (req : Req) (page value : Nat)
  /-- RX_TO (R390). The receive FIFO holds entries and nothing has been pushed for RX_TO µs, setting PG_IRQ_RAW bit 2. -/
  | rxTo (page : Nat)
  /-- UART_CHARACTER_RECEIVE (R370). A UART character, break or error is received and pushed to the receive FIFO or the message buffer. -/
  | uartCharacterReceive (unit : Nat) (rx : UartRx) (ago : Nat) (old : Bool)
  /-- UART_CHARACTER_TRANSMIT (R369). The UART transmitter takes the next entry and sends a character, break, gap or message end. -/
  | uartCharacterTransmit (unit : Nat)
  /-- MESSAGE_END (R374). An idle gap of GAP character times or the delimiter ends a received message, which is routed or placed in the FIFO. -/
  | messageEnd (unit : Nat)
  /-- WAKE_IOL (R377). A write of 1 to IOL_CTL.WAKE runs the IO-Link wake-up and rate establishment sequence. -/
  | wakeIol (req : Req) (unit value : Nat)
  /-- RESP_TO (R378). No start bit follows an END within TA_MAX bit times and a TO entry is pushed. -/
  | respTo (unit : Nat)
  /-- FRAME (R380). A write to SPI.FRAME pushes a command entry that starts an SPI master frame. -/
  | frame (req : Req) (unit value : Nat)
  /-- SPI_WORD (R380). An SPI word is clocked, and the received word pushed, in master or slave role. -/
  | spiWord (unit data : Nat) (old : Bool)
  /-- CS_DEASSERT (R381). CS0 deasserts at an SPI slave, discarding a partial word. -/
  | csDeassert (unit : Nat) (partWord : Bool)
  /-- SSI_CTL_READ (R383). A write to SSI_CTL.READ starts one SSI read, or is ignored for a Track source's encoder. -/
  | ssiCtlRead (req : Req) (unit value : Nat)
  /-- I2C_TRANSMIT_ENTRY (R387). An I²C master executes the next START, WRITE, READ, STOP or BUS_CLEAR entry and pushes data or status. -/
  | i2cTransmitEntry (unit : Nat) (ack arb : Bool) (bytes : List Byte) (ago : Nat)
  /-- STRETCH_TO (R386). SCL is held low beyond STRETCH_TO and the transaction ends with status 0x04. -/
  | stretchTo (unit : Nat)
  /-- OWN_ADDRESS_MATCHED (R388). An I²C slave sees its own address and pushes a START entry. -/
  | ownAddressMatched (unit : Nat) (read : Bool) (ago : Nat)
  /-- SLV_STRETCH_MAX (R388). An I²C slave with an empty transmit FIFO has stretched SCL for SLV_STRETCH_MAX and sends 0xFF. -/
  | slvStretchMax (unit : Nat) (nack : Bool)
  /-- START (R401). A write to PRS.CTL.START starts the engine if every check holds. -/
  | start (req : Req) (unit : Nat)
  /-- STOP (R400). A write to PRS.CTL.STOP stops the engine, discarding armed slots and driving its pins safe. -/
  | stop (req : Req) (unit : Nat)
  /-- EVT_CLR (R420). A write to PRS.CTL.EVT_CLR clears every fired and dropped flag. -/
  | evtClr (req : Req) (unit : Nat)
  /-- GROUP_START (R417). GRP_CTL command START starts every named engine that R401 admits. -/
  | groupStart (req : Req) (unit value : Nat)
  /-- START_AT (R417). GRP_CTL command START_AT puts every admitted named engine in WAIT_START until GRP_AT. -/
  | startAt (req : Req) (unit value : Nat)
  /-- START_INSTANT (R399). An engine in WAIT_START reaches its start instant and runs. -/
  | startInstant (unit : Nat)
  /-- GROUP_STOP (R417). GRP_CTL command STOP stops every named engine. -/
  | groupStop (req : Req) (unit value : Nat)
  /-- GROUP_RESTART (R418). GRP_CTL command RESTART puts every running named engine's divider to phase 0. -/
  | groupRestart (req : Req) (unit value : Nat)
  /-- RESTART_AT (R418). GRP_CTL command RESTART_AT re-phases the named engines' dividers at the instant in GRP_AT. -/
  | restartAt (req : Req) (unit value : Nat)
  /-- PROGRAM_MEMORY_WRITE (R397). A write to a Prism engine's program memory or PROG, refused unless the engine is stopped. -/
  | programMemoryWrite (req : Req) (unit : Nat) (word : Option Nat) (value : Nat)
  /-- SUM_CALC (R398). SUM_CALC is brought up to date within 5 µs of the last program write. -/
  | sumCalc (unit : Nat)
  /-- W (R420). A write to a working register, refused unless the engine is stopped. -/
  | w (req : Req) (unit index value : Nat)
  /-- INQ (R413). A write to PRS.INQ or the push window pushes to the engine's IN queue. -/
  | inq (req : Req) (unit off value : Nat)
  /-- OUTQ (R413). A read of PRS.OUTQ or the pop window pops from the engine's OUT queue. -/
  | outq (req : Req) (unit off : Nat)
  /-- IN_FLUSH (R420). A write of 1 to QCTL.IN_FLUSH empties IN. -/
  | inFlush (req : Req) (unit : Nat)
  /-- OUT_FLUSH (R420). A write of 1 to QCTL.OUT_FLUSH empties OUT. -/
  | outFlush (req : Req) (unit : Nat)
  /-- STAMP_LO (R420). A read of STAMP_LO latches STAMP_HI and STAMP_INFO. -/
  | stampLo (req : Req) (unit : Nat)
  /-- NOP (R407). Prism instruction NOP does nothing for one tick. -/
  | nop (unit : Nat)
  /-- LDI (R407). Prism instruction LDI loads a sign-extended 20-bit immediate. -/
  | ldi (unit : Nat)
  /-- LUI (R407). Prism instruction LUI loads the upper 16 bits of a register. -/
  | lui (unit : Nat)
  /-- MOV (R407). Prism instruction MOV copies a register. -/
  | mov (unit : Nat)
  /-- ADD (R407). Prism instruction ADD adds two registers and sets Z, N and C. -/
  | add (unit : Nat)
  /-- SUB (R407). Prism instruction SUB subtracts two registers and sets the flags. -/
  | sub (unit : Nat)
  /-- AND (R407). Prism instruction AND forms a bitwise AND. -/
  | and (unit : Nat)
  /-- OR (R407). Prism instruction OR forms a bitwise OR. -/
  | or (unit : Nat)
  /-- XOR (R407). Prism instruction XOR forms a bitwise XOR. -/
  | xor (unit : Nat)
  /-- SHL (R407). Prism instruction SHL shifts left. -/
  | shl (unit : Nat)
  /-- SHR (R407). Prism instruction SHR shifts right logically. -/
  | shr (unit : Nat)
  /-- SAR (R407). Prism instruction SAR shifts right arithmetically. -/
  | sar (unit : Nat)
  /-- ADDI (R407). Prism instruction ADDI adds a sign-extended 17-bit immediate. -/
  | addi (unit : Nat)
  /-- MUL (R407). Prism instruction MUL multiplies two registers unsigned. -/
  | mul (unit : Nat)
  /-- LD (R407). Prism instruction LD loads a data memory word. -/
  | ld (unit : Nat)
  /-- ST (R407). Prism instruction ST stores a data memory word. -/
  | st (unit : Nat)
  /-- JMP (R407). Prism instruction JMP jumps. -/
  | jmp (unit : Nat)
  /-- JCC (R407). Prism instruction JCC jumps if its flag condition holds. -/
  | jcc (unit : Nat)
  /-- DJNZ (R407). Prism instruction DJNZ decrements and jumps if not zero. -/
  | djnz (unit : Nat)
  /-- CALL (R407). Prism instruction CALL pushes the return address and jumps. -/
  | call (unit : Nat)
  /-- RET (R407). Prism instruction RET pops the return address. -/
  | ret (unit : Nat)
  /-- HALT (R399). Prism instruction HALT puts the engine in HALTED. -/
  | halt (unit : Nat)
  /-- PDIR (R407). Prism instruction PDIR sets pin directions. -/
  | pdir (unit : Nat)
  /-- POUT (R403). Prism instruction POUT sets output pins from an immediate. -/
  | pout (unit : Nat)
  /-- POUTR (R403). Prism instruction POUTR sets output pins from a register. -/
  | poutr (unit : Nat)
  /-- PIN (R407). Prism instruction PIN reads the filtered pin levels. -/
  | pin (unit : Nat)
  /-- WAITP (R408). Prism instruction WAITP begins a wait for a pin level or edge, with an optional timeout. -/
  | waitp (unit : Nat)
  /-- WAITP_END (R408). A WAITP condition is met; an edge writes the stamp latch. -/
  | waitpEnd (unit : Nat)
  /-- WAITP_TIMEOUT (R408). A WAITP with TMO reaches Wt ticks without its condition and ends with C set. -/
  | waitpTimeout (unit : Nat)
  /-- SHIFTO (R409). Prism instruction SHIFTO sends N bits on a data pin, optionally clocked. -/
  | shifto (unit : Nat)
  /-- SHIFTI (R409). Prism instruction SHIFTI receives N bits from a data pin. -/
  | shifti (unit : Nat)
  /-- TIME (R407). Prism instruction TIME reads ring time into a register pair. -/
  | time (unit : Nat)
  /-- STAMP (R407). Prism instruction STAMP reads the stamp latch into a register pair. -/
  | stamp (unit : Nat)
  /-- WAITT (R407). Prism instruction WAITT begins a wait until a ring-time instant. -/
  | waitt (unit : Nat)
  /-- WAITT_END (R407). Ring time reaches the WAITT instant and the engine continues. -/
  | waittEnd (unit : Nat)
  /-- DELAY (R407). Prism instruction DELAY begins a wait of n ticks. -/
  | delay (unit : Nat)
  /-- DELAY_END (R407). A DELAY's ticks have passed and the engine continues. -/
  | delayEnd (unit : Nat)
  /-- PULL (R407). Prism instruction PULL pops IN, waiting if empty and blocking. -/
  | pull (unit : Nat)
  /-- PULL_WAIT_END (R407). A blocking PULL finds an entry in IN and completes. -/
  | pullWaitEnd (unit : Nat)
  /-- PUSH (R407). Prism instruction PUSH pushes to OUT, waiting if full and blocking. -/
  | push (unit : Nat)
  /-- PUSH_WAIT_END (R407). A blocking PUSH finds room in OUT and completes. -/
  | pushWaitEnd (unit : Nat)
  /-- PUB (R414). Prism instruction PUB sets the publish word. -/
  | pub (unit : Nat)
  /-- IRQ (R407). Prism instruction IRQ sets PG_IRQ_RAW bit 4 + n. -/
  | irq (unit : Nat)
  /-- ARMT (R410). Prism instruction ARMT arms an action slot at a ring-time instant. -/
  | armt (unit : Nat)
  /-- ARMP (R411). Prism instruction ARMP arms an action slot at a Track target position. -/
  | armp (unit : Nat)
  /-- WAITE (R412). Prism instruction WAITE begins a wait for slot fired or dropped flags. -/
  | waite (unit : Nat)
  /-- WAITE_END (R412). A slot in the WAITE mask sets a flag and the flags are returned and cleared. -/
  | waiteEnd (unit : Nat)
  /-- CANCEL (R407). Prism instruction CANCEL disarms the slots in its mask. -/
  | cancel (unit : Nat)
  /-- TPOS (R408). Prism instruction TPOS reads the position latched with the stamp. -/
  | tpos (unit : Nat)
  /-- TNOW (R407). Prism instruction TNOW reads p(t) of a Track now. -/
  | tnow (unit : Nat)
  /-- ILLEGAL_INSTRUCTION (R407). An illegal instruction does not execute and the engine goes to FAULTED with ILLEGAL set. -/
  | illegalInstruction (unit : Nat)
  /-- ACTION_SLOT_FIRE (R410). An armed action slot reaches its instant or F and changes its output pins. -/
  | actionSlotFire (unit slot : Nat)
  /-- GO (R432). A write to CAN.GO hands an object to the controller, refused in the cases of R433. -/
  | go (req : Req) (unit value : Nat)
  /-- CAN_CANCEL (R432). A write to CAN.CANCEL returns a pending send object, an armed receive object or a route object. -/
  | canCancel (req : Req) (unit value : Nat)
  /-- RECOVER (R427). A write to CAN.CTL.RECOVER starts bus-off recovery counting. -/
  | recover (req : Req) (unit value : Nat)
  /-- INTEGRATING_END (R427). 11 consecutive recessive bits end INTEGRATING and the controller becomes ACTIVE or PASSIVE. -/
  | integratingEnd (unit : Nat)
  /-- BUS_OFF_RECOVERY (R427). 128 occurrences of 11 recessive bits end BUS_OFF with the counters at 0. -/
  | busOffRecovery (unit : Nat)
  /-- TRANSMIT_CHOICE (R434). At bus idle or intermission the controller chooses the next pending send or route object. -/
  | transmitChoice (unit : Nat) (idle : Bool)
  /-- CAN_TRANSMISSION_END (R432). A CAN frame transmission succeeds and its object is returned SENT or emptied. -/
  | canTransmissionEnd (unit ago delay : Nat)
  /-- ARBITRATION_LOST (R435). An attempt loses arbitration and is retried or abandoned at ARB_LIM. -/
  | arbitrationLost (unit : Nat)
  /-- TRANSMISSION_ERROR (R435). An attempt meets an error, updating counters, and is retried or abandoned at ERR_LIM; TEC above 255 gives BUS_OFF. -/
  | transmissionError (unit eights delay : Nat)
  /-- CAN_FRAME_RECEIVE (R437). A frame becomes valid and is stored in an accepting object, lost, or offered to the route table. -/
  | canFrameReceive (unit : Nat) (frame : CanFrame) (ago : Nat) (own : Bool)
  /-- ETHERNET_FRAME_RECEIVE (R451). A received Ethernet frame is length-checked, filtered and dispatched to control, Steward, PTP or the tunnel. -/
  | ethernetFrameReceive (rx : EtherRx) (c8 : Nat)
  /-- CONTROL_REQUEST (R454). A control request frame from CTRL_MAC is served locally or issued remotely, and answered with a reply. -/
  | controlRequest (bytes : List Byte)
  /-- ETHERNET_SERVICE_FRAME (R547). An Ethernet frame with EtherType 0x88B7 to the Steward is served as a service call. -/
  | ethernetServiceFrame (bytes : List Byte)
  /-- ETH_LINK_UP (R449). The local Ethernet link comes up and preemption verification restarts. -/
  | ethLinkUp (word : Nat)
  /-- ETH_LINK_DOWN (R447). The local Ethernet link goes down and frames for port 2 are discarded in TX_DOWN. -/
  | ethLinkDown
  /-- VERIFY_TIME (R449). VERIFY_TIME passes without a respond mPacket; a verify is resent or preemption fails after three. -/
  | verifyTime
  /-- MDIO (R461). A write to ETH.MDIO starts a management frame. -/
  | mdio (req : Req) (value : Nat)
  /-- MDIO_FRAME_END (R461). An MDIO frame completes and BUSY clears, with read data in RDATA. -/
  | mdioFrameEnd (data : Nat)
  /-- WAKE_TX (R459). A write of 1 to WAKE_TX.GO sends the wake pattern, taking the link down for 20 ms. -/
  | wakeTx (req : Req) (value : Nat)
  /-- WAKE_TX_END (R459). The 20 ms wake pattern ends and link bring-up restarts. -/
  | wakeTxEnd
  /-- PCIE_WRITE_TLP (R466). A PCI Express memory write TLP is one posted access to the local map or the remote window. -/
  | pcieWriteTlp (n bar off : Nat) (data : List Byte)
  /-- PCIE_READ_TLP (R466). A PCI Express memory read request TLP is one read, answered with completions or Completer Abort. -/
  | pcieReadTlp (n bar off len : Nat)
  /-- QSPI_READ (R470). QSPI command 0x0B reads on one line, returning wait bytes, the marker, status and data. -/
  | qspiRead (n addr len : Nat) (abandoned : Bool)
  /-- QSPI_QUAD_READ (R470). QSPI command 0xEB reads on four lines. -/
  | qspiQuadRead (n addr len : Nat) (abandoned : Bool)
  /-- QSPI_WRITE (R470). QSPI command 0x02 writes on one line, performed when HQ_CS_N rises. -/
  | qspiWrite (n addr len : Nat) (data : List Byte)
  /-- QSPI_QUAD_WRITE (R470). QSPI command 0x38 writes on four lines. -/
  | qspiQuadWrite (n addr len : Nat) (data : List Byte)
  /-- QSPI_BAD (R469). An undefined QSPI command byte is ignored until HQ_CS_N rises and counted. -/
  | qspiBad
  /-- TX_PROD (R473). A write to QP.TX_PROD hands transmit descriptors to the hub. -/
  | txProd (req : Req) (qp value : Nat)
  /-- DESCRIPTOR_FETCH (R475). The hub fetches the next transmit descriptor of a queue pair in turn. -/
  | descriptorFetch (qp : Nat) (words : List Nat)
  /-- DESCRIPTOR_WRITE (R473). A WRITE descriptor issues a write of the buffer to its ring address. -/
  | descriptorWrite (qp : Nat) (buffer : List Byte)
  /-- DESCRIPTOR_READ (R473). A READ descriptor issues a read whose data is written to host memory. -/
  | descriptorRead (qp : Nat)
  /-- DESCRIPTOR_TUNNEL (R474). A TUNNEL descriptor sends the buffer as a tunnelled Ethernet frame. -/
  | descriptorTunnel (qp : Nat) (buffer : List Byte)
  /-- DESCRIPTOR_COMPLETE (R475). A descriptor completes and its word 6 and TX_CONS are written in ring order. -/
  | descriptorComplete (qp : Nat)
  /-- RX_TAIL (R476). A write to QP.RX_TAIL makes receive descriptors available. -/
  | rxTail (req : Req) (qp value : Nat)
  /-- QP_STOP (R477). EN written 0, link loss, D3hot or a host memory error stops a queue pair, which drains. -/
  | qpStop (qp err : Nat)
  /-- DRAIN_END (R477). The last issued read of a draining queue pair finishes and STATE returns to 0. -/
  | drainEnd (qp : Nat)
  /-- VPEND (R471). A W1C write to HOST.VPEND clears pending vectors. -/
  | vpend (req : Req) (high : Bool) (bits : Nat)
  /-- MSI_X_SEND (R478). An MSI-X message is sent when its source fires, or when its mask clears or the function returns to D0. -/
  | msiXSend (vector : Nat)
  /-- SEND (R481). MBX command SEND marks the mailbox FULL and rings the reader's doorbell bit. -/
  | send (req : Req) (mailbox len : Nat)
  /-- ACK (R481). MBX command ACK empties the mailbox, records the return code and rings the writer's doorbell bit. -/
  | ack (req : Req) (mailbox rc : Nat)
  /-- RECALL (R481). MBX command RECALL empties a FULL mailbox with return code 0xFFFF. -/
  | recall (req : Req) (mailbox : Nat)
  /-- MAILBOX_DATA_WRITE (R480). A write to a mailbox's data, refused for the wrong writer, a full or a disabled mailbox. -/
  | mailboxDataWrite (req : Req) (off size value : Nat)
  /-- RING (R484). A write to DB.RING sets doorbell bits of a side. -/
  | ring (req : Req) (side bits : Nat)
  /-- DB_RAW_CLEAR (R484). A W1C write to DB.RAW by the side itself clears doorbell bits. -/
  | dbRawClear (req : Req) (side bits : Nat)
  /-- ON (R501). A write to ZONE.CMD.ON commands the zone on or off. -/
  | on (req : Req) (unit value : Nat)
  /-- UNLATCH (R501). A write of 1 to ZONE.CTL.UNLATCH takes a LATCHED zone to OFF in recovery. -/
  | unlatch (req : Req) (unit : Nat)
  /-- EN_CLR (R494). A write of 1 to ZONE.CTL.EN_CLR clears the energy accumulator. -/
  | enClr (req : Req) (unit : Nat)
  /-- SHUNT_SAMPLE (R493). A current sample is converted, energy accumulated and the SLOW and RAMP_ENERGY trips judged. -/
  | shuntSample (unit : Nat) (vsh : Int) (edge : ZoneEdge)
  /-- VOLTAGE_SAMPLE (R498). An output or drain voltage sample is taken, ending a ramp or taking VIN out of range. -/
  | voltageSample (unit : Nat) (drain : Bool) (millivolts : Int) (vgs : Nat)
  /-- FAST_TRIP (R497). The shunt voltage exceeds IFAST and the comparator clamps the gate within 400 ns. -/
  | fastTrip (unit : Nat) (vsh : Int) (edge : ZoneEdge)
  /-- RAMP_TIME (R497). A ramp fails to reach its end within MAX_MS and trips. -/
  | rampTime (unit : Nat) (edge : ZoneEdge)
  /-- RAMP_TURN (R499). A waiting zone gets its turn when no other zone ramps and starts its ramp. -/
  | rampTurn (unit : Nat)
  /-- BACKOFF_END (R502). A zone's back-off elapses and it returns to WAIT. -/
  | backoffEnd (unit : Nat)
  /-- VIN_IN_RANGE (R498). VIN has stayed within UV and OV for 100 ms and the zone is permitted again. -/
  | vinInRange (unit : Nat)
  /-- RETRY_CLR (R502). A zone stays ON for RETRY.CLR seconds and its retry count and recovery clear. -/
  | retryClr (unit : Nat)
  /-- ZERO_COLD (R495). With the gate clamped 20 ms, VOUT below 1 V and a cool shunt the cold zero is taken. -/
  | zeroCold (unit : Nat)
  /-- ZERO_HOT (R495). 2 ms after a turn-off at load the hot zero is taken and compared with the cold zero. -/
  | zeroHot (unit : Nat)
  /-- GATE_T (R506). The gate-to-source voltage misses VGS_RISE or VGS_FULL within GATE_T and DMG_GATE is raised. -/
  | gateT (unit vgs : Nat) (full : Bool)
  /-- OFF_T (R507). VOUT stays above half VIN with the gate clamped for OFF_T and DMG_OUT and FP_ALERT_N are set. -/
  | offT (unit : Nat)
  /-- CHOP_CYCLE (R492). Every 1 ms the converter chops its shunt input, checking its offset and raising ADC_CHK. -/
  | chopCycle (unit : Nat) (offset : Int)
  /-- IMEAS (R511). A read of ZONE.IMEAS latches VOUT, VIN and PWR. -/
  | imeas (req : Req) (unit : Nat)
  /-- ENERGY_LO (R511). A read of ZONE.ENERGY_LO latches ENERGY_HI. -/
  | energyLo (req : Req) (unit : Nat)
  /-- FAULT_TRANSITION (R516). A PG_FLT bit goes from 0 to 1 and the collector reacts by its class: note, fence request or Safe-stop. -/
  | faultTransition (sources : List (Nat × Nat))
  /-- FENCE (R520). The fence request at the head of the queue fences its unit within 100 ns. -/
  | fence
  /-- RELEASE (R523). A write to FLT.RELEASE releases a fenced unit, soft-resetting its pages, or is refused. -/
  | release (req : Req) (key page : Nat)
  /-- REPEAT_CLR (R521). A unit stays unfenced for REPEAT_CLR seconds and its fence count returns to 0. -/
  | repeatClr (page : Nat)
  /-- THERMAL_READING (R529). Every 100 µs the sensors are read and Bulk shedding, bank shedding or Safe-stop applied. -/
  | thermalReading (t0 t1 t2 t3 : Int)
  /-- STEP_MS (R529). Tj stays at or above BANK_C for another STEP_MS and the bank shed level rises. -/
  | stepMs
  /-- SENSOR_DIFF (R528). A sensor differs from the median by more than 15 °C for 10 ms and leaves use. -/
  | sensorDiff (sensor : Nat)
  /-- ECALL (R540). The Annex calls a secure-world service by ECALL. -/
  | ecall (code ptr len : Nat)
  /-- ANNEX_ACCESS_FAULT (R538). An Annex access outside its PMP regions or pages raises PMP_FAULT and stops the Annex. -/
  | annexAccessFault (addr : Nat) (kind : Nat)
  /-- COP_START (R549). COP.START retires and starts the coprocessor operation described at rs1. -/
  | copStart (annex : Bool) (rd : Nat) (op : CopOp)
  /-- COP_WAIT (R549). COP.WAIT stalls until the coprocessor is idle and returns the status word. -/
  | copWait (annex : Bool) (rd : Nat)
  /-- COP_POLL (R549). COP.POLL returns the status word at once. -/
  | copPoll (annex : Bool) (rd : Nat)
  /-- COP_ABORT (R549). COP.ABORT ends the operation in progress with RESULT ABORTED. -/
  | copAbort (annex : Bool) (rd : Nat)
  /-- SHA_256 (R548). The coprocessor hashes LEN bytes with SHA-256. -/
  | sha256
  /-- ECDSA_P_256 (R548). The coprocessor verifies an ECDSA P-256 signature over a digest. -/
  | ecdsaP256
  /-- AES_256_GCM (R548). The coprocessor encrypts or decrypts with a key slot and makes or checks the tag. -/
  | aes256Gcm
  /-- CRC_32C (R548). The coprocessor computes a CRC-32C check value. -/
  | crc32c
  /-- TRACK_ARITHMETIC (R548). The coprocessor computes p(t) and v(t), or Δh and F, from a sample. -/
  | trackArithmetic
  /-- KEY_LOAD (R550). The coprocessor copies the device secret into key slot 0, refused in Factory, Returned and Retired. -/
  | keyLoad
  /-- KEY_WRITE (R550). The coprocessor copies 32 bytes into a key slot 1–7. -/
  | keyWrite
  /-- KEY_CLEAR (R550). The coprocessor zeroes a key slot. -/
  | keyClear
  /-- COPROCESSOR_COMPLETE (R550). A coprocessor operation completes, its slot changes take effect and input 37 is raised. -/
  | coprocessorComplete
  /-- WDOG_KICK (R543). A write to STW.WDOG_KICK with the world's key restarts that world's watchdog. -/
  | wdogKick (req : Req) (key : Nat)
  /-- WDOG_S (R543). The secure watchdog expires and STW is fenced. -/
  | wdogS
  /-- WDOG_A (R543). The Annex watchdog expires and the Annex is stopped. -/
  | wdogA
  /-- STEWARD_READY (R572). The firmware writes STW.READY with key 0x3EAD and the hub leaves Waking for Transparent or Held. -/
  | stewardReady (req : Req) (key : Nat)
  /-- ANX_CTL_START (R539). ANX_CTL.START runs a loaded or stopped Annex. -/
  | anxCtlStart (req : Req)
  /-- ANX_CTL_STOP (R539). ANX_CTL.STOP stops the running Annex. -/
  | anxCtlStop (req : Req)
  /-- UNLOAD (R539). ANX_CTL.UNLOAD unloads a stopped Annex. -/
  | unload (req : Req)
  /-- TIMER_COMPARATOR (R542). Ring time passes a core comparator's value and raises the machine timer or Annex interrupt. -/
  | timerComparator (annex : Bool) (value : Nat)
  /-- VERSION (R545). Service 0x0001 returns the firmware and ROM versions. -/
  | version (cls : SvcClass)
  /-- STATUS (R545). Service 0x0002 returns the lifecycle, mode, Annex state, uptime and a fresh nonce. -/
  | status (cls : SvcClass)
  /-- LC_ADVANCE (R545). Service 0x0010 advances the lifecycle with a valid token. -/
  | lcAdvance (cls : SvcClass)
  /-- KEY_REVOKE (R556). Service 0x0011 revokes an integrator key slot with a valid token. -/
  | keyRevoke (cls : SvcClass)
  /-- ANX_START (R545). Service 0x0020 starts the Annex. -/
  | anxStart (cls : SvcClass)
  /-- ANX_STOP (R545). Service 0x0021 stops the Annex. -/
  | anxStop (cls : SvcClass)
  /-- ANX_PAGES (R545). Service 0x0022 sets the pages the Annex may reach. -/
  | anxPages (cls : SvcClass)
  /-- GATE_RELEASE (R557). Service 0x0030 asks the firmware to drop gate holds whose cause has ended. -/
  | gateRelease (cls : SvcClass)
  /-- TRANS (R555). A write to LC.TRANS with key 0x1C5E makes a permitted lifecycle transition, then a system reset. -/
  | trans (req : Req) (key target : Nat)
  /-- OTP_PROG (R552). A write to LC.OTP_PROG with key 0xB10E blows the 1 bits of OTP_WDATA into the named fuse word. -/
  | otpProg (req : Req) (key : Nat)
  /-- BOOT_ROM_START (R570). The boot ROM reads the fuses and boot records, chooses and checks a slot and jumps to the firmware, or enters Cellar. -/
  | bootRomStart (flashOk : Bool) (pot : List (Nat × Nat × Nat)) (potUs : Nat)
  /-- UPD_INFO (R574). Update service 0x0100 returns the UPD status registers. -/
  | updInfo (cls : SvcClass)
  /-- UPD_BEGIN (R575). Update service 0x0101 clears LAND, erases the Landing and starts a download. -/
  | updBegin (cls : SvcClass) (flashOk : Bool)
  /-- UPD_DATA (R576). Update service 0x0102 takes download data at the received count and programs complete blocks. -/
  | updData (cls : SvcClass) (flashOk : Bool)
  /-- UPD_VERIFY (R577). Update service 0x0103 starts checking the Landing image under R568. -/
  | updVerify (cls : SvcClass)
  /-- VERIFICATION_END (R575). Verification of the Landing ends with VERIFIED or EMPTY. -/
  | verificationEnd (flashOk : Bool)
  /-- UPD_ACTIVATE (R578). Update service 0x0104 copies the Landing into the target slot and marks it TRIAL and ACTIVE. -/
  | updActivate (cls : SvcClass) (flashOk : Bool)
  /-- ACTIVATION_END (R575). Activation ends and the Landing returns to RECEIVED. -/
  | activationEnd (flashOk : Bool)
  /-- UPD_CONFIRM (R579). Update service 0x0105 marks the booted TRIAL slot GOOD. -/
  | updConfirm (cls : SvcClass) (flashOk : Bool)
  /-- AUTO_CONFIRM (R579). After CONFIRM_S seconds in Running or Degraded the firmware confirms the trial slot itself. -/
  | autoConfirm (flashOk : Bool)
  /-- UPD_REVERT (R579). Update service 0x0106 makes the other slot ACTIVE, marking a TRIAL slot BAD. -/
  | updRevert (cls : SvcClass) (flashOk : Bool)
  /-- UPD_ABORT (R575). Update service 0x0107 empties the Landing. -/
  | updAbort (cls : SvcClass) (flashOk : Bool)
  /-- UPD_CELLAR (R574). Update service 0x0108 sets CELLAR_NEXT in the boot record. -/
  | updCellar (cls : SvcClass) (flashOk : Bool)
  /-- REBOOT (R574). 100 ms after a reply with REBOOT set the firmware issues RESTART. -/
  | reboot
  /-- BIST_PHASE_END (R587). A phase of the full self-test ends and its blocks are re-initialised. -/
  | bistPhaseEnd (failed page detail : Nat)
  /-- SELF_TEST_END (R590). The full self-test ends with a system reset, staying in Test, or Safe-stop. -/
  | selfTestEnd
  /-- BIST_INFO (R593). Service 0x0200 returns the BIST result registers. -/
  | bistInfo (cls : SvcClass)
  /-- UNIT_TEST (R593). Service 0x0201 starts a self-test of one fenced unit in Maintenance. -/
  | unitTest (cls : SvcClass)
  /-- UNIT_ABORT (R598). Service 0x0202 ends a running unit test within 1 ms. -/
  | unitAbort (cls : SvcClass)
  /-- UNIT_TEST_END (R595). A unit test ends, the unit is re-initialised and UNIT shows the result. -/
  | unitTestEnd (failed page detail : Nat)
  /-- SERDES_PLL_UNLOCK (R140). A ring port's SerDes PLL stays out of lock for 1 µs with its reference valid and raises the SERDES_PLL fault source. -/
  | serdesPllUnlock (port : Nat)
  /-- REFERENCE_WAIT_LIMIT (R103). After 20 ms in step 3 of the start-up sequence without a valid 25 MHz reference, the hub proceeds on the 156.25 MHz reference. -/
  | referenceWaitLimit
  /-- RST_N_RELEASE (R107). RST_N rises after a reset and the hub, held in step 3 of R103, may proceed with start-up. -/
  | rstNRelease
  /-- DRAM_TIMEOUT (R305). A DRAM access is not complete within 10 µs and the DRAM_TIMEOUT fault source is set. -/
  | dramTimeout
  /-- MERGED_INTERRUPT_MESSAGE (R272). At the end of an IRQ_OUT entry's 10 µs spacing, the message holding the events merged in the meantime is sent. -/
  | mergedInterruptMessage (entry : Nat)
  /-- BANK_MEASUREMENT (R329). Every 100 µs the bank monitor measures VDD_BANK[k], updating VMEAS and the ratiometric derived thresholds. -/
  | bankMeasurement (bank millivolts : Nat)
  /-- PWM_PERIOD (R344). A PWM period starts at a multiple of 2 × PERIOD × 2^PRE ticks; the pin goes high and a pending new duty takes effect. -/
  | pwmPeriod (channel : Nat)
  /-- IOL_STAGE_TIMER (R377). The TWU, TREN, TDMT or TA_MAX time of the IO-Link wake-up and establish sequence runs out, advancing to the next stage, try, rate or FAILED. -/
  | iolStageTimer (unit : Nat)
  /-- CS_ASSERT (R381). CS0 is asserted at an SPI slave, opening a selection, enabling MISO and stamping an RX start event. -/
  | csAssert (unit ago : Nat)
  /-- I2C_SLAVE_BYTE (R388). An addressed I²C slave receives a byte written by the master, or sends a byte for a read, a master NACK ending the read. -/
  | i2cSlaveByte (unit : Nat) (data : Byte) (nack : Bool)
  /-- I2C_BUS_STOP (R387). A STOP condition appears on the I²C bus; a slave pushes its STOP entry and a master waiting for the bus may send its START. -/
  | i2cBusStop (unit : Nat)
  /-- SHIFT_END (R409). A SHIFTO or SHIFTI has moved its N bits over N or 2N ticks and the engine continues with the next instruction. -/
  | shiftEnd (unit : Nat)
  /-- PIN_DEFER_END (R404). At the end of the minimum half period a deferred Prism pin change takes effect, the last of several deferred changes winning. -/
  | pinDeferEnd (unit pin : Nat)
  /-- RECEPTION_ERROR (R427). A CAN controller detects an error while receiving a frame, changes REC, may move between ACTIVE and PASSIVE, and counts RX_ERR or a protocol exception. -/
  | receptionError (unit : Nat) (first : Bool) (eights : Nat) (exception : Bool)
  /-- PCIE_CONFIGURATION_REQUEST (R464). A PCI Express configuration request is served, changing Bus Master Enable, D0 or D3hot state, or other configuration space. -/
  | pcieConfigurationRequest (change : PcieChange)
  /-- PCIE_LINK_UP (R483). The PCI Express link comes up; STAT.LINK_UP changes, HOST PG_IRQ_RAW bit 0 is set and a host mailbox reader becomes present. -/
  | pcieLinkUp (rate width : Nat)
  /-- PCIE_LINK_DOWN (R487). The PCI Express link is lost after being up; LINK_LOSS is raised, LINK_UP changes, queue pairs stop and the host reader becomes absent. -/
  | pcieLinkDown
  /-- SECURE_WATCHDOG_HALF (R541). The secure watchdog reaches half its period and raises Steward interrupt input 40. -/
  | secureWatchdogHalf
  /-- OTP_PROG_DONE (R552). Fuse programming of one word ends within 2 ms; OTP_STAT.BUSY clears, RESULT is set and LC PG_IRQ_RAW bit 0 is set. -/
  | otpProgDone (blown : Nat)
  /-- LC_TRANSITION_DONE (R555). A lifecycle transition ends within 30 ms, TRANS_STAT leaves busy with its result, and a system reset with reason 0x03 follows. -/
  | lcTransitionDone (copies : Nat)
deriving DecidableEq, Repr

end Sys2Proof
end

