-- ==== Sys2Proof/Decode.lean ====
section
/-!
DEFINITION. The commands that words spell: none. The table of operations and events gives no row any bits; the hub's own encodings
(register addresses, LRL frames, Prism instruction words) are read by the commands' meanings.
-/
namespace Sys2Proof

/-- The command that a word of the table's bits spells: no row of the table has bits. -/
def decodeTableWord (nbits w : Nat) : Option Instr :=
  match nbits, w with
  | _, _ => none

end Sys2Proof
end

