-- ==== Sys2Proof/Machine/Bits.lean ====
section
/-!
DEFINITION. Bit fields, two's complement, saturation, rounding and byte order.
-/
namespace Sys2Proof

/-- The value of a `w`-bit two's complement number. -/
def toSigned (w n : Nat) : Int :=
  let m := n % 2 ^ w
  if 2 * m < 2 ^ w then (m : Int) else (m : Int) - (2 ^ w : Nat)

/-- The `w`-bit two's complement code of a number. -/
def ofSigned (w : Nat) (i : Int) : Nat := (i % (2 ^ w : Nat)).toNat

/-- A count of `w` bits that saturates at its largest value. -/
def satAdd (w a b : Nat) : Nat := min (a + b) (2 ^ w - 1)

/-- Bit `i` of a number. -/
def bitOf (n i : Nat) : Bool := n.testBit i

/-- A number with bit `i` set. -/
def withBit (n i : Nat) : Nat := n ||| (1 <<< i)

/-- A number with bit `i` clear. -/
def withoutBit (n i : Nat) : Nat := if n.testBit i then n - 2 ^ i else n

/-- A number with bit `i` set to `b`. -/
def putBit (n i : Nat) (b : Bool) : Nat := if b then withBit n i else withoutBit n i

/-- 1 for true, 0 for false. -/
def flag (b : Bool) : Nat := if b then 1 else 0

/-- Rounding up to a multiple of `m`. -/
def roundUp (n m : Nat) : Nat := (n + m - 1) / m * m

/-- The bits `[lo + w - 1 : lo]` of a number. -/
def slice (n lo w : Nat) : Nat := (n >>> lo) % 2 ^ w

/-- Whether an odd number of the low `n` bits is 1. -/
def oddOnes (n v : Nat) : Bool := (List.range n).foldl (fun a i => a != v.testBit i) false

/-- The little-endian value of bytes (R5). -/
def leNat : List Byte → Nat
  | [] => 0
  | b :: bs => b.toNat + 256 * leNat bs

/-- The `k` little-endian bytes of a number (R5). -/
def leBytes : Nat → Nat → List Byte
  | 0, _ => []
  | k + 1, n => BitVec.ofNat 8 n :: leBytes k (n / 256)

/-- The big-endian value of bytes. -/
def beNat (bs : List Byte) : Nat := leNat bs.reverse

/-- The `k` big-endian bytes of a number. -/
def beBytes (k n : Nat) : List Byte := (leBytes k n).reverse

end Sys2Proof
end

