-- ==== Sys2Proof/Machine/Crc.lean ====
section
/-!
DEFINITION. The checks of the manual: the header check and the frame check of the ring (R121), the slot check (R237), CRC-32C (R57).
-/
namespace Sys2Proof

/-- One bit-reflected CRC step repeated: shift right, with the reflected polynomial where the low bit is 1. -/
def crcRight (poly : Nat) : Nat → Nat → Nat
  | 0, c => c
  | n + 1, c => crcRight poly n (if c % 2 = 1 then (c / 2) ^^^ poly else c / 2)

/-- A reflected 32-bit CRC continued over bytes, without the final XOR. -/
def crcRun (poly : Nat) : List Byte → Nat → Nat
  | [], c => c
  | b :: bs, c => crcRun poly bs (crcRight poly 8 (c ^^^ b.toNat))

/-- The IEEE 802.3 CRC-32 (R121). -/
def crc32 (bs : List Byte) : Nat := crcRun 0xEDB88320 bs 0xFFFFFFFF ^^^ 0xFFFFFFFF

/-- CRC-32C, initial value and final XOR 0xFFFF_FFFF (R57). -/
def crc32c (bs : List Byte) : Nat := crcRun 0x82F63B78 bs 0xFFFFFFFF ^^^ 0xFFFFFFFF

/-- One unreflected 16-bit CRC step repeated. -/
def crcLeft (poly : Nat) : Nat → Nat → Nat
  | 0, c => c
  | n + 1, c => crcLeft poly n (if 0x8000 ≤ c then (c * 2 % 0x10000) ^^^ poly else c * 2 % 0x10000)

/-- An unreflected 16-bit CRC continued over bytes. -/
def crc16Run (poly : Nat) : List Byte → Nat → Nat
  | [], c => c
  | b :: bs, c => crc16Run poly bs (crcLeft poly 8 (c ^^^ (b.toNat * 256)))

/-- The CRC with polynomial 0x1021, initial value 0xFFFF, no reflection and no final XOR (R121, R237). -/
def crc16 (bs : List Byte) : Nat := crc16Run 0x1021 bs 0xFFFF

end Sys2Proof
end

