-- ==== Sys2Proof/Machine/Lrl.lean ====
section
/-!
DEFINITION. LRL frames: start delimiters, the header, the checks, the frame types and the reading of what a port receives (R116 to R129, R630, R631).
-/
namespace Sys2Proof

/-- What a start delimiter byte means (R116): the class of a frame, or a Bulk continuation by its number modulo 4. -/
inductive Sd where
  | frame (c : Cls)
  | continuation (m : Nat)
deriving DecidableEq, Repr

/-- The meaning of a start delimiter byte; any other byte is foreign (R116). -/
def sdOf (b : Nat) : Option Sd :=
  if b = 0x3C then some (.frame .express)
  else if b = 0x5A then some (.frame .timed)
  else if b = 0x66 then some (.frame .bulk)
  else if b = 0xC3 then some (.frame .link)
  else if b = 0x33 then some (.continuation 1)
  else if b = 0x69 then some (.continuation 2)
  else if b = 0x96 then some (.continuation 3)
  else if b = 0x0F then some (.continuation 0)
  else none

/-- The first 18 header bytes (R120). -/
def Header.bytes (x : Header) : List Byte :=
  leBytes 1 (x.ver * 64 + x.type % 64)
    ++ leBytes 1 (flag x.dir * 128 + flag x.wrapped * 64 + flag x.dual * 32 + flag x.mirror * 16 + x.ten % 16)
    ++ leBytes 2 (flag x.group * 4096 + x.dst % 4096) ++ leBytes 2 (x.src % 4096) ++ leBytes 2 x.seq
    ++ leBytes 2 (x.len % 16384) ++ leBytes 2 (x.hops % 16384) ++ leBytes 2 x.flow ++ leBytes 2 x.tag ++ leBytes 2 x.aux

/-- The 20 header bytes, the header check last, low byte first (R121). -/
def Header.encode (x : Header) : List Byte := x.bytes ++ leBytes 2 (crc16 x.bytes)

/-- The header that 20 bytes carry; reserved bits are ignored (R120). -/
def Header.decode (bs : List Byte) : Header :=
  let w (i n : Nat) : Nat := leNat ((bs.drop i).take n)
  { ver := w 0 1 / 64, type := w 0 1 % 64, dir := bitOf (w 1 1) 7, wrapped := bitOf (w 1 1) 6, dual := bitOf (w 1 1) 5,
    mirror := bitOf (w 1 1) 4, ten := w 1 1 % 16, group := bitOf (w 2 2) 12, dst := w 2 2 % 4096, src := w 4 2 % 4096,
    seq := w 6 2, len := w 8 2 % 16384, hops := w 10 2 % 16384, flow := w 12 2, tag := w 14 2, aux := w 16 2 }

/-- Whether the header check of 20 bytes holds (R121). -/
def headerCheck (bs : List Byte) : Bool := crc16 (bs.take 18) == leNat ((bs.drop 18).take 2)

/-- Whether a header is valid (R123), its check apart. -/
def Header.valid (x : Header) (c : Cls) : Bool :=
  x.ver == 1 && !(decide (8 ≤ x.ten) && decide (x.ten ≤ 14)) && !(x.dst == 0 && !x.group && c != .link)

/-- The largest LEN of a class (R125). -/
def Cls.maxLen : Cls → Nat
  | .express => 1040 | .timed => 1040 | .bulk => 9600 | .link => 24

/-- The bytes of a frame from header byte 0 to the end of the payload. -/
def Frame.bytes (f : Frame) : List Byte := f.hdr.encode ++ f.payload

/-- The frame check of a frame, least significant byte first (R121). -/
def Frame.check (f : Frame) : List Byte := leBytes 4 (crc32 f.bytes)

/-- A header as the next node receives it: HOPS raised by one (R120). -/
def Header.hop (x : Header) : Header := { x with hops := x.hops + 1 }

/-- What a port makes of the bytes between a start delimiter and /T/ (R126, R630); a frame that fails carries the payload bytes received. -/
inductive RxResult where
  | runt
  | headerError
  | oversize
  | lengthError (f : Frame)
  | crcError (f : Frame)
  | stomped (f : Frame)
  | fragment (bs : List Byte) (good : Bool)
  | whole (f : Frame)
deriving DecidableEq, Repr

/-- The start delimiter of a Bulk fragment by its number: 0 the first, then the continuation's number modulo 4 (R116, R128). -/
def fragmentSd (n : Nat) : Nat :=
  if n = 0 then 0x66 else if n % 4 = 1 then 0x33 else if n % 4 = 2 then 0x69 else if n % 4 = 3 then 0x96 else 0x0F

/-- The running check that ends a fragment (R121). -/
def fragmentCheck (bs : List Byte) : Nat := crc32 bs ^^^ 0x0000FFFF

/-- How the bytes of a frame that has come to its end are judged: header and payload `bs`, check `chk` (R126). -/
def judgeWhole (c : Cls) (bs : List Byte) (chk : Nat) : RxResult :=
  let f : Frame := { cls := c, hdr := Header.decode bs, payload := bs.drop 20 }
  if chk = crc32 bs then .whole f
  else if chk = crc32 bs ^^^ 0xFFFFFFFF then .stomped f
  else .crcError f

/-- How a port judges the bytes from header byte 0 to the last byte before /T/ (R123, R126, R630). -/
def judge (c : Cls) (body : List Byte) : RxResult :=
  if body.length < 20 then .runt
  else
    let x := Header.decode body
    if !headerCheck body || !x.valid c then .headerError
    else if c.maxLen < x.len then .oversize
    else if body.length = 24 + x.len then
      judgeWhole c (body.take (20 + x.len)) (leNat (body.drop (20 + x.len)))
    else if c = .bulk ∧ body.length - 4 < 20 + x.len ∧ (body.length - 4) % 60 = 0 ∧ 64 ≤ body.length then
      let bs := body.take (body.length - 4)
      .fragment bs (leNat (body.drop (body.length - 4)) == fragmentCheck bs)
    else .lengthError { cls := c, hdr := x, payload := (body.drop 20).take x.len }

/-- The classes that R122 allows for a frame type; none for a type that it does not define. -/
def typeClasses (t : Nat) : Option (List Cls) :=
  if t = 0x01 then some [.express]
  else if t = 0x02 ∨ t = 0x03 then some [.timed]
  else if t = 0x08 ∨ t = 0x09 ∨ t = 0x0A ∨ t = 0x0C then some [.express, .bulk]
  else if t = 0x10 then some [.express]
  else if t = 0x18 ∨ t = 0x19 ∨ t = 0x1A then some [.bulk]
  else if t = 0x20 then some [.express, .timed, .bulk]
  else if t = 0x30 ∨ t = 0x31 ∨ t = 0x32 ∨ t = 0x33 then some [.link]
  else none

/-- The fixed LEN of a frame type (R631); none where the length varies. -/
def fixedLen (t : Nat) : Option Nat :=
  if t = 0x02 then some 32
  else if t = 0x03 then some 40
  else if t = 0x0C then some 16
  else if t = 0x10 then some 40
  else if t = 0x30 then some 24
  else if t = 0x31 then some 24
  else if t = 0x32 then some 8
  else if t = 0x33 then some 24
  else none

/-- Whether a frame's LEN is the one its type requires (R631). -/
def Frame.lenOk (f : Frame) : Bool :=
  match fixedLen f.hdr.type with
  | some n => f.hdr.len == n
  | none => true

/-- Whether a frame's class is allowed for its type (R123). -/
def Frame.classOk (f : Frame) : Bool :=
  match typeClasses f.hdr.type with
  | some cs => cs.contains f.cls
  | none => true

/-- Whether a frame's type is one that R122 defines. -/
def Frame.known (f : Frame) : Bool := (typeClasses f.hdr.type).isSome

/-- Whether a frame taken for this node is delivered: not one of an unknown type, nor of a class or a length that its type does not allow, nor an
announcement, which the topology unit reads (R123, R631). -/
def Frame.delivers (f : Frame) : Bool := f.known && f.classOk && f.lenOk && f.hdr.type != 0x10

/-- Whether a frame's header lets no node forward it any more (R124). -/
def Header.spent (x : Header) : Bool := decide (8191 ≤ x.hops)

/-- A field of a payload, little-endian. -/
def Frame.field (f : Frame) (i n : Nat) : Nat := leNat ((f.payload.drop i).take n)

/-- The length of a frame as its bytes lie on the line; shorter than its LEN says where a length error cut it (R126). -/
def Frame.sentLength (f : Frame) : Nat := 24 + f.payload.length

/-- The length of a frame: header, payload and check (R125). -/
def Frame.length (f : Frame) : Nat := 24 + f.hdr.len

/-! ### Frames in the switch core (R283) -/

/-- An Ethernet frame on its way to switch port 2, from its destination address through its FCS, as the switch core carries it here:
version 0, which no ring frame has, marks it. -/
def etherFrame (cls : Cls) (ten : Nat) (bs : List Byte) : Frame := { cls := cls, hdr := { ver := 0, ten := ten }, payload := bs }

/-- Whether a frame in the switch core is an Ethernet frame. -/
def Frame.isEther (f : Frame) : Bool := f.hdr.ver == 0

/-- The length B of a frame in bytes (R283). -/
def Frame.size (f : Frame) : Nat := if f.isEther then f.payload.length else f.length

/-- The cells that a frame of B bytes occupies (R283). -/
def cellsOf (b : Nat) : Nat := (b + 16 + 127) / 128

/-- The cells of a frame (R283). -/
def Frame.cells (f : Frame) : Nat := cellsOf f.size

/-- The bytes of a frame on a switch port that the Periscope captures: an Ethernet frame of port 2 from its destination address through its FCS,
else an LRL frame with its check (R301). -/
def Frame.captured (f : Frame) (port : Nat) : List Byte :=
  if f.isEther then f.payload
  else if port = 2 ∧ f.hdr.type = 0x18 then f.payload.drop 16 ++ leBytes 4 (crc32 (f.payload.drop 16))
  else f.bytes ++ f.check

end Sys2Proof
end

