-- ==== Sys2Proof/Config.lean ====
section
/-!
DEFINITION. What the manual leaves open and this model leaves free: uninterpreted constants, none with a
value that a proof could use.
Where the manual is open: DESIGN CHOICE, log entries 44 and 45: safe, since nothing constrains them.
-/
namespace Sys2Proof.Config

/-- A value the manual does not fix; the argument is a counter in the state that each use advances. -/
opaque freeValue : Nat → BitVec 128

/-- The calibration that fuse words 9 to 23 hold, item by item; the manual names the items and not their places (R176, R552).
Items 0 to 11: the TX and RX latency in ps of each port and rate; 12, 13: TX_TC and RX_TC in 0.1 ps/°C; 14 on: ETH.TS_LAT. -/
opaque calibration : List Nat → Nat → Int

/-- The servo's gain codes KP and KI as the hub derives them from SYNC_INT (R183). -/
opaque servoGain : Nat → Nat × Nat

/-- The transmit equalisation PRE, MAIN and POST that the hub derives for a copper cable or an optical module at a rate setting (R139, TX_EQ). -/
opaque txEqualisation : Bool → Nat → Nat × Nat × Nat

/-- SHA-256 of bytes (R548, R567), which the manual names and does not define. -/
opaque sha256 : List Byte → BitVec 256

/-- Whether an ECDSA P-256 signature verifies: the public key's x and y, the signature's r and s, the digest (R548, R567). -/
opaque ecdsaVerifies : Nat → Nat → Nat → Nat → BitVec 256 → Bool

/-- AES-256-GCM of the coprocessor (R548): the data encrypted or decrypted, and the tag, from the direction, the key, the initial value and the
data; numbers of bytes taken little-endian. -/
opaque aesGcm : Bool → Nat → Nat → List Byte → Nat × BitVec 128

/-- Whether the 32 bytes of a token name a target (a state, or a key slot), a unit ID and a nonce (R556). -/
opaque tokenNames : List Byte → Nat → Nat → Nat → Bool

/-- The version of the boot ROM (R545). -/
opaque romVersion : BitVec 32

/-- The offset of the Annex comparator in the core-private block (R535, R542). -/
opaque annexComparator : Nat

end Sys2Proof.Config
end

