-- ==== Sys2Proof/Machine/MapOps.lean ====
section
/-!
DEFINITION. Sparse tables by number: the entries that differ from an idle value, in strictly rising order of number.
Where the manual is open: DESIGN CHOICE, log entry 6: an unlisted byte reads 0.
-/
namespace Sys2Proof

/-- The entry of a number, if listed. -/
def Map.find {α : Type} : Map α → Nat → Option α
  | [], _ => none
  | e :: m, k => if e.1 = k then some e.2 else Map.find m k

/-- The entry of a number; the idle value where none is listed. -/
def Map.getD {α : Type} (m : Map α) (k : Nat) (d : α) : α := (Map.find m k).getD d

/-- A table without the entry of a number. -/
def Map.erase {α : Type} (m : Map α) (k : Nat) : Map α := m.filter (fun e => e.1 != k)

/-- A table with a further entry put before the first greater number. -/
def Map.insert {α : Type} : Map α → Nat → α → Map α
  | [], k, v => [(k, v)]
  | e :: m, k, v => if k < e.1 then (k, v) :: e :: m else e :: Map.insert m k v

/-- A table with the entry of a number set. -/
def Map.set {α : Type} (m : Map α) (k : Nat) (v : α) : Map α := Map.insert (Map.erase m k) k v

/-- A table with the entry of a number set; an idle value is not listed. -/
def Map.put {α : Type} [DecidableEq α] (m : Map α) (k : Nat) (d v : α) : Map α :=
  if v = d then Map.erase m k else Map.set m k v

/-- The numbers rise strictly. -/
def Map.sorted {α : Type} : Map α → Bool
  | [] => true
  | [_] => true
  | a :: b :: m => decide (a.1 < b.1) && Map.sorted (b :: m)

/-- The byte at an address of a memory; zero where nothing is listed. -/
def Mem.read (m : Map Byte) (a : Nat) : Byte := Map.getD m a 0

/-- A memory with one byte written; a zero is not listed. -/
def Mem.write (m : Map Byte) (a : Nat) (b : Byte) : Map Byte := Map.put m a 0 b

/-- `n` bytes of a memory from an address on. -/
def Mem.readN (m : Map Byte) (a : Nat) : Nat → List Byte
  | 0 => []
  | n + 1 => Mem.read m a :: Mem.readN m (a + 1) n

/-- A memory with bytes written from an address on. -/
def Mem.writeN (m : Map Byte) (a : Nat) : List Byte → Map Byte
  | [] => m
  | b :: bs => Mem.writeN (Mem.write m a b) (a + 1) bs

/-- The little-endian word of `n` bytes at an address (R5). -/
def Mem.word (m : Map Byte) (a n : Nat) : Nat := leNat (Mem.readN m a n)

/-- A memory with the `n` little-endian bytes of a word written at an address (R5). -/
def Mem.setWord (m : Map Byte) (a n v : Nat) : Map Byte := Mem.writeN m a (leBytes n v)

/-- The canonical form of a memory whose unlisted bytes read as `idle`: its addresses rise strictly, and it lists no such byte. -/
def Memory.wf (idle : Byte) (m : Map Byte) : Bool := Map.sorted m && m.all (fun e => e.2 != idle)

/-- A memory with every byte outside `[lo, hi)` kept and those inside cleared. -/
def Mem.clear (m : Map Byte) (lo hi : Nat) : Map Byte := m.filter (fun e => decide (e.1 < lo) || decide (hi ≤ e.1))

end Sys2Proof
end

