-- ==== Sys2Proof/Machine/Fields.lean ====
section
/-!
DEFINITION. How a register field is described: its place, its access type (R6) and its reset value (R8); and the page map (R31).
-/
namespace Sys2Proof.Machine

/-- The access types of R6. -/
inductive Access where
  | rw | ro | wo | w1c | w1s | rc | stk | stg
deriving DecidableEq, Repr

/-- One field of a register page: the register's offset, the field's lowest bit, its width, its access type and its reset value. -/
structure Fld where
  off : Nat
  lo : Nat
  w : Nat
  acc : Access
  rst : Nat
deriving DecidableEq, Repr

/-- The page groups of R31. -/
inductive Kind where
  | sys | lc | stw | upd | bist | flt | therm | mbx | host | time | topo | rport | atr | brg | sw | qos | dram | eth
  | trk | ten | zone | can | bank | uart | spi | i2c | prs | ch
deriving DecidableEq, Repr

/-- The first page of a group, which is also its type code (R31). -/
def Kind.base : Kind → Nat
  | .sys => 0x000 | .lc => 0x001 | .stw => 0x002 | .upd => 0x003 | .bist => 0x004 | .flt => 0x005 | .therm => 0x006
  | .mbx => 0x007 | .host => 0x008 | .time => 0x010 | .topo => 0x011 | .rport => 0x012 | .atr => 0x014 | .brg => 0x015
  | .sw => 0x016 | .qos => 0x017 | .dram => 0x018 | .eth => 0x019 | .trk => 0x020 | .ten => 0x030 | .zone => 0x038
  | .can => 0x03C | .bank => 0x040 | .uart => 0x050 | .spi => 0x060 | .i2c => 0x068 | .prs => 0x080 | .ch => 0x100

/-- The number of instances of a group (R31). -/
def Kind.count : Kind → Nat
  | .rport => 2 | .trk => 16 | .ten => 8 | .zone => 4 | .can => 4 | .bank => 16 | .uart => 16 | .spi => 8 | .i2c => 8
  | .prs => 32 | .ch => 128
  | _ => 1

/-- The page groups in ascending page number. -/
def Kind.all : List Kind :=
  [.sys, .lc, .stw, .upd, .bist, .flt, .therm, .mbx, .host, .time, .topo, .rport, .atr, .brg, .sw, .qos, .dram, .eth,
   .trk, .ten, .zone, .can, .bank, .uart, .spi, .i2c, .prs, .ch]

/-- The page of instance `i` of a group (R31). -/
def Kind.page (k : Kind) (i : Nat) : Nat := k.base + i

/-- The group of a used page; none for an unused page (R31). -/
def kindOf (p : Nat) : Option Kind :=
  Kind.all.find? (fun k => decide (k.base ≤ p) && decide (p < k.base + k.count))

/-- Whether a page number is used (R31). -/
def usedPage (p : Nat) : Bool := (kindOf p).isSome

/-- The instance index of a page in its group (R31). -/
def instOf (p : Nat) : Nat :=
  match kindOf p with
  | some k => p - k.base
  | none => 0

/-- Every used page in ascending order. -/
def usedPages : List Nat := Kind.all.flatMap (fun k => (List.range k.count).map (fun i => k.base + i))

end Sys2Proof.Machine
end

