-- ==== Sys2Proof/Machine/RegTable.lean ====
section
/-!
DEFINITION. Every register field of the hub, page by page, from the register tables of the manual's chapters: offset, lowest bit,
width, access type and reset value. A repeated register takes its index. Reserved fields have no entry: they read as zero (R7).
Where the manual is open: DESIGN CHOICE, log entry 1: values the manual does not give.
-/

namespace Sys2Proof.Machine.Reg

/-! The ten registers of every page (R35, R627). -/
namespace PG
def ID_TYPE : Fld := ⟨0x000, 20, 12, .ro, 0⟩
def ID_INST : Fld := ⟨0x000, 12, 8, .ro, 0⟩
def ID_MAJOR : Fld := ⟨0x000, 8, 4, .ro, 1⟩
def ID_MINOR : Fld := ⟨0x000, 0, 8, .ro, 0⟩
def CAPS_EXPERT : Fld := ⟨0x004, 31, 1, .ro, 0⟩
def CAPS_STAGED : Fld := ⟨0x004, 30, 1, .ro, 1⟩
def CAPS_OWNED : Fld := ⟨0x004, 29, 1, .ro, 1⟩
def CAPS_FENCEABLE : Fld := ⟨0x004, 28, 1, .ro, 1⟩
def CAPS_MEMWIN : Fld := ⟨0x004, 27, 1, .ro, 0⟩
def CAPS_BLOCK : Fld := ⟨0x004, 0, 16, .ro, 0⟩
def CTRL_OWNER : Fld := ⟨0x008, 24, 4, .stg, 0xF⟩
def CTRL_XKEY : Fld := ⟨0x008, 8, 8, .wo, 0⟩
def CTRL_SRST : Fld := ⟨0x008, 1, 1, .wo, 0⟩
def CTRL_EN : Fld := ⟨0x008, 0, 1, .stg, 0⟩
def STAT_FENCED : Fld := ⟨0x00C, 31, 1, .ro, 0⟩
def STAT_XOPEN : Fld := ⟨0x00C, 30, 1, .ro, 0⟩
def STAT_XOVR : Fld := ⟨0x00C, 29, 1, .ro, 0⟩
def STAT_ACTIVE : Fld := ⟨0x00C, 28, 1, .ro, 0⟩
def STAT_OWNER_EFF : Fld := ⟨0x00C, 24, 4, .ro, 0xF⟩
def STAT_BLOCK : Fld := ⟨0x00C, 0, 16, .ro, 0⟩
def IRQ_RAW : Fld := ⟨0x010, 0, 32, .w1c, 0⟩
def IRQ_EN : Fld := ⟨0x014, 0, 32, .rw, 0⟩
def IRQ_PEND : Fld := ⟨0x018, 0, 32, .ro, 0⟩
def FLT_SRC : Fld := ⟨0x01C, 0, 16, .w1c, 0⟩
def FLT_CLASS : Fld := ⟨0x020, 0, 32, .stg, 0⟩
def SEAL_EPOCH : Fld := ⟨0x024, 16, 16, .ro, 0⟩
def SEAL_SEALED : Fld := ⟨0x024, 3, 1, .ro, 0⟩
def SEAL_REFUSED : Fld := ⟨0x024, 2, 1, .ro, 0⟩
def SEAL_DIRTY : Fld := ⟨0x024, 1, 1, .ro, 0⟩
def SEAL_DISCARD : Fld := ⟨0x024, 0, 1, .wo, 0⟩
def table : List Fld :=
  [ID_TYPE, ID_INST, ID_MAJOR, ID_MINOR, CAPS_EXPERT, CAPS_STAGED, CAPS_OWNED, CAPS_FENCEABLE, CAPS_MEMWIN, CAPS_BLOCK,
   CTRL_OWNER, CTRL_XKEY, CTRL_SRST, CTRL_EN, STAT_FENCED, STAT_XOPEN, STAT_XOVR, STAT_ACTIVE, STAT_OWNER_EFF, STAT_BLOCK,
   IRQ_RAW, IRQ_EN, IRQ_PEND, FLT_SRC, FLT_CLASS, SEAL_EPOCH, SEAL_SEALED, SEAL_REFUSED, SEAL_DIRTY, SEAL_DISCARD]
end PG

namespace SYS
/- SYS 0x040 COMMIT (02_registers_pages.md). -/
def COMMIT_KEY : Fld := ⟨0x040, 16, 16, .wo, 0⟩
def COMMIT_CMD : Fld := ⟨0x040, 0, 4, .wo, 0⟩
/- SYS 0x044 COMMIT_STATE (02_registers_pages.md). -/
def COMMIT_STATE_BLOCKED : Fld := ⟨0x044, 16, 16, .ro, 0⟩
def COMMIT_STATE_FALLBACK : Fld := ⟨0x044, 8, 1, .ro, 0⟩
def COMMIT_STATE_LAST_RESULT : Fld := ⟨0x044, 4, 4, .ro, 0⟩
def COMMIT_STATE_STATE : Fld := ⟨0x044, 0, 2, .ro, 0⟩
/- SYS 0x048 SEAL_STATE (02_registers_pages.md). -/
def SEAL_STATE_STAGED_DIFF : Fld := ⟨0x048, 5, 1, .ro, 0⟩
def SEAL_STATE_EXPERT : Fld := ⟨0x048, 4, 1, .ro, 0⟩
def SEAL_STATE_STATE : Fld := ⟨0x048, 0, 2, .ro, 0⟩
/- SYS 0x04C SEAL_CODE (02_registers_pages.md). -/
def SEAL_CODE_CODE : Fld := ⟨0x04C, 0, 32, .rw, 0⟩
/- SYS 0x050 SEAL_CALC (02_registers_pages.md). -/
def SEAL_CALC_CALC : Fld := ⟨0x050, 0, 32, .ro, 0⟩
/- SYS 0x054 REFUSE_CODE (02_registers_pages.md). -/
def REFUSE_CODE_CODE : Fld := ⟨0x054, 0, 16, .ro, 0⟩
/- SYS 0x058 REFUSE_LOC (02_registers_pages.md). -/
def REFUSE_LOC_COUNT : Fld := ⟨0x058, 24, 8, .ro, 0⟩
def REFUSE_LOC_PAGE : Fld := ⟨0x058, 12, 12, .ro, 0⟩
def REFUSE_LOC_OFFSET : Fld := ⟨0x058, 0, 12, .ro, 0⟩
/- SYS 0x05C COMMIT_GEN (02_registers_pages.md). -/
def COMMIT_GEN_GEN : Fld := ⟨0x05C, 0, 32, .ro, 0⟩
/- SYS 0x060 COMMIT_TIME_LO (02_registers_pages.md). -/
def COMMIT_TIME_LO_TLO : Fld := ⟨0x060, 0, 32, .rw, 0⟩
/- SYS 0x064 COMMIT_TIME_HI (02_registers_pages.md). -/
def COMMIT_TIME_HI_THI : Fld := ⟨0x064, 0, 32, .rw, 0⟩
/- SYS 0x068 COMMIT_DROPS (02_registers_pages.md). -/
def COMMIT_DROPS_DROPS : Fld := ⟨0x068, 0, 16, .ro, 0⟩
/- SYS 0x06C OWN_ERR (02_registers_pages.md). -/
def OWN_ERR_REQ : Fld := ⟨0x06C, 28, 4, .ro, 0⟩
def OWN_ERR_PAGE : Fld := ⟨0x06C, 16, 12, .ro, 0⟩
def OWN_ERR_OFFSET : Fld := ⟨0x06C, 0, 12, .ro, 0⟩
/- SYS 0x070 OWN_ERR_CNT (02_registers_pages.md). -/
def OWN_ERR_CNT_COUNT : Fld := ⟨0x070, 0, 16, .rc, 0⟩
/- SYS 0x074 ACC_ERR (02_registers_pages.md). -/
def ACC_ERR_REQ : Fld := ⟨0x074, 28, 4, .ro, 0⟩
def ACC_ERR_PAGE : Fld := ⟨0x074, 16, 12, .ro, 0⟩
def ACC_ERR_OFFSET : Fld := ⟨0x074, 0, 12, .ro, 0⟩
/- SYS 0x080 MODE (03_modes_startup.md). -/
def MODE_TFB : Fld := ⟨0x080, 31, 1, .ro, 0⟩
def MODE_RETURN : Fld := ⟨0x080, 24, 4, .ro, 0⟩
def MODE_REASON : Fld := ⟨0x080, 16, 8, .ro, 1⟩
def MODE_PREV : Fld := ⟨0x080, 8, 4, .ro, 0⟩
def MODE_FENCES : Fld := ⟨0x080, 4, 1, .ro, 0⟩
def MODE_CUR : Fld := ⟨0x080, 0, 4, .ro, 1⟩
/- SYS 0x084 MODE_REQ (03_modes_startup.md). -/
def MODE_REQ_KEY : Fld := ⟨0x084, 16, 16, .wo, 0⟩
def MODE_REQ_CMD : Fld := ⟨0x084, 0, 4, .wo, 0⟩
/- SYS 0x088 MODE_REQ_STAT (03_modes_startup.md). -/
def MODE_REQ_STAT_RESULT : Fld := ⟨0x088, 8, 8, .ro, 0⟩
def MODE_REQ_STAT_LAST_CMD : Fld := ⟨0x088, 0, 4, .ro, 0⟩
/- SYS 0x08C MODE_CFG (03_modes_startup.md). -/
def MODE_CFG_ISLAND_MIN : Fld := ⟨0x08C, 16, 12, .stg, 0⟩
def MODE_CFG_LOCK_SAMPLES : Fld := ⟨0x08C, 8, 4, .stg, 4⟩
def MODE_CFG_NEED_EPOCH : Fld := ⟨0x08C, 2, 1, .stg, 1⟩
def MODE_CFG_NEED_TRACK : Fld := ⟨0x08C, 1, 1, .stg, 1⟩
def MODE_CFG_NEED_TIME : Fld := ⟨0x08C, 0, 1, .stg, 1⟩
/- SYS 0x090 ARM_WAIT (03_modes_startup.md). -/
def ARM_WAIT_TRK_WAIT : Fld := ⟨0x090, 16, 4, .ro, 0⟩
def ARM_WAIT_EPOCH : Fld := ⟨0x090, 2, 1, .ro, 0⟩
def ARM_WAIT_TRACK : Fld := ⟨0x090, 1, 1, .ro, 0⟩
def ARM_WAIT_TIME : Fld := ⟨0x090, 0, 1, .ro, 0⟩
/- SYS 0x094 MODE_CNT (03_modes_startup.md). -/
def MODE_CNT_COUNT : Fld := ⟨0x094, 0, 32, .ro, 0⟩
/- SYS 0x098 MODE_TIME_LO (03_modes_startup.md). -/
def MODE_TIME_LO_TLO : Fld := ⟨0x098, 0, 32, .ro, 0⟩
/- SYS 0x09C MODE_TIME_HI (03_modes_startup.md). -/
def MODE_TIME_HI_THI : Fld := ⟨0x09C, 0, 32, .ro, 0⟩
/- SYS 0x0A0 SAFE_CAUSE (03_modes_startup.md). -/
def SAFE_CAUSE_VALID : Fld := ⟨0x0A0, 31, 1, .stk, 0⟩
def SAFE_CAUSE_PAGE : Fld := ⟨0x0A0, 16, 12, .stk, 0⟩
def SAFE_CAUSE_SRC : Fld := ⟨0x0A0, 0, 4, .stk, 0⟩
/- SYS 0x0A4 WAKE_CAUSE (03_modes_startup.md). -/
def WAKE_CAUSE_SUPPLY : Fld := ⟨0x0A4, 5, 1, .ro, 0⟩
def WAKE_CAUSE_PIN : Fld := ⟨0x0A4, 4, 1, .ro, 0⟩
def WAKE_CAUSE_ETH : Fld := ⟨0x0A4, 3, 1, .ro, 0⟩
def WAKE_CAUSE_WEST : Fld := ⟨0x0A4, 2, 1, .ro, 0⟩
def WAKE_CAUSE_EAST : Fld := ⟨0x0A4, 1, 1, .ro, 0⟩
def WAKE_CAUSE_POR : Fld := ⟨0x0A4, 0, 1, .ro, 1⟩
/- SYS 0x0A8 OUT_REFUSED (03_modes_startup.md). -/
def OUT_REFUSED_COUNT : Fld := ⟨0x0A8, 0, 16, .rc, 0⟩
/- SYS 0x0C0 SUPPLY_STAT (04_power_clocks_reset.md). -/
def SUPPLY_STAT_BANK : Fld := ⟨0x0C0, 16, 16, .ro, 0⟩
def SUPPLY_STAT_DOM : Fld := ⟨0x0C0, 0, 8, .ro, 0x80⟩
/- SYS 0x0C4 SUPPLY_LOST (04_power_clocks_reset.md). -/
def SUPPLY_LOST_BANK : Fld := ⟨0x0C4, 16, 16, .w1c, 0⟩
def SUPPLY_LOST_DOM : Fld := ⟨0x0C4, 0, 7, .w1c, 0⟩
/- SYS 0x0C8 CLK_STAT (04_power_clocks_reset.md). -/
def CLK_STAT_REF_SRC : Fld := ⟨0x0C8, 8, 1, .ro, 0⟩
def CLK_STAT_SD_LOCK : Fld := ⟨0x0C8, 5, 1, .ro, 0⟩
def CLK_STAT_PLL250 : Fld := ⟨0x0C8, 4, 1, .ro, 0⟩
def CLK_STAT_PLL500 : Fld := ⟨0x0C8, 3, 1, .ro, 0⟩
def CLK_STAT_PLL625 : Fld := ⟨0x0C8, 2, 1, .ro, 0⟩
def CLK_STAT_REF156 : Fld := ⟨0x0C8, 1, 1, .ro, 0⟩
def CLK_STAT_REF25 : Fld := ⟨0x0C8, 0, 1, .ro, 0⟩
/- SYS 0x0CC STRAPS (04_power_clocks_reset.md). -/
def STRAPS_CELLAR_N : Fld := ⟨0x0CC, 5, 1, .ro, 0⟩
def STRAPS_BOOTSEL : Fld := ⟨0x0CC, 4, 1, .ro, 0⟩
def STRAPS_HOSTSEL : Fld := ⟨0x0CC, 2, 2, .ro, 0⟩
def STRAPS_IO_SEL : Fld := ⟨0x0CC, 0, 1, .ro, 0⟩
/- SYS 0x0D0 RST_CAUSE (04_power_clocks_reset.md). -/
def RST_CAUSE_CAUSE : Fld := ⟨0x0D0, 0, 7, .ro, 1⟩
/- SYS 0x0D4 KA_CFG (04_power_clocks_reset.md). -/
def KA_CFG_ETH_WATCH : Fld := ⟨0x0D4, 3, 1, .rw, 0⟩
def KA_CFG_WAKE_PIN : Fld := ⟨0x0D4, 2, 1, .rw, 1⟩
def KA_CFG_WAKE_WEST : Fld := ⟨0x0D4, 1, 1, .rw, 1⟩
def KA_CFG_WAKE_EAST : Fld := ⟨0x0D4, 0, 1, .rw, 1⟩
/- SYS 0x0D8 KA_SCRATCH (04_power_clocks_reset.md). -/
def KA_SCRATCH_DATA : Fld := ⟨0x0D8, 0, 32, .rw, 0⟩
/- SYS 0x0DC GATE_REQ (04_power_clocks_reset.md). -/
def GATE_REQ_REQ : Fld := ⟨0x0DC, 0, 24, .rw, 0⟩
/- SYS 0x0E0 GATE_HOLD (04_power_clocks_reset.md). -/
def GATE_HOLD_HOLD : Fld := ⟨0x0E0, 0, 12, .rw, 0⟩
/- SYS 0x0E4 GATE_STAT (04_power_clocks_reset.md). -/
def GATE_STAT_STATE : Fld := ⟨0x0E4, 0, 24, .ro, 0⟩
/- SYS 0x0E8 GATE_PEND (04_power_clocks_reset.md). -/
def GATE_PEND_BY_UNIT : Fld := ⟨0x0E8, 16, 12, .ro, 0⟩
def GATE_PEND_BY_HOLD : Fld := ⟨0x0E8, 0, 12, .ro, 0⟩
/- SYS 0x0EC GATE_ERR (04_power_clocks_reset.md). -/
def GATE_ERR_REQ : Fld := ⟨0x0EC, 28, 4, .ro, 0⟩
def GATE_ERR_PAGE : Fld := ⟨0x0EC, 16, 12, .ro, 0⟩
def GATE_ERR_OFFSET : Fld := ⟨0x0EC, 0, 12, .ro, 0⟩
def table0 : List Fld :=
  [COMMIT_KEY, COMMIT_CMD] ++
  [COMMIT_STATE_BLOCKED, COMMIT_STATE_FALLBACK, COMMIT_STATE_LAST_RESULT, COMMIT_STATE_STATE] ++
  [SEAL_STATE_STAGED_DIFF, SEAL_STATE_EXPERT, SEAL_STATE_STATE] ++
  [SEAL_CODE_CODE] ++
  [SEAL_CALC_CALC] ++
  [REFUSE_CODE_CODE] ++
  [REFUSE_LOC_COUNT, REFUSE_LOC_PAGE, REFUSE_LOC_OFFSET] ++
  [COMMIT_GEN_GEN] ++
  [COMMIT_TIME_LO_TLO] ++
  [COMMIT_TIME_HI_THI] ++
  [COMMIT_DROPS_DROPS] ++
  [OWN_ERR_REQ, OWN_ERR_PAGE, OWN_ERR_OFFSET] ++
  [OWN_ERR_CNT_COUNT] ++
  [ACC_ERR_REQ, ACC_ERR_PAGE, ACC_ERR_OFFSET] ++
  [ MODE_TFB, MODE_RETURN, MODE_REASON, MODE_PREV, MODE_FENCES, MODE_CUR] ++
  [ MODE_REQ_KEY, MODE_REQ_CMD] ++
  [ MODE_REQ_STAT_RESULT, MODE_REQ_STAT_LAST_CMD] ++
  [ MODE_CFG_ISLAND_MIN, MODE_CFG_LOCK_SAMPLES, MODE_CFG_NEED_EPOCH, MODE_CFG_NEED_TRACK, MODE_CFG_NEED_TIME] ++
  [ARM_WAIT_TRK_WAIT, ARM_WAIT_EPOCH, ARM_WAIT_TRACK, ARM_WAIT_TIME] ++
  [ MODE_CNT_COUNT]
def table1 : List Fld :=
  [ MODE_TIME_LO_TLO] ++
  [ MODE_TIME_HI_THI] ++
  [SAFE_CAUSE_VALID, SAFE_CAUSE_PAGE, SAFE_CAUSE_SRC] ++
  [WAKE_CAUSE_SUPPLY, WAKE_CAUSE_PIN, WAKE_CAUSE_ETH, WAKE_CAUSE_WEST, WAKE_CAUSE_EAST, WAKE_CAUSE_POR] ++
  [OUT_REFUSED_COUNT] ++
  [SUPPLY_STAT_BANK, SUPPLY_STAT_DOM] ++
  [SUPPLY_LOST_BANK, SUPPLY_LOST_DOM] ++
  [CLK_STAT_REF_SRC, CLK_STAT_SD_LOCK, CLK_STAT_PLL250, CLK_STAT_PLL500, CLK_STAT_PLL625, CLK_STAT_REF156, CLK_STAT_REF25] ++
  [STRAPS_CELLAR_N, STRAPS_BOOTSEL, STRAPS_HOSTSEL, STRAPS_IO_SEL] ++
  [RST_CAUSE_CAUSE] ++
  [KA_CFG_ETH_WATCH, KA_CFG_WAKE_PIN, KA_CFG_WAKE_WEST, KA_CFG_WAKE_EAST] ++
  [KA_SCRATCH_DATA] ++
  [GATE_REQ_REQ] ++
  [GATE_HOLD_HOLD] ++
  [GATE_STAT_STATE] ++
  [GATE_PEND_BY_UNIT, GATE_PEND_BY_HOLD] ++
  [GATE_ERR_REQ, GATE_ERR_PAGE, GATE_ERR_OFFSET]
/-- Every field of the page's own registers. -/
def table : List Fld := table0 ++ table1
end SYS

namespace RPORT
/- RPORT 0x040 CFG (05_ring_links.md). -/
def CFG_BULK_HOLD : Fld := ⟨0x040, 16, 8, .stg, 20⟩
def CFG_SFP_MGMT : Fld := ⟨0x040, 9, 1, .stg, 1⟩
def CFG_TX_DIS : Fld := ⟨0x040, 8, 1, .stg, 0⟩
def CFG_RATE : Fld := ⟨0x040, 0, 3, .stg, 0⟩
/- RPORT 0x044 STAT (05_ring_links.md). -/
def STAT_STATE : Fld := ⟨0x044, 28, 4, .ro, 0⟩
def STAT_REFUSE : Fld := ⟨0x044, 24, 4, .ro, 0⟩
def STAT_RATE_EFF : Fld := ⟨0x044, 16, 3, .ro, 0⟩
def STAT_PEER_WEST : Fld := ⟨0x044, 15, 1, .ro, 0⟩
def STAT_RATE_WARN : Fld := ⟨0x044, 11, 1, .ro, 0⟩
def STAT_SFP_PRESENT : Fld := ⟨0x044, 10, 1, .ro, 0⟩
def STAT_SFP_LOS : Fld := ⟨0x044, 9, 1, .ro, 0⟩
def STAT_SFP_TXFAULT : Fld := ⟨0x044, 8, 1, .ro, 0⟩
def STAT_HI_BER : Fld := ⟨0x044, 3, 1, .ro, 0⟩
def STAT_BLOCK_LOCK : Fld := ⟨0x044, 2, 1, .ro, 0⟩
def STAT_CDR_LOCK : Fld := ⟨0x044, 1, 1, .ro, 0⟩
def STAT_PLL_LOCK : Fld := ⟨0x044, 0, 1, .ro, 0⟩
/- RPORT 0x048 PEER (05_ring_links.md). -/
def PEER_MODE : Fld := ⟨0x048, 28, 4, .ro, 0⟩
def PEER_NODE : Fld := ⟨0x048, 16, 12, .ro, 0⟩
def PEER_RATES : Fld := ⟨0x048, 8, 3, .ro, 0⟩
def PEER_VER : Fld := ⟨0x048, 0, 8, .ro, 0⟩
/- RPORT 0x04C–0x058 PEER_UID[0]–PEER_UID[3] (05_ring_links.md). -/
def PEER_UID_UID (i : Nat) : Fld := ⟨0x04C + 4 * i, 0, 32, .ro, 0⟩
/- RPORT 0x05C LINK_CNT (05_ring_links.md). -/
def LINK_CNT_UPS : Fld := ⟨0x05C, 16, 16, .rc, 0⟩
def LINK_CNT_DOWNS : Fld := ⟨0x05C, 0, 16, .rc, 0⟩
/- RPORT 0x060 RX_FRAMES_LO (05_ring_links.md). -/
def RX_FRAMES_LO_LO : Fld := ⟨0x060, 0, 32, .ro, 0⟩
/- RPORT 0x064 RX_FRAMES_HI (05_ring_links.md). -/
def RX_FRAMES_HI_HI : Fld := ⟨0x064, 0, 32, .ro, 0⟩
/- RPORT 0x068 TX_FRAMES_LO (05_ring_links.md). -/
def TX_FRAMES_LO_LO : Fld := ⟨0x068, 0, 32, .ro, 0⟩
/- RPORT 0x06C TX_FRAMES_HI (05_ring_links.md). -/
def TX_FRAMES_HI_HI : Fld := ⟨0x06C, 0, 32, .ro, 0⟩
/- RPORT 0x070 RX_BYTES_LO (05_ring_links.md). -/
def RX_BYTES_LO_LO : Fld := ⟨0x070, 0, 32, .ro, 0⟩
/- RPORT 0x074 RX_BYTES_HI (05_ring_links.md). -/
def RX_BYTES_HI_HI : Fld := ⟨0x074, 0, 32, .ro, 0⟩
/- RPORT 0x078 TX_BYTES_LO (05_ring_links.md). -/
def TX_BYTES_LO_LO : Fld := ⟨0x078, 0, 32, .ro, 0⟩
/- RPORT 0x07C TX_BYTES_HI (05_ring_links.md). -/
def TX_BYTES_HI_HI : Fld := ⟨0x07C, 0, 32, .ro, 0⟩
/- RPORT 0x080 CRC_ERR (05_ring_links.md). -/
def CRC_ERR_COUNT : Fld := ⟨0x080, 0, 32, .rc, 0⟩
/- RPORT 0x084 HDR_ERR (05_ring_links.md). -/
def HDR_ERR_COUNT : Fld := ⟨0x084, 0, 32, .rc, 0⟩
/- RPORT 0x088 RUNT (05_ring_links.md). -/
def RUNT_COUNT : Fld := ⟨0x088, 0, 32, .rc, 0⟩
/- RPORT 0x08C OVERSIZE (05_ring_links.md). -/
def OVERSIZE_COUNT : Fld := ⟨0x08C, 0, 32, .rc, 0⟩
/- RPORT 0x090 LEN_ERR (05_ring_links.md). -/
def LEN_ERR_COUNT : Fld := ⟨0x090, 0, 32, .rc, 0⟩
/- RPORT 0x094 STOMPED (05_ring_links.md). -/
def STOMPED_COUNT : Fld := ⟨0x094, 0, 32, .rc, 0⟩
/- RPORT 0x098 FRAG_ERR (05_ring_links.md). -/
def FRAG_ERR_COUNT : Fld := ⟨0x098, 0, 32, .rc, 0⟩
/- RPORT 0x09C FOREIGN (05_ring_links.md). -/
def FOREIGN_COUNT : Fld := ⟨0x09C, 0, 32, .rc, 0⟩
/- RPORT 0x0A0 SYM_ERR (05_ring_links.md). -/
def SYM_ERR_COUNT : Fld := ⟨0x0A0, 0, 32, .rc, 0⟩
/- RPORT 0x0A4 LOCK_LOSS (05_ring_links.md). -/
def LOCK_LOSS_COUNT : Fld := ⟨0x0A4, 0, 32, .rc, 0⟩
/- RPORT 0x0A8 SETTLE_DROP (05_ring_links.md). -/
def SETTLE_DROP_COUNT : Fld := ⟨0x0A8, 0, 32, .rc, 0⟩
/- RPORT 0x0AC HOLD_TO (05_ring_links.md). -/
def HOLD_TO_COUNT : Fld := ⟨0x0AC, 0, 32, .rc, 0⟩
/- RPORT 0x0B0 HOPS_DROP (05_ring_links.md). -/
def HOPS_DROP_COUNT : Fld := ⟨0x0B0, 0, 32, .rc, 0⟩
/- RPORT 0x0B4 UNK_TYPE (05_ring_links.md). -/
def UNK_TYPE_COUNT : Fld := ⟨0x0B4, 0, 32, .rc, 0⟩
/- RPORT 0x0B8 CLASS_ERR (05_ring_links.md). -/
def CLASS_ERR_COUNT : Fld := ⟨0x0B8, 0, 32, .rc, 0⟩
/- RPORT 0x0BC PREEMPT (05_ring_links.md). -/
def PREEMPT_COUNT : Fld := ⟨0x0BC, 0, 32, .rc, 0⟩
/- RPORT 0x400 TX_EQ (05_ring_links.md). -/
def TX_EQ_USE : Fld := ⟨0x400, 31, 1, .stg, 0⟩
def TX_EQ_POST : Fld := ⟨0x400, 16, 5, .stg, 0⟩
def TX_EQ_MAIN : Fld := ⟨0x400, 8, 6, .stg, 0⟩
def TX_EQ_PRE : Fld := ⟨0x400, 0, 4, .stg, 0⟩
/- RPORT 0x404 RX_EQ (05_ring_links.md). -/
def RX_EQ_USE : Fld := ⟨0x404, 31, 1, .stg, 0⟩
def RX_EQ_DFE_FREEZE : Fld := ⟨0x404, 8, 1, .stg, 0⟩
def RX_EQ_CTLE : Fld := ⟨0x404, 0, 4, .stg, 0⟩
/- RPORT 0x408 AUTO_DWELL (05_ring_links.md). -/
def AUTO_DWELL_USE : Fld := ⟨0x408, 31, 1, .stg, 0⟩
def AUTO_DWELL_DWELL : Fld := ⟨0x408, 0, 16, .stg, 0⟩
def table0 : List Fld :=
  [CFG_BULK_HOLD, CFG_SFP_MGMT, CFG_TX_DIS, CFG_RATE] ++
  [STAT_STATE, STAT_REFUSE, STAT_RATE_EFF, STAT_PEER_WEST, STAT_RATE_WARN, STAT_SFP_PRESENT, STAT_SFP_LOS, STAT_SFP_TXFAULT, STAT_HI_BER, STAT_BLOCK_LOCK, STAT_CDR_LOCK, STAT_PLL_LOCK] ++
  [PEER_MODE, PEER_NODE, PEER_RATES, PEER_VER] ++
  (List.range 4).flatMap (fun i => [PEER_UID_UID i]) ++
  [LINK_CNT_UPS, LINK_CNT_DOWNS] ++
  [RX_FRAMES_LO_LO] ++
  [RX_FRAMES_HI_HI] ++
  [TX_FRAMES_LO_LO] ++
  [TX_FRAMES_HI_HI] ++
  [RX_BYTES_LO_LO] ++
  [RX_BYTES_HI_HI] ++
  [TX_BYTES_LO_LO] ++
  [TX_BYTES_HI_HI] ++
  [CRC_ERR_COUNT] ++
  [HDR_ERR_COUNT] ++
  [RUNT_COUNT] ++
  [OVERSIZE_COUNT] ++
  [LEN_ERR_COUNT] ++
  [STOMPED_COUNT] ++
  [FRAG_ERR_COUNT]
def table1 : List Fld :=
  [FOREIGN_COUNT] ++
  [SYM_ERR_COUNT] ++
  [LOCK_LOSS_COUNT] ++
  [SETTLE_DROP_COUNT] ++
  [HOLD_TO_COUNT] ++
  [HOPS_DROP_COUNT] ++
  [UNK_TYPE_COUNT] ++
  [CLASS_ERR_COUNT] ++
  [PREEMPT_COUNT] ++
  [TX_EQ_USE, TX_EQ_POST, TX_EQ_MAIN, TX_EQ_PRE] ++
  [RX_EQ_USE, RX_EQ_DFE_FREEZE, RX_EQ_CTLE] ++
  [AUTO_DWELL_USE, AUTO_DWELL_DWELL]
/-- Every field of the page's own registers. -/
def table : List Fld := table0 ++ table1
end RPORT

namespace TOPO
/- TOPO 0x040 CFG (06_ring_topology.md). -/
def CFG_NODE_ID : Fld := ⟨0x040, 16, 12, .stg, 0⟩
def CFG_ANN_INT : Fld := ⟨0x040, 8, 8, .stg, 10⟩
def CFG_PARK_AUTO : Fld := ⟨0x040, 2, 1, .stg, 1⟩
def CFG_ID_MODE : Fld := ⟨0x040, 0, 1, .stg, 0⟩
/- TOPO 0x044 TIMERS (06_ring_topology.md). -/
def TIMERS_LINK_STABLE : Fld := ⟨0x044, 16, 8, .stg, 10⟩
def TIMERS_HEAL_DELAY : Fld := ⟨0x044, 8, 8, .stg, 5⟩
def TIMERS_STEER_HOLD : Fld := ⟨0x044, 0, 8, .stg, 10⟩
/- TOPO 0x048 STAT (06_ring_topology.md). -/
def STAT_NODE_ID_EFF : Fld := ⟨0x048, 16, 12, .ro, 0⟩
def STAT_ID_STATE : Fld := ⟨0x048, 14, 2, .ro, 0⟩
def STAT_SEEDED : Fld := ⟨0x048, 5, 1, .ro, 0⟩
def STAT_HEAL_PEND : Fld := ⟨0x048, 4, 1, .ro, 0⟩
def STAT_E_OPEN : Fld := ⟨0x048, 3, 1, .ro, 0⟩
def STAT_W_OPEN : Fld := ⟨0x048, 2, 1, .ro, 0⟩
def STAT_E_PARK : Fld := ⟨0x048, 1, 1, .ro, 0⟩
def STAT_W_PARK : Fld := ⟨0x048, 0, 1, .ro, 0⟩
/- TOPO 0x04C LIMITS (06_ring_topology.md). -/
def LIMITS_LIMIT_E : Fld := ⟨0x04C, 16, 12, .ro, 0⟩
def LIMITS_LIMIT_W : Fld := ⟨0x04C, 0, 12, .ro, 0⟩
/- TOPO 0x050 ARC (06_ring_topology.md). -/
def ARC_MEMBERS : Fld := ⟨0x050, 16, 13, .ro, 0⟩
def ARC_SIZE : Fld := ⟨0x050, 0, 13, .ro, 1⟩
/- TOPO 0x054 INCARN (06_ring_topology.md). -/
def INCARN_INC : Fld := ⟨0x054, 0, 16, .ro, 0⟩
/- TOPO 0x058 WAKE (06_ring_topology.md). -/
def WAKE_WEST : Fld := ⟨0x058, 1, 1, .wo, 0⟩
def WAKE_EAST : Fld := ⟨0x058, 0, 1, .wo, 0⟩
/- TOPO 0x05C RECS (06_ring_topology.md). -/
def RECS_REC_W : Fld := ⟨0x05C, 8, 5, .ro, 0⟩
def RECS_REC_E : Fld := ⟨0x05C, 0, 5, .ro, 0⟩
/- TOPO 0x060 MEMB_SEL (06_ring_topology.md). -/
def MEMB_SEL_ID : Fld := ⟨0x060, 0, 12, .rw, 0⟩
/- TOPO 0x064 MEMB_DATA (06_ring_topology.md). -/
def MEMB_DATA_PRESENT : Fld := ⟨0x064, 31, 1, .ro, 0⟩
def MEMB_DATA_FIXED : Fld := ⟨0x064, 30, 1, .ro, 0⟩
def MEMB_DATA_REACH_E : Fld := ⟨0x064, 29, 1, .ro, 0⟩
def MEMB_DATA_REACH_W : Fld := ⟨0x064, 28, 1, .ro, 0⟩
def MEMB_DATA_HOPS_E : Fld := ⟨0x064, 16, 12, .ro, 0⟩
def MEMB_DATA_HOPS_W : Fld := ⟨0x064, 4, 12, .ro, 0⟩
def MEMB_DATA_MODE : Fld := ⟨0x064, 0, 4, .ro, 0⟩
/- TOPO 0x068–0x074 MEMB_UID[0]–MEMB_UID[3] (06_ring_topology.md). -/
def MEMB_UID_UID (i : Nat) : Fld := ⟨0x068 + 4 * i, 0, 32, .ro, 0⟩
/- TOPO 0x080 DUP_DISCARD (06_ring_topology.md). -/
def DUP_DISCARD_COUNT : Fld := ⟨0x080, 0, 32, .rc, 0⟩
/- TOPO 0x084 STALE_SEQ (06_ring_topology.md). -/
def STALE_SEQ_COUNT : Fld := ⟨0x084, 0, 32, .rc, 0⟩
/- TOPO 0x088 GAP_OVF (06_ring_topology.md). -/
def GAP_OVF_COUNT : Fld := ⟨0x088, 0, 32, .rc, 0⟩
/- TOPO 0x08C STRIP (06_ring_topology.md). -/
def STRIP_COUNT : Fld := ⟨0x08C, 0, 32, .rc, 0⟩
/- TOPO 0x090 WRAPPED (06_ring_topology.md). -/
def WRAPPED_COUNT : Fld := ⟨0x090, 0, 32, .rc, 0⟩
/- TOPO 0x094 WRAP_DROP (06_ring_topology.md). -/
def WRAP_DROP_COUNT : Fld := ⟨0x094, 0, 32, .rc, 0⟩
/- TOPO 0x098 END_DROP (06_ring_topology.md). -/
def END_DROP_COUNT : Fld := ⟨0x098, 0, 32, .rc, 0⟩
/- TOPO 0x09C NO_ROUTE (06_ring_topology.md). -/
def NO_ROUTE_COUNT : Fld := ⟨0x09C, 0, 32, .rc, 0⟩
/- TOPO 0x0A0 STEERED (06_ring_topology.md). -/
def STEERED_COUNT : Fld := ⟨0x0A0, 0, 32, .rc, 0⟩
/- TOPO 0x0A4 LEAVE_DROP (06_ring_topology.md). -/
def LEAVE_DROP_COUNT : Fld := ⟨0x0A4, 0, 32, .rc, 0⟩
/- TOPO 0x0A8 EVENTS (06_ring_topology.md). -/
def EVENTS_BREAKS : Fld := ⟨0x0A8, 24, 8, .rc, 0⟩
def EVENTS_HEALS : Fld := ⟨0x0A8, 16, 8, .rc, 0⟩
def EVENTS_JOINS : Fld := ⟨0x0A8, 8, 8, .rc, 0⟩
def EVENTS_LEAVES : Fld := ⟨0x0A8, 0, 8, .rc, 0⟩
/- TOPO 0x0AC ID_CONFLICT (06_ring_topology.md). -/
def ID_CONFLICT_COUNT : Fld := ⟨0x0AC, 0, 32, .rc, 0⟩
/- TOPO 0x0B0 PLAN (06_ring_topology.md). -/
def PLAN_ARR_BOUND : Fld := ⟨0x0B0, 0, 16, .stg, 8831⟩
/- TOPO 0x400 KA_TIMING (06_ring_topology.md). -/
def KA_TIMING_USE : Fld := ⟨0x400, 31, 1, .stg, 0⟩
def KA_TIMING_LOSS : Fld := ⟨0x400, 8, 8, .stg, 10⟩
def KA_TIMING_INTERVAL : Fld := ⟨0x400, 0, 8, .stg, 6⟩
def table0 : List Fld :=
  [CFG_NODE_ID, CFG_ANN_INT, CFG_PARK_AUTO, CFG_ID_MODE] ++
  [TIMERS_LINK_STABLE, TIMERS_HEAL_DELAY, TIMERS_STEER_HOLD] ++
  [STAT_NODE_ID_EFF, STAT_ID_STATE, STAT_SEEDED, STAT_HEAL_PEND, STAT_E_OPEN, STAT_W_OPEN, STAT_E_PARK, STAT_W_PARK] ++
  [LIMITS_LIMIT_E, LIMITS_LIMIT_W] ++
  [ARC_MEMBERS, ARC_SIZE] ++
  [INCARN_INC] ++
  [WAKE_WEST, WAKE_EAST] ++
  [RECS_REC_W, RECS_REC_E] ++
  [MEMB_SEL_ID] ++
  [MEMB_DATA_PRESENT, MEMB_DATA_FIXED, MEMB_DATA_REACH_E, MEMB_DATA_REACH_W, MEMB_DATA_HOPS_E, MEMB_DATA_HOPS_W, MEMB_DATA_MODE] ++
  (List.range 4).flatMap (fun i => [MEMB_UID_UID i]) ++
  [DUP_DISCARD_COUNT] ++
  [STALE_SEQ_COUNT] ++
  [GAP_OVF_COUNT] ++
  [STRIP_COUNT] ++
  [WRAPPED_COUNT] ++
  [WRAP_DROP_COUNT] ++
  [END_DROP_COUNT] ++
  [NO_ROUTE_COUNT] ++
  [STEERED_COUNT]
def table1 : List Fld :=
  [LEAVE_DROP_COUNT] ++
  [EVENTS_BREAKS, EVENTS_HEALS, EVENTS_JOINS, EVENTS_LEAVES] ++
  [ID_CONFLICT_COUNT] ++
  [PLAN_ARR_BOUND] ++
  [KA_TIMING_USE, KA_TIMING_LOSS, KA_TIMING_INTERVAL]
/-- Every field of the page's own registers. -/
def table : List Fld := table0 ++ table1
end TOPO

namespace TIME
/- TIME 0x040 CFG (07_ring_time.md). -/
def CFG_PRIO : Fld := ⟨0x040, 24, 8, .stg, 0⟩
def CFG_SYNC_INT : Fld := ⟨0x040, 20, 4, .stg, 2⟩
def CFG_PD_INT : Fld := ⟨0x040, 16, 2, .stg, 1⟩
def CFG_HOLD_VALID : Fld := ⟨0x040, 8, 8, .stg, 10⟩
/- TIME 0x044 STAT (07_ring_time.md). -/
def STAT_STATE : Fld := ⟨0x044, 29, 3, .ro, 7⟩
def STAT_VALID : Fld := ⟨0x044, 28, 1, .ro, 0⟩
def STAT_FB_USE : Fld := ⟨0x044, 27, 1, .ro, 1⟩
def STAT_IS_MASTER : Fld := ⟨0x044, 26, 1, .ro, 0⟩
def STAT_MASTER_ID : Fld := ⟨0x044, 12, 12, .ro, 0⟩
def STAT_MASTER_PRIO : Fld := ⟨0x044, 0, 8, .ro, 0⟩
/- TIME 0x048 NOW_LO (07_ring_time.md). -/
def NOW_LO_TLO : Fld := ⟨0x048, 0, 32, .ro, 0⟩
/- TIME 0x04C NOW_HI (07_ring_time.md). -/
def NOW_HI_THI : Fld := ⟨0x04C, 0, 32, .ro, 0⟩
/- TIME 0x050 NOW_SUB (07_ring_time.md). -/
def NOW_SUB_FB : Fld := ⟨0x050, 3, 1, .ro, 0⟩
def NOW_SUB_SUB : Fld := ⟨0x050, 0, 3, .ro, 0⟩
/- TIME 0x054 ERR (07_ring_time.md). -/
def ERR_E : Fld := ⟨0x054, 0, 32, .ro, 0⟩
/- TIME 0x058 RATE_LO (07_ring_time.md). -/
def RATE_LO_FRAC : Fld := ⟨0x058, 0, 32, .ro, 0⟩
/- TIME 0x05C RATE_HI (07_ring_time.md). -/
def RATE_HI_INT : Fld := ⟨0x05C, 0, 32, .ro, 1⟩
/- TIME 0x060 HOLD_AGE (07_ring_time.md). -/
def HOLD_AGE_US : Fld := ⟨0x060, 0, 32, .ro, 0⟩
/- TIME 0x064 FB_INC (07_ring_time.md). -/
def FB_INC_INC : Fld := ⟨0x064, 0, 32, .rw, 33554432⟩
/- TIME 0x068 FB_LO (07_ring_time.md). -/
def FB_LO_TLO : Fld := ⟨0x068, 0, 32, .ro, 0⟩
/- TIME 0x06C FB_HI (07_ring_time.md). -/
def FB_HI_THI : Fld := ⟨0x06C, 0, 32, .ro, 0⟩
/- TIME 0x070 FB_DIFF (07_ring_time.md). -/
def FB_DIFF_DIFF : Fld := ⟨0x070, 0, 32, .ro, 0⟩
/- TIME 0x074 STEP_GEN (07_ring_time.md). -/
def STEP_GEN_GEN : Fld := ⟨0x074, 0, 16, .ro, 0⟩
/- TIME 0x078 SYNC_RX (07_ring_time.md). -/
def SYNC_RX_COUNT : Fld := ⟨0x078, 0, 32, .rc, 0⟩
/- TIME 0x07C SYNC_IGNORED (07_ring_time.md). -/
def SYNC_IGNORED_COUNT : Fld := ⟨0x07C, 0, 32, .rc, 0⟩
/- TIME 0x080 PD_LOST (07_ring_time.md). -/
def PD_LOST_COUNT : Fld := ⟨0x080, 0, 32, .rc, 0⟩
/- TIME 0x084 PD_REJECT (07_ring_time.md). -/
def PD_REJECT_COUNT : Fld := ⟨0x084, 0, 32, .rc, 0⟩
/- TIME 0x088 FB_LOADS (07_ring_time.md). -/
def FB_LOADS_COUNT : Fld := ⟨0x088, 0, 32, .rc, 0⟩
/- TIME 0x090 PD_E (07_ring_time.md). -/
def PD_E_VALID : Fld := ⟨0x090, 31, 1, .ro, 0⟩
def PD_E_MEAN : Fld := ⟨0x090, 0, 31, .ro, 0⟩
/- TIME 0x094 PD_W (07_ring_time.md). -/
def PD_W_VALID : Fld := ⟨0x094, 31, 1, .ro, 0⟩
def PD_W_MEAN : Fld := ⟨0x094, 0, 31, .ro, 0⟩
/- TIME 0x098 LINK_ASYM (07_ring_time.md). -/
def LINK_ASYM_EAST : Fld := ⟨0x098, 16, 16, .stg, 0⟩
def LINK_ASYM_WEST : Fld := ⟨0x098, 0, 16, .stg, 0⟩
/- TIME 0x09C–0x0A8 MASTER_UID[0]–MASTER_UID[3] (07_ring_time.md). -/
def MASTER_UID_UID (i : Nat) : Fld := ⟨0x09C + 4 * i, 0, 32, .ro, 0⟩
/- TIME 0x0B0 LOOP_E (07_ring_time.md). -/
def LOOP_E_E : Fld := ⟨0x0B0, 0, 32, .ro, 0⟩
/- TIME 0x0B4 LOOP_W (07_ring_time.md). -/
def LOOP_W_W : Fld := ⟨0x0B4, 0, 32, .ro, 0⟩
/- TIME 0x0B8 PTP_EPOCH_LO (07_ring_time.md). -/
def PTP_EPOCH_LO_SLO : Fld := ⟨0x0B8, 0, 32, .rw, 0⟩
/- TIME 0x0BC PTP_EPOCH_HI (07_ring_time.md). -/
def PTP_EPOCH_HI_SHI : Fld := ⟨0x0BC, 0, 16, .rw, 0⟩
/- TIME 0x0C0 PTP_CFG (07_ring_time.md). -/
def PTP_CFG_EN : Fld := ⟨0x0C0, 31, 1, .stg, 0⟩
def PTP_CFG_PTP_SCALE : Fld := ⟨0x0C0, 30, 1, .stg, 0⟩
def PTP_CFG_PROFILE : Fld := ⟨0x0C0, 29, 1, .stg, 0⟩
def PTP_CFG_UDP : Fld := ⟨0x0C0, 28, 1, .stg, 0⟩
def PTP_CFG_TWO_STEP : Fld := ⟨0x0C0, 27, 1, .stg, 0⟩
def PTP_CFG_P2P : Fld := ⟨0x0C0, 26, 1, .stg, 0⟩
def PTP_CFG_LOG_SYNC : Fld := ⟨0x0C0, 23, 3, .stg, 0⟩
def PTP_CFG_DOMAIN : Fld := ⟨0x0C0, 16, 7, .stg, 0⟩
def PTP_CFG_CLASS : Fld := ⟨0x0C0, 8, 8, .stg, 248⟩
def PTP_CFG_ACCURACY : Fld := ⟨0x0C0, 0, 8, .stg, 254⟩
/- TIME 0x0C4 PTP_PRIO (07_ring_time.md). -/
def PTP_PRIO_PRIO1 : Fld := ⟨0x0C4, 8, 8, .stg, 128⟩
def PTP_PRIO_PRIO2 : Fld := ⟨0x0C4, 0, 8, .stg, 128⟩
/- TIME 0x400–0x414 ASYM[0]–ASYM[5] (07_ring_time.md). -/
def ASYM_USE (i : Nat) : Fld := ⟨0x400 + 4 * i, 31, 1, .stg, 0⟩
def ASYM_TX_LAT (i : Nat) : Fld := ⟨0x400 + 4 * i, 16, 15, .stg, 0⟩
def ASYM_RX_LAT (i : Nat) : Fld := ⟨0x400 + 4 * i, 0, 15, .stg, 0⟩
/- TIME 0x418 TEMP_COEF (07_ring_time.md). -/
def TEMP_COEF_USE : Fld := ⟨0x418, 31, 1, .stg, 0⟩
def TEMP_COEF_TX_TC : Fld := ⟨0x418, 8, 8, .stg, 0⟩
def TEMP_COEF_RX_TC : Fld := ⟨0x418, 0, 8, .stg, 0⟩
/- TIME 0x41C SERVO (07_ring_time.md). -/
def SERVO_USE : Fld := ⟨0x41C, 31, 1, .stg, 0⟩
def SERVO_KP : Fld := ⟨0x41C, 16, 8, .stg, 0⟩
def SERVO_KI : Fld := ⟨0x41C, 8, 8, .stg, 0⟩
def SERVO_SLEW : Fld := ⟨0x41C, 0, 8, .stg, 50⟩
/- TIME 0x420 LOCK (07_ring_time.md). -/
def LOCK_USE : Fld := ⟨0x420, 31, 1, .stg, 0⟩
def LOCK_LOCK_COUNT : Fld := ⟨0x420, 16, 8, .stg, 8⟩
def LOCK_LOCK_THRESH : Fld := ⟨0x420, 0, 16, .stg, 100⟩
/- TIME 0x424 STEP_THRESH (07_ring_time.md). -/
def STEP_THRESH_USE : Fld := ⟨0x424, 31, 1, .stg, 0⟩
def STEP_THRESH_US : Fld := ⟨0x424, 0, 16, .stg, 10⟩
def table0 : List Fld :=
  [CFG_PRIO, CFG_SYNC_INT, CFG_PD_INT, CFG_HOLD_VALID] ++
  [STAT_STATE, STAT_VALID, STAT_FB_USE, STAT_IS_MASTER, STAT_MASTER_ID, STAT_MASTER_PRIO] ++
  [NOW_LO_TLO] ++
  [NOW_HI_THI] ++
  [NOW_SUB_FB, NOW_SUB_SUB] ++
  [ERR_E] ++
  [RATE_LO_FRAC] ++
  [RATE_HI_INT] ++
  [HOLD_AGE_US] ++
  [FB_INC_INC] ++
  [FB_LO_TLO] ++
  [FB_HI_THI] ++
  [FB_DIFF_DIFF] ++
  [STEP_GEN_GEN] ++
  [SYNC_RX_COUNT] ++
  [SYNC_IGNORED_COUNT] ++
  [PD_LOST_COUNT] ++
  [PD_REJECT_COUNT] ++
  [FB_LOADS_COUNT] ++
  [PD_E_VALID, PD_E_MEAN]
def table1 : List Fld :=
  [PD_W_VALID, PD_W_MEAN] ++
  [LINK_ASYM_EAST, LINK_ASYM_WEST] ++
  (List.range 4).flatMap (fun i => [MASTER_UID_UID i]) ++
  [LOOP_E_E] ++
  [LOOP_W_W] ++
  [PTP_EPOCH_LO_SLO] ++
  [PTP_EPOCH_HI_SHI] ++
  [PTP_CFG_EN, PTP_CFG_PTP_SCALE, PTP_CFG_PROFILE, PTP_CFG_UDP, PTP_CFG_TWO_STEP, PTP_CFG_P2P, PTP_CFG_LOG_SYNC, PTP_CFG_DOMAIN, PTP_CFG_CLASS, PTP_CFG_ACCURACY] ++
  [PTP_PRIO_PRIO1, PTP_PRIO_PRIO2] ++
  (List.range 6).flatMap (fun i => [ASYM_USE i, ASYM_TX_LAT i, ASYM_RX_LAT i]) ++
  [TEMP_COEF_USE, TEMP_COEF_TX_TC, TEMP_COEF_RX_TC] ++
  [SERVO_USE, SERVO_KP, SERVO_KI, SERVO_SLEW] ++
  [LOCK_USE, LOCK_LOCK_COUNT, LOCK_LOCK_THRESH] ++
  [STEP_THRESH_USE, STEP_THRESH_US]
/-- Every field of the page's own registers. -/
def table : List Fld := table0 ++ table1
end TIME

namespace TRK
/- TRK 0x040 CFG (08_tracks.md). -/
def CFG_SRC_NODE : Fld := ⟨0x040, 16, 12, .stg, 0⟩
def CFG_ROLE : Fld := ⟨0x040, 0, 2, .stg, 0⟩
/- TRK 0x044 LIMITS (08_tracks.md). -/
def LIMITS_AGE_LIM2 : Fld := ⟨0x044, 16, 16, .stg, 200⟩
def LIMITS_AGE_LIM : Fld := ⟨0x044, 0, 16, .stg, 50⟩
/- TRK 0x048 CONV (08_tracks.md). -/
def CONV_MIN_V : Fld := ⟨0x048, 16, 16, .stg, 64⟩
def CONV_ACC_HOR : Fld := ⟨0x048, 8, 8, .stg, 20⟩
def CONV_LATE_WIN : Fld := ⟨0x048, 0, 8, .stg, 0⟩
/- TRK 0x04C SRC_CFG (08_tracks.md). -/
def SRC_CFG_TYPE : Fld := ⟨0x04C, 30, 2, .stg, 0⟩
def SRC_CFG_INVERT : Fld := ⟨0x04C, 29, 1, .stg, 0⟩
def SRC_CFG_SSI_GRAY : Fld := ⟨0x04C, 28, 1, .stg, 0⟩
def SRC_CFG_SSI_BITS : Fld := ⟨0x04C, 22, 6, .stg, 24⟩
def SRC_CFG_SPI : Fld := ⟨0x04C, 19, 3, .stg, 0⟩
def SRC_CFG_RATE : Fld := ⟨0x04C, 16, 3, .stg, 0⟩
def SRC_CFG_VEL_WIN : Fld := ⟨0x04C, 8, 7, .stg, 16⟩
def SRC_CFG_QCH : Fld := ⟨0x04C, 0, 7, .stg, 0⟩
/- TRK 0x050 PRESET_VAL (08_tracks.md). -/
def PRESET_VAL_COUNT : Fld := ⟨0x050, 0, 32, .rw, 0⟩
/- TRK 0x054 PRESET_CMD (08_tracks.md). -/
def PRESET_CMD_KEY : Fld := ⟨0x054, 16, 16, .wo, 0⟩
def PRESET_CMD_GO : Fld := ⟨0x054, 0, 1, .wo, 0⟩
/- TRK 0x060 STAT (08_tracks.md). -/
def STAT_STATE : Fld := ⟨0x060, 29, 3, .ro, 0⟩
def STAT_FOLLOWED : Fld := ⟨0x060, 28, 1, .ro, 0⟩
def STAT_CTX : Fld := ⟨0x060, 26, 2, .ro, 0⟩
def STAT_RATE_RX : Fld := ⟨0x060, 23, 3, .ro, 0⟩
def STAT_LOCK_CNT : Fld := ⟨0x060, 16, 4, .ro, 0⟩
def STAT_SRC_GEN : Fld := ⟨0x060, 0, 16, .ro, 0⟩
/- TRK 0x064 AGE (08_tracks.md). -/
def AGE_US : Fld := ⟨0x064, 0, 32, .ro, 4294967295⟩
/- TRK 0x068 SMP_TS_LO (08_tracks.md). -/
def SMP_TS_LO_TLO : Fld := ⟨0x068, 0, 32, .ro, 0⟩
/- TRK 0x06C SMP_TS_HI (08_tracks.md). -/
def SMP_TS_HI_THI : Fld := ⟨0x06C, 0, 32, .ro, 0⟩
/- TRK 0x070 SMP_POS_LO (08_tracks.md). -/
def SMP_POS_LO_PLO : Fld := ⟨0x070, 0, 32, .ro, 0⟩
/- TRK 0x074 SMP_POS_HI (08_tracks.md). -/
def SMP_POS_HI_PHI : Fld := ⟨0x074, 0, 16, .ro, 0⟩
/- TRK 0x078 SMP_VEL (08_tracks.md). -/
def SMP_VEL_VEL : Fld := ⟨0x078, 0, 32, .ro, 0⟩
/- TRK 0x07C SMP_ACC (08_tracks.md). -/
def SMP_ACC_ACC : Fld := ⟨0x07C, 0, 32, .ro, 0⟩
/- TRK 0x080 SMP_INFO (08_tracks.md). -/
def SMP_INFO_SAMPLE : Fld := ⟨0x080, 16, 16, .ro, 0⟩
def SMP_INFO_SUB : Fld := ⟨0x080, 12, 3, .ro, 0⟩
def SMP_INFO_SRC : Fld := ⟨0x080, 0, 12, .ro, 0⟩
/- TRK 0x084 NOW_POS_LO (08_tracks.md). -/
def NOW_POS_LO_PLO : Fld := ⟨0x084, 0, 32, .ro, 0⟩
/- TRK 0x088 NOW_POS_HI (08_tracks.md). -/
def NOW_POS_HI_PHI : Fld := ⟨0x088, 0, 16, .ro, 0⟩
/- TRK 0x08C NOW_VEL (08_tracks.md). -/
def NOW_VEL_VEL : Fld := ⟨0x08C, 0, 32, .ro, 0⟩
/- TRK 0x090 SAMPLES_RX (08_tracks.md). -/
def SAMPLES_RX_COUNT : Fld := ⟨0x090, 0, 32, .rc, 0⟩
/- TRK 0x094 SAMPLES_TX (08_tracks.md). -/
def SAMPLES_TX_COUNT : Fld := ⟨0x094, 0, 32, .rc, 0⟩
/- TRK 0x098 OLD_SAMPLE (08_tracks.md). -/
def OLD_SAMPLE_COUNT : Fld := ⟨0x098, 0, 32, .rc, 0⟩
/- TRK 0x09C WRONG_SRC (08_tracks.md). -/
def WRONG_SRC_COUNT : Fld := ⟨0x09C, 0, 32, .rc, 0⟩
/- TRK 0x0A0 REJ_SAMPLE (08_tracks.md). -/
def REJ_SAMPLE_COUNT : Fld := ⟨0x0A0, 0, 32, .rc, 0⟩
/- TRK 0x0A4 STALE_CNT (08_tracks.md). -/
def STALE_CNT_COUNT : Fld := ⟨0x0A4, 0, 32, .rc, 0⟩
/- TRK 0x0A8 LATE (08_tracks.md). -/
def LATE_COUNT : Fld := ⟨0x0A8, 0, 32, .rc, 0⟩
/- TRK 0x0AC CONV_KEPT (08_tracks.md). -/
def CONV_KEPT_COUNT : Fld := ⟨0x0AC, 0, 32, .rc, 0⟩
/- TRK 0x0B0 HALTED (08_tracks.md). -/
def HALTED_COUNT : Fld := ⟨0x0B0, 0, 32, .rc, 0⟩
/- TRK 0x0B4 TGT_REFUSED (08_tracks.md). -/
def TGT_REFUSED_COUNT : Fld := ⟨0x0B4, 0, 32, .rc, 0⟩
/- TRK 0x0B8 POL_DROP (08_tracks.md). -/
def POL_DROP_COUNT : Fld := ⟨0x0B8, 0, 32, .rc, 0⟩
/- TRK 0x0BC POL_EXTRAP (08_tracks.md). -/
def POL_EXTRAP_COUNT : Fld := ⟨0x0BC, 0, 32, .rc, 0⟩
/- TRK 0x0C0 POL_SAFE (08_tracks.md). -/
def POL_SAFE_COUNT : Fld := ⟨0x0C0, 0, 32, .rc, 0⟩
/- TRK 0x0C4 PRESET_DROP (08_tracks.md). -/
def PRESET_DROP_COUNT : Fld := ⟨0x0C4, 0, 32, .rc, 0⟩
/- TRK 0x0C8 STALE_COMMITTED (08_tracks.md). -/
def STALE_COMMITTED_COUNT : Fld := ⟨0x0C8, 0, 32, .rc, 0⟩
/- TRK 0x0CC CONV_OVR (08_tracks.md). -/
def CONV_OVR_COUNT : Fld := ⟨0x0CC, 0, 32, .rc, 0⟩
/- TRK 0x0D0 PENDING (08_tracks.md). -/
def PENDING_COUNT : Fld := ⟨0x0D0, 0, 12, .ro, 0⟩
/- TRK 0x100–0x10C LEAD_TIME[0]–LEAD_TIME[3] (08_tracks.md). -/
def LEAD_TIME_TICKS (i : Nat) : Fld := ⟨0x100 + 4 * i, 0, 32, .stg, 0⟩
/- TRK 0x110–0x11C PROF_CFG[0]–PROF_CFG[3] (08_tracks.md). -/
def PROF_CFG_FB_EN (i : Nat) : Fld := ⟨0x110 + 4 * i, 31, 1, .stg, 0⟩
def PROF_CFG_FB_EDGE (i : Nat) : Fld := ⟨0x110 + 4 * i, 30, 1, .stg, 0⟩
def PROF_CFG_FB_CH (i : Nat) : Fld := ⟨0x110 + 4 * i, 16, 7, .stg, 0⟩
def PROF_CFG_FB_WIN (i : Nat) : Fld := ⟨0x110 + 4 * i, 8, 8, .stg, 50⟩
def PROF_CFG_NPTS (i : Nat) : Fld := ⟨0x110 + 4 * i, 0, 4, .stg, 1⟩
/- TRK 0x120–0x12C DRIFT_CFG[0]–DRIFT_CFG[3] (08_tracks.md). -/
def DRIFT_CFG_FB_OFS (i : Nat) : Fld := ⟨0x120 + 4 * i, 16, 16, .stg, 0⟩
def DRIFT_CFG_THR (i : Nat) : Fld := ⟨0x120 + 4 * i, 0, 16, .stg, 500⟩
/- TRK 0x140–0x1BC LEAD_TAB[0]–LEAD_TAB[31] (08_tracks.md). -/
def LEAD_TAB_SPEED (i : Nat) : Fld := ⟨0x140 + 4 * i, 16, 16, .stg, 0⟩
def LEAD_TAB_LEAD (i : Nat) : Fld := ⟨0x140 + 4 * i, 0, 16, .stg, 0⟩
/- TRK 0x1C0 DRIFT_STAT (08_tracks.md). -/
def DRIFT_STAT_MISSING : Fld := ⟨0x1C0, 4, 4, .w1c, 0⟩
def DRIFT_STAT_DRIFT : Fld := ⟨0x1C0, 0, 4, .w1c, 0⟩
/- TRK 0x1C4 STATS_CLR (08_tracks.md). -/
def STATS_CLR_PROF : Fld := ⟨0x1C4, 0, 4, .wo, 0⟩
/- TRK 0x1C8 FB_MISS (08_tracks.md). -/
def FB_MISS_COUNT : Fld := ⟨0x1C8, 0, 32, .rc, 0⟩
/- TRK 0x1CC FB_OVERLAP (08_tracks.md). -/
def FB_OVERLAP_COUNT : Fld := ⟨0x1CC, 0, 32, .rc, 0⟩
/- TRK 0x400 SSI_LAT (08_tracks.md). -/
def SSI_LAT_USE : Fld := ⟨0x400, 31, 1, .stg, 0⟩
def SSI_LAT_NS : Fld := ⟨0x400, 0, 16, .stg, 0⟩
/- TRK 0x404 ESTIM (08_tracks.md). -/
def ESTIM_USE : Fld := ⟨0x404, 31, 1, .stg, 0⟩
def ESTIM_ORDER : Fld := ⟨0x404, 0, 2, .stg, 2⟩
def table0 : List Fld :=
  [CFG_SRC_NODE, CFG_ROLE] ++
  [LIMITS_AGE_LIM2, LIMITS_AGE_LIM] ++
  [CONV_MIN_V, CONV_ACC_HOR, CONV_LATE_WIN] ++
  [SRC_CFG_TYPE, SRC_CFG_INVERT, SRC_CFG_SSI_GRAY, SRC_CFG_SSI_BITS, SRC_CFG_SPI, SRC_CFG_RATE, SRC_CFG_VEL_WIN, SRC_CFG_QCH] ++
  [PRESET_VAL_COUNT] ++
  [PRESET_CMD_KEY, PRESET_CMD_GO] ++
  [STAT_STATE, STAT_FOLLOWED, STAT_CTX, STAT_RATE_RX, STAT_LOCK_CNT, STAT_SRC_GEN] ++
  [AGE_US] ++
  [SMP_TS_LO_TLO] ++
  [SMP_TS_HI_THI] ++
  [SMP_POS_LO_PLO] ++
  [SMP_POS_HI_PHI] ++
  [SMP_VEL_VEL] ++
  [SMP_ACC_ACC] ++
  [SMP_INFO_SAMPLE, SMP_INFO_SUB, SMP_INFO_SRC] ++
  [NOW_POS_LO_PLO] ++
  [NOW_POS_HI_PHI] ++
  [NOW_VEL_VEL] ++
  [SAMPLES_RX_COUNT] ++
  [SAMPLES_TX_COUNT]
def table1 : List Fld :=
  [OLD_SAMPLE_COUNT] ++
  [WRONG_SRC_COUNT] ++
  [REJ_SAMPLE_COUNT] ++
  [STALE_CNT_COUNT] ++
  [LATE_COUNT] ++
  [CONV_KEPT_COUNT] ++
  [HALTED_COUNT] ++
  [TGT_REFUSED_COUNT] ++
  [POL_DROP_COUNT] ++
  [POL_EXTRAP_COUNT] ++
  [POL_SAFE_COUNT] ++
  [PRESET_DROP_COUNT] ++
  [STALE_COMMITTED_COUNT] ++
  [CONV_OVR_COUNT] ++
  [PENDING_COUNT] ++
  (List.range 4).flatMap (fun i => [LEAD_TIME_TICKS i]) ++
  (List.range 4).flatMap (fun i => [PROF_CFG_FB_EN i, PROF_CFG_FB_EDGE i, PROF_CFG_FB_CH i, PROF_CFG_FB_WIN i, PROF_CFG_NPTS i]) ++
  (List.range 4).flatMap (fun i => [DRIFT_CFG_FB_OFS i, DRIFT_CFG_THR i]) ++
  (List.range 32).flatMap (fun i => [LEAD_TAB_SPEED i, LEAD_TAB_LEAD i]) ++
  [DRIFT_STAT_MISSING, DRIFT_STAT_DRIFT]
def table2 : List Fld :=
  [STATS_CLR_PROF] ++
  [FB_MISS_COUNT] ++
  [FB_OVERLAP_COUNT] ++
  [SSI_LAT_USE, SSI_LAT_NS] ++
  [ESTIM_USE, ESTIM_ORDER]
/-- Every field of the page's own registers. -/
def table : List Fld := table0 ++ table1 ++ table2
end TRK

namespace ATR
/- ATR 0x040 CFG (09_atrium.md). -/
def CFG_LAYOUT : Fld := ⟨0x040, 28, 3, .stg, 0⟩
def CFG_SLOT_LEN : Fld := ⟨0x040, 16, 11, .stg, 128⟩
def CFG_CYCLE : Fld := ⟨0x040, 0, 14, .stg, 1000⟩
/- ATR 0x044 CLOSE (09_atrium.md). -/
def CLOSE_STALE_MAX : Fld := ⟨0x044, 24, 8, .stg, 4⟩
def CLOSE_OFS : Fld := ⟨0x044, 0, 17, .stg, 9950⟩
/- ATR 0x048 PLAN (09_atrium.md). -/
def PLAN_LOAD : Fld := ⟨0x048, 16, 10, .stg, 551⟩
def PLAN_ARR_BOUND : Fld := ⟨0x048, 0, 16, .stg, 8831⟩
/- ATR 0x04C PUB_CTL (09_atrium.md). -/
def PUB_CTL_READY : Fld := ⟨0x04C, 0, 1, .w1s, 0⟩
/- ATR 0x050 STAT (09_atrium.md). -/
def STAT_STATE : Fld := ⟨0x050, 29, 3, .ro, 0⟩
def STAT_PUBLISHING : Fld := ⟨0x050, 28, 1, .ro, 0⟩
def STAT_DEFAULT : Fld := ⟨0x050, 27, 1, .ro, 0⟩
def STAT_FB : Fld := ⟨0x050, 26, 1, .ro, 0⟩
def STAT_OPEN_RX : Fld := ⟨0x050, 0, 13, .ro, 0⟩
/- ATR 0x054 EPOCH_LO (09_atrium.md). -/
def EPOCH_LO_NLO : Fld := ⟨0x054, 0, 32, .ro, 0⟩
/- ATR 0x058 EPOCH_HI (09_atrium.md). -/
def EPOCH_HI_NHI : Fld := ⟨0x058, 0, 32, .ro, 0⟩
/- ATR 0x05C VALID (09_atrium.md). -/
def VALID_COVERED : Fld := ⟨0x05C, 16, 13, .ro, 0⟩
def VALID_COUNT : Fld := ⟨0x05C, 0, 13, .ro, 0⟩
/- ATR 0x060 LATE_LAST (09_atrium.md). -/
def LATE_LAST_NODE : Fld := ⟨0x060, 16, 12, .ro, 0⟩
def LATE_LAST_EPOCH : Fld := ⟨0x060, 0, 12, .ro, 0⟩
/- ATR 0x064 INV_THR (09_atrium.md). -/
def INV_THR_THR : Fld := ⟨0x064, 0, 13, .stg, 0⟩
/- ATR 0x080–0x0FC PUB_MAP[0]–PUB_MAP[31] (09_atrium.md). -/
def PUB_MAP_KIND (i : Nat) : Fld := ⟨0x080 + 4 * i, 28, 4, .stg, 0⟩
def PUB_MAP_INDEX (i : Nat) : Fld := ⟨0x080 + 4 * i, 16, 12, .stg, 0⟩
def PUB_MAP_DEST (i : Nat) : Fld := ⟨0x080 + 4 * i, 0, 11, .stg, 0⟩
/- ATR 0x100 + 0x10 × w WIN[w].NODES (09_atrium.md). -/
def WIN_NODES_FIRST (i : Nat) : Fld := ⟨0x100 + 16 * i, 16, 12, .stg, 0⟩
def WIN_NODES_LAST (i : Nat) : Fld := ⟨0x100 + 16 * i, 0, 12, .stg, 0⟩
/- ATR 0x104 + 0x10 × w WIN[w].PART (09_atrium.md). -/
def WIN_PART_OFS (i : Nat) : Fld := ⟨0x104 + 16 * i, 16, 11, .stg, 0⟩
def WIN_PART_LEN (i : Nat) : Fld := ⟨0x104 + 16 * i, 0, 11, .stg, 0⟩
/- ATR 0x108 + 0x10 × w WIN[w].DEST (09_atrium.md). -/
def WIN_DEST_OFS (i : Nat) : Fld := ⟨0x108 + 16 * i, 0, 21, .stg, 0⟩
/- ATR 0x10C + 0x10 × w WIN[w].CTL (09_atrium.md). -/
def WIN_CTL_EN (i : Nat) : Fld := ⟨0x10C + 16 * i, 31, 1, .stg, 0⟩
def WIN_CTL_DEF_OK (i : Nat) : Fld := ⟨0x10C + 16 * i, 8, 1, .stg, 0⟩
def WIN_CTL_TAG (i : Nat) : Fld := ⟨0x10C + 16 * i, 0, 3, .stg, 0⟩
/- ATR 0x200–0x3FC OUT[0]–OUT[127] (09_atrium.md). -/
def OUT_EN (i : Nat) : Fld := ⟨0x200 + 4 * i, 31, 1, .stg, 0⟩
def OUT_POLICY (i : Nat) : Fld := ⟨0x200 + 4 * i, 29, 2, .stg, 0⟩
def OUT_INV (i : Nat) : Fld := ⟨0x200 + 4 * i, 28, 1, .stg, 0⟩
def OUT_PWM (i : Nat) : Fld := ⟨0x200 + 4 * i, 27, 1, .stg, 0⟩
def OUT_BIT (i : Nat) : Fld := ⟨0x200 + 4 * i, 0, 24, .stg, 0⟩
def table0 : List Fld :=
  [CFG_LAYOUT, CFG_SLOT_LEN, CFG_CYCLE] ++
  [CLOSE_STALE_MAX, CLOSE_OFS] ++
  [PLAN_LOAD, PLAN_ARR_BOUND] ++
  [PUB_CTL_READY] ++
  [STAT_STATE, STAT_PUBLISHING, STAT_DEFAULT, STAT_FB, STAT_OPEN_RX] ++
  [EPOCH_LO_NLO] ++
  [EPOCH_HI_NHI] ++
  [VALID_COVERED, VALID_COUNT] ++
  [LATE_LAST_NODE, LATE_LAST_EPOCH] ++
  [INV_THR_THR] ++
  (List.range 32).flatMap (fun i => [PUB_MAP_KIND i, PUB_MAP_INDEX i, PUB_MAP_DEST i]) ++
  (List.range 16).flatMap (fun i => [WIN_NODES_FIRST i, WIN_NODES_LAST i]) ++
  (List.range 16).flatMap (fun i => [WIN_PART_OFS i, WIN_PART_LEN i]) ++
  (List.range 16).flatMap (fun i => [WIN_DEST_OFS i]) ++
  (List.range 16).flatMap (fun i => [WIN_CTL_EN i, WIN_CTL_DEF_OK i, WIN_CTL_TAG i]) ++
  (List.range 128).flatMap (fun i => [OUT_EN i, OUT_POLICY i, OUT_INV i, OUT_PWM i, OUT_BIT i])
/-- Every field of the page's own registers. -/
def table : List Fld := table0
end ATR

namespace BRG
/- BRG 0x040 CFG (10_address_space_bridge.md). -/
def CFG_IRQ_HOLD : Fld := ⟨0x040, 8, 8, .stg, 10⟩
def CFG_RD_TO : Fld := ⟨0x040, 0, 8, .stg, 20⟩
/- BRG 0x044 ISSUE (10_address_space_bridge.md). -/
def ISSUE_HOST_TEN : Fld := ⟨0x044, 28, 4, .stg, 15⟩
def ISSUE_HOST_CLS : Fld := ⟨0x044, 27, 1, .stg, 0⟩
def ISSUE_STW_TEN : Fld := ⟨0x044, 20, 4, .stg, 15⟩
def ISSUE_STW_CLS : Fld := ⟨0x044, 19, 1, .stg, 0⟩
def ISSUE_ANX_TEN : Fld := ⟨0x044, 12, 4, .stg, 15⟩
def ISSUE_ANX_CLS : Fld := ⟨0x044, 11, 1, .stg, 0⟩
/- BRG 0x048 STAT (10_address_space_bridge.md). -/
def STAT_TAGS_FULL : Fld := ⟨0x048, 9, 1, .ro, 0⟩
def STAT_OPEN : Fld := ⟨0x048, 0, 9, .ro, 0⟩
/- BRG 0x04C RT_SUM (10_address_space_bridge.md). -/
def RT_SUM_CRC : Fld := ⟨0x04C, 0, 32, .stg, 0x90444623⟩
/- BRG 0x050 RT_IDX (10_address_space_bridge.md). -/
def RT_IDX_IDX : Fld := ⟨0x050, 0, 9, .rw, 0⟩
/- BRG 0x054–0x060 RT_ENT[0]–RT_ENT[3] (10_address_space_bridge.md). -/
def RT_ENT_WORD (i : Nat) : Fld := ⟨0x054 + 4 * i, 0, 32, .stg, 0⟩
/- BRG 0x064 IRQ_SEND (10_address_space_bridge.md). -/
def IRQ_SEND_ENTRY : Fld := ⟨0x064, 0, 5, .wo, 0⟩
/- BRG 0x068 RX_ERR (10_address_space_bridge.md). -/
def RX_ERR_TEN : Fld := ⟨0x068, 28, 4, .ro, 0⟩
def RX_ERR_SRC : Fld := ⟨0x068, 16, 12, .ro, 0⟩
def RX_ERR_STATUS : Fld := ⟨0x068, 8, 8, .ro, 0⟩
def RX_ERR_ADDR_HI : Fld := ⟨0x068, 0, 4, .ro, 0⟩
/- BRG 0x06C RX_ERR_ADDR (10_address_space_bridge.md). -/
def RX_ERR_ADDR_ADDR : Fld := ⟨0x06C, 0, 32, .ro, 0⟩
/- BRG 0x070 RX_ERR_TAG (10_address_space_bridge.md). -/
def RX_ERR_TAG_TAG : Fld := ⟨0x070, 0, 16, .ro, 0⟩
/- BRG 0x074 UNM (10_address_space_bridge.md). -/
def UNM_WRITE : Fld := ⟨0x074, 31, 1, .ro, 0⟩
def UNM_TEN : Fld := ⟨0x074, 28, 3, .ro, 0⟩
def UNM_SRC : Fld := ⟨0x074, 16, 12, .ro, 0⟩
def UNM_STATUS : Fld := ⟨0x074, 8, 8, .ro, 0⟩
/- BRG 0x078 UNM_TAG (10_address_space_bridge.md). -/
def UNM_TAG_TAG : Fld := ⟨0x078, 0, 16, .ro, 0⟩
/- BRG 0x080 TX_WR (10_address_space_bridge.md). -/
def TX_WR_COUNT : Fld := ⟨0x080, 0, 32, .rc, 0⟩
/- BRG 0x084 TX_RD (10_address_space_bridge.md). -/
def TX_RD_COUNT : Fld := ⟨0x084, 0, 32, .rc, 0⟩
/- BRG 0x088 RX_WR (10_address_space_bridge.md). -/
def RX_WR_COUNT : Fld := ⟨0x088, 0, 32, .rc, 0⟩
/- BRG 0x08C RX_RD (10_address_space_bridge.md). -/
def RX_RD_COUNT : Fld := ⟨0x08C, 0, 32, .rc, 0⟩
/- BRG 0x090 ERR_SENT (10_address_space_bridge.md). -/
def ERR_SENT_COUNT : Fld := ⟨0x090, 0, 32, .rc, 0⟩
/- BRG 0x094 TIMEOUT (10_address_space_bridge.md). -/
def TIMEOUT_COUNT : Fld := ⟨0x094, 0, 32, .rc, 0⟩
/- BRG 0x098 UNMATCHED (10_address_space_bridge.md). -/
def UNMATCHED_COUNT : Fld := ⟨0x098, 0, 32, .rc, 0⟩
/- BRG 0x09C BAD_REQ (10_address_space_bridge.md). -/
def BAD_REQ_COUNT : Fld := ⟨0x09C, 0, 32, .rc, 0⟩
/- BRG 0x0A0 IRQ_TX (10_address_space_bridge.md). -/
def IRQ_TX_COUNT : Fld := ⟨0x0A0, 0, 32, .rc, 0⟩
/- BRG 0x0A4 IRQ_RX (10_address_space_bridge.md). -/
def IRQ_RX_COUNT : Fld := ⟨0x0A4, 0, 32, .rc, 0⟩
/- BRG 0x0A8 IRQ_HELD (10_address_space_bridge.md). -/
def IRQ_HELD_COUNT : Fld := ⟨0x0A8, 0, 32, .rc, 0⟩
/- BRG 0x0AC IRQ_LATE (10_address_space_bridge.md). -/
def IRQ_LATE_COUNT : Fld := ⟨0x0AC, 0, 32, .rc, 0⟩
/- BRG 0x0B0 IRQ_DROP (10_address_space_bridge.md). -/
def IRQ_DROP_COUNT : Fld := ⟨0x0B0, 0, 32, .rc, 0⟩
/- BRG 0x0B4 RT_TX (10_address_space_bridge.md). -/
def RT_TX_COUNT : Fld := ⟨0x0B4, 0, 32, .rc, 0⟩
/- BRG 0x0B8 RT_RX (10_address_space_bridge.md). -/
def RT_RX_COUNT : Fld := ⟨0x0B8, 0, 32, .rc, 0⟩
/- BRG 0x0BC RT_NOMATCH (10_address_space_bridge.md). -/
def RT_NOMATCH_COUNT : Fld := ⟨0x0BC, 0, 32, .rc, 0⟩
/- BRG 0x0C0 RT_OVF (10_address_space_bridge.md). -/
def RT_OVF_COUNT : Fld := ⟨0x0C0, 0, 32, .rc, 0⟩
/- BRG 0x100 + 8 × w WIN[w].BASE (10_address_space_bridge.md). -/
def WIN_BASE_BASE (i : Nat) : Fld := ⟨0x100 + 8 * i, 0, 24, .stg, 0⟩
/- BRG 0x104 + 8 × w WIN[w].CTL (10_address_space_bridge.md). -/
def WIN_CTL_EN (i : Nat) : Fld := ⟨0x104 + 8 * i, 31, 1, .stg, 0⟩
def WIN_CTL_RULE (i : Nat) : Fld := ⟨0x104 + 8 * i, 29, 2, .stg, 0⟩
def WIN_CTL_ELEM (i : Nat) : Fld := ⟨0x104 + 8 * i, 27, 2, .stg, 1⟩
def WIN_CTL_PAGES (i : Nat) : Fld := ⟨0x104 + 8 * i, 0, 20, .stg, 0⟩
/- BRG 0x200 + 8 × i IRQ_OUT[i].DEST (10_address_space_bridge.md). -/
def IRQ_OUT_DEST_EN (i : Nat) : Fld := ⟨0x200 + 8 * i, 31, 1, .stg, 0⟩
def IRQ_OUT_DEST_CLS (i : Nat) : Fld := ⟨0x200 + 8 * i, 30, 1, .stg, 0⟩
def IRQ_OUT_DEST_TEN (i : Nat) : Fld := ⟨0x200 + 8 * i, 27, 3, .stg, 0⟩
def IRQ_OUT_DEST_DST (i : Nat) : Fld := ⟨0x200 + 8 * i, 12, 12, .stg, 0⟩
def IRQ_OUT_DEST_VECTOR (i : Nat) : Fld := ⟨0x200 + 8 * i, 0, 6, .stg, 0⟩
/- BRG 0x204 + 8 × i IRQ_OUT[i].SRC (10_address_space_bridge.md). -/
def IRQ_OUT_SRC_SW (i : Nat) : Fld := ⟨0x204 + 8 * i, 31, 1, .stg, 0⟩
def IRQ_OUT_SRC_PAGE (i : Nat) : Fld := ⟨0x204 + 8 * i, 16, 12, .stg, 0⟩
def IRQ_OUT_SRC_BIT (i : Nat) : Fld := ⟨0x204 + 8 * i, 0, 5, .stg, 0⟩
/- BRG 0x300 + 4 × v IRQ_IN[v] (10_address_space_bridge.md). -/
def IRQ_IN_EN (i : Nat) : Fld := ⟨0x300 + 4 * i, 31, 1, .stg, 0⟩
def IRQ_IN_SINK (i : Nat) : Fld := ⟨0x300 + 4 * i, 29, 2, .stg, 0⟩
def IRQ_IN_INDEX (i : Nat) : Fld := ⟨0x300 + 4 * i, 8, 6, .stg, 0⟩
def IRQ_IN_TEN_MASK (i : Nat) : Fld := ⟨0x300 + 4 * i, 0, 8, .stg, 255⟩
def table0 : List Fld :=
  [CFG_IRQ_HOLD, CFG_RD_TO] ++
  [ISSUE_HOST_TEN, ISSUE_HOST_CLS, ISSUE_STW_TEN, ISSUE_STW_CLS, ISSUE_ANX_TEN, ISSUE_ANX_CLS] ++
  [STAT_TAGS_FULL, STAT_OPEN] ++
  [RT_SUM_CRC] ++
  [RT_IDX_IDX] ++
  (List.range 4).flatMap (fun i => [RT_ENT_WORD i]) ++
  [IRQ_SEND_ENTRY] ++
  [RX_ERR_TEN, RX_ERR_SRC, RX_ERR_STATUS, RX_ERR_ADDR_HI] ++
  [RX_ERR_ADDR_ADDR] ++
  [RX_ERR_TAG_TAG] ++
  [UNM_WRITE, UNM_TEN, UNM_SRC, UNM_STATUS] ++
  [UNM_TAG_TAG] ++
  [TX_WR_COUNT] ++
  [TX_RD_COUNT] ++
  [RX_WR_COUNT] ++
  [RX_RD_COUNT] ++
  [ERR_SENT_COUNT] ++
  [TIMEOUT_COUNT] ++
  [UNMATCHED_COUNT] ++
  [BAD_REQ_COUNT]
def table1 : List Fld :=
  [IRQ_TX_COUNT] ++
  [IRQ_RX_COUNT] ++
  [IRQ_HELD_COUNT] ++
  [IRQ_LATE_COUNT] ++
  [IRQ_DROP_COUNT] ++
  [RT_TX_COUNT] ++
  [RT_RX_COUNT] ++
  [RT_NOMATCH_COUNT] ++
  [RT_OVF_COUNT] ++
  (List.range 16).flatMap (fun i => [WIN_BASE_BASE i]) ++
  (List.range 16).flatMap (fun i => [WIN_CTL_EN i, WIN_CTL_RULE i, WIN_CTL_ELEM i, WIN_CTL_PAGES i]) ++
  (List.range 32).flatMap (fun i => [IRQ_OUT_DEST_EN i, IRQ_OUT_DEST_CLS i, IRQ_OUT_DEST_TEN i, IRQ_OUT_DEST_DST i, IRQ_OUT_DEST_VECTOR i]) ++
  (List.range 32).flatMap (fun i => [IRQ_OUT_SRC_SW i, IRQ_OUT_SRC_PAGE i, IRQ_OUT_SRC_BIT i]) ++
  (List.range 64).flatMap (fun i => [IRQ_IN_EN i, IRQ_IN_SINK i, IRQ_IN_INDEX i, IRQ_IN_TEN_MASK i])
/-- Every field of the page's own registers. -/
def table : List Fld := table0 ++ table1
end BRG

namespace SW
/- SW 0x040 BUF (11_switch_core.md). -/
def BUF_XT_RES : Fld := ⟨0x040, 16, 16, .stg, 8192⟩
def BUF_XT_PORT_MAX : Fld := ⟨0x040, 0, 16, .stg, 1024⟩
/- SW 0x044 BULK (11_switch_core.md). -/
def BULK_BULK_PORT_MAX : Fld := ⟨0x044, 16, 16, .stg, 16384⟩
def BULK_OVF_THR : Fld := ⟨0x044, 0, 16, .stg, 1024⟩
/- SW 0x048 LENS_CFG (11_switch_core.md). -/
def LENS_CFG_DIR_MODE : Fld := ⟨0x048, 30, 2, .stg, 0⟩
def LENS_CFG_ROT_INT : Fld := ⟨0x048, 19, 11, .stg, 60⟩
def LENS_CFG_PIN_AGE : Fld := ⟨0x048, 11, 8, .stg, 10⟩
def LENS_CFG_REPIN_GAP : Fld := ⟨0x048, 3, 8, .stg, 20⟩
/- SW 0x04C LENS_FIELDS (11_switch_core.md). -/
def LENS_FIELDS_SEL : Fld := ⟨0x04C, 0, 11, .stg, 1795⟩
/- SW 0x050 LENS_SEED (11_switch_core.md). -/
def LENS_SEED_SEED : Fld := ⟨0x050, 0, 32, .stg, 0⟩
/- SW 0x054 LENS_STAT (11_switch_core.md). -/
def LENS_STAT_EPOCH : Fld := ⟨0x054, 24, 8, .ro, 0⟩
def LENS_STAT_PINNED : Fld := ⟨0x054, 0, 17, .ro, 0⟩
/- SW 0x058 LENS_SALT (11_switch_core.md). -/
def LENS_SALT_SALT : Fld := ⟨0x058, 0, 32, .ro, 0⟩
/- SW 0x05C PIN_IDX (11_switch_core.md). -/
def PIN_IDX_IDX : Fld := ⟨0x05C, 0, 16, .rw, 0⟩
/- SW 0x060 PIN_ENT (11_switch_core.md). -/
def PIN_ENT_VALID : Fld := ⟨0x060, 31, 1, .ro, 0⟩
def PIN_ENT_WEST : Fld := ⟨0x060, 30, 1, .ro, 0⟩
def PIN_ENT_IDLE : Fld := ⟨0x060, 0, 16, .ro, 0⟩
/- SW 0x064 PSC (11_switch_core.md). -/
def PSC_RX_EN : Fld := ⟨0x064, 31, 1, .stg, 0⟩
def PSC_QUEUE : Fld := ⟨0x064, 24, 4, .stg, 0⟩
def PSC_MIR_MAX : Fld := ⟨0x064, 0, 16, .stg, 2048⟩
/- SW 0x068 PSC_MAC_LO (11_switch_core.md). -/
def PSC_MAC_LO_MAC : Fld := ⟨0x068, 0, 32, .stg, 0⟩
/- SW 0x06C PSC_MAC_HI (11_switch_core.md). -/
def PSC_MAC_HI_MAC : Fld := ⟨0x06C, 0, 16, .stg, 0⟩
/- SW 0x070 + 0x10 × s SES[s].CFG (11_switch_core.md). -/
def SES_CFG_EN (i : Nat) : Fld := ⟨0x070 + 16 * i, 31, 1, .stg, 0⟩
def SES_CFG_KIND (i : Nat) : Fld := ⟨0x070 + 16 * i, 29, 2, .stg, 0⟩
def SES_CFG_OUT (i : Nat) : Fld := ⟨0x070 + 16 * i, 28, 1, .stg, 0⟩
def SES_CFG_PORT (i : Nat) : Fld := ⟨0x070 + 16 * i, 25, 3, .stg, 0⟩
def SES_CFG_DIR (i : Nat) : Fld := ⟨0x070 + 16 * i, 23, 2, .stg, 0⟩
def SES_CFG_CLASSES (i : Nat) : Fld := ⟨0x070 + 16 * i, 20, 3, .stg, 0⟩
def SES_CFG_TEN (i : Nat) : Fld := ⟨0x070 + 16 * i, 16, 4, .stg, 15⟩
def SES_CFG_ARG (i : Nat) : Fld := ⟨0x070 + 16 * i, 0, 16, .stg, 0⟩
/- SW 0x074 + 0x10 × s SES[s].DEST (11_switch_core.md). -/
def SES_DEST_NODE (i : Nat) : Fld := ⟨0x074 + 16 * i, 16, 12, .stg, 0⟩
def SES_DEST_SNAP (i : Nat) : Fld := ⟨0x074 + 16 * i, 0, 14, .stg, 9584⟩
/- SW 0x078 + 0x10 × s SES[s].SENT (11_switch_core.md). -/
def SES_SENT_COUNT (i : Nat) : Fld := ⟨0x078 + 16 * i, 0, 32, .rc, 0⟩
/- SW 0x07C + 0x10 × s SES[s].LOST (11_switch_core.md). -/
def SES_LOST_COUNT (i : Nat) : Fld := ⟨0x07C + 16 * i, 0, 32, .rc, 0⟩
/- SW 0x0B0 FENCE_DROP (11_switch_core.md). -/
def FENCE_DROP_COUNT : Fld := ⟨0x0B0, 0, 32, .rc, 0⟩
/- SW 0x0B4 SHED_DROP (11_switch_core.md). -/
def SHED_DROP_COUNT : Fld := ⟨0x0B4, 0, 32, .rc, 0⟩
/- SW 0x0B8 CELL_CHK (11_switch_core.md). -/
def CELL_CHK_COUNT : Fld := ⟨0x0B8, 0, 32, .rc, 0⟩
/- SW 0x0BC PSC_DISCARD (11_switch_core.md). -/
def PSC_DISCARD_COUNT : Fld := ⟨0x0BC, 0, 32, .rc, 0⟩
/- SW 0x0C0–0x0DC XT_DROP[0]–XT_DROP[7] (11_switch_core.md). -/
def XT_DROP_COUNT (i : Nat) : Fld := ⟨0x0C0 + 4 * i, 0, 32, .rc, 0⟩
/- SW 0x0E0 CELLS (11_switch_core.md). -/
def CELLS_FREE : Fld := ⟨0x0E0, 16, 16, .ro, 49152⟩
def CELLS_RETIRED : Fld := ⟨0x0E0, 0, 7, .ro, 0⟩
/- SW 0x0E4 USE (11_switch_core.md). -/
def USE_XT : Fld := ⟨0x0E4, 16, 16, .ro, 0⟩
def USE_BULK : Fld := ⟨0x0E4, 0, 16, .ro, 0⟩
/- SW 0x400 MATCH (11_switch_core.md). -/
def MATCH_USE : Fld := ⟨0x400, 31, 1, .stg, 0⟩
def MATCH_ITER : Fld := ⟨0x400, 0, 2, .stg, 3⟩
def table0 : List Fld :=
  [BUF_XT_RES, BUF_XT_PORT_MAX] ++
  [BULK_BULK_PORT_MAX, BULK_OVF_THR] ++
  [LENS_CFG_DIR_MODE, LENS_CFG_ROT_INT, LENS_CFG_PIN_AGE, LENS_CFG_REPIN_GAP] ++
  [LENS_FIELDS_SEL] ++
  [LENS_SEED_SEED] ++
  [LENS_STAT_EPOCH, LENS_STAT_PINNED] ++
  [LENS_SALT_SALT] ++
  [PIN_IDX_IDX] ++
  [PIN_ENT_VALID, PIN_ENT_WEST, PIN_ENT_IDLE] ++
  [PSC_RX_EN, PSC_QUEUE, PSC_MIR_MAX] ++
  [PSC_MAC_LO_MAC] ++
  [PSC_MAC_HI_MAC] ++
  (List.range 4).flatMap (fun i => [SES_CFG_EN i, SES_CFG_KIND i, SES_CFG_OUT i, SES_CFG_PORT i, SES_CFG_DIR i, SES_CFG_CLASSES i, SES_CFG_TEN i, SES_CFG_ARG i]) ++
  (List.range 4).flatMap (fun i => [SES_DEST_NODE i, SES_DEST_SNAP i]) ++
  (List.range 4).flatMap (fun i => [SES_SENT_COUNT i]) ++
  (List.range 4).flatMap (fun i => [SES_LOST_COUNT i]) ++
  [FENCE_DROP_COUNT] ++
  [SHED_DROP_COUNT] ++
  [CELL_CHK_COUNT] ++
  [PSC_DISCARD_COUNT]
def table1 : List Fld :=
  (List.range 8).flatMap (fun i => [XT_DROP_COUNT i]) ++
  [CELLS_FREE, CELLS_RETIRED] ++
  [USE_XT, USE_BULK] ++
  [MATCH_USE, MATCH_ITER]
/-- Every field of the page's own registers. -/
def table : List Fld := table0 ++ table1
end SW

namespace QOS
/- QOS 0x040 CLS_IDX (11_switch_core.md). -/
def CLS_IDX_IDX : Fld := ⟨0x040, 0, 9, .rw, 0⟩
/- QOS 0x044 CLS_ENT (11_switch_core.md). -/
def CLS_ENT_MEN : Fld := ⟨0x044, 31, 1, .stg, 0⟩
def CLS_ENT_METER : Fld := ⟨0x044, 12, 8, .stg, 0⟩
def CLS_ENT_QUEUE : Fld := ⟨0x044, 0, 4, .stg, 0⟩
/- QOS 0x048 MTR_IDX (11_switch_core.md). -/
def MTR_IDX_IDX : Fld := ⟨0x048, 0, 8, .rw, 0⟩
/- QOS 0x04C MTR_CIR (11_switch_core.md). -/
def MTR_CIR_CIR : Fld := ⟨0x04C, 0, 20, .stg, 0⟩
/- QOS 0x050 MTR_PIR (11_switch_core.md). -/
def MTR_PIR_PIR : Fld := ⟨0x050, 0, 20, .stg, 0⟩
/- QOS 0x054 MTR_BS (11_switch_core.md). -/
def MTR_BS_PBS : Fld := ⟨0x054, 16, 16, .stg, 0⟩
def MTR_BS_CBS : Fld := ⟨0x054, 0, 16, .stg, 0⟩
/- QOS 0x058 MTR_GRN (11_switch_core.md). -/
def MTR_GRN_COUNT : Fld := ⟨0x058, 0, 32, .rc, 0⟩
/- QOS 0x05C MTR_YEL (11_switch_core.md). -/
def MTR_YEL_COUNT : Fld := ⟨0x05C, 0, 32, .rc, 0⟩
/- QOS 0x060 MTR_RED (11_switch_core.md). -/
def MTR_RED_COUNT : Fld := ⟨0x060, 0, 32, .rc, 0⟩
/- QOS 0x064 TBL_SUM (11_switch_core.md). -/
def TBL_SUM_CRC : Fld := ⟨0x064, 0, 32, .stg, 0x5714439C⟩
/- QOS 0x068 RED_WQ (11_switch_core.md). -/
def RED_WQ_WQ : Fld := ⟨0x068, 0, 4, .stg, 9⟩
/- QOS 0x06C SHED_LIM (11_switch_core.md). -/
def SHED_LIM_CELLS : Fld := ⟨0x06C, 0, 24, .stg, 256⟩
/- QOS 0x070 + 0x10 × c RED[c].MIN (11_switch_core.md). -/
def RED_MIN_MIN (i : Nat) : Fld := ⟨0x070 + 16 * i, 0, 24, .stg, (if i = 0 then 4096 else if i = 1 then 1024 else 0)⟩
/- QOS 0x074 + 0x10 × c RED[c].MAX (11_switch_core.md). -/
def RED_MAX_MAX (i : Nat) : Fld := ⟨0x074 + 16 * i, 0, 24, .stg, (if i = 0 then 8192 else if i = 1 then 4096 else 0)⟩
/- QOS 0x078 + 0x10 × c RED[c].P (11_switch_core.md). -/
def RED_P_MAXP (i : Nat) : Fld := ⟨0x078 + 16 * i, 0, 8, .stg, (if i = 0 then 26 else if i = 1 then 64 else 255)⟩
/- QOS 0x0B0–0x0EC QW[0]–QW[15] (11_switch_core.md). -/
def QW_SP (i : Nat) : Fld := ⟨0x0B0 + 4 * i, 31, 1, .stg, 0⟩
def QW_QUANT (i : Nat) : Fld := ⟨0x0B0 + 4 * i, 0, 8, .stg, 24⟩
/- QOS 0x100–0x13C QLIM[0]–QLIM[15] (11_switch_core.md). -/
def QLIM_CELLS (i : Nat) : Fld := ⟨0x100 + 4 * i, 0, 24, .stg, 8192⟩
/- QOS 0x140 QD_SEL (11_switch_core.md). -/
def QD_SEL_PORT : Fld := ⟨0x140, 4, 3, .rw, 0⟩
def QD_SEL_QUEUE : Fld := ⟨0x140, 0, 4, .rw, 0⟩
/- QOS 0x144 QD_DEPTH (11_switch_core.md). -/
def QD_DEPTH_CELLS : Fld := ⟨0x144, 0, 24, .ro, 0⟩
/- QOS 0x148 QD_AVG (11_switch_core.md). -/
def QD_AVG_AVG : Fld := ⟨0x148, 0, 24, .ro, 0⟩
/- QOS 0x14C QD_DRAM (11_switch_core.md). -/
def QD_DRAM_CELLS : Fld := ⟨0x14C, 0, 24, .ro, 0⟩
/- QOS 0x150 QD_RED_DROP (11_switch_core.md). -/
def QD_RED_DROP_COUNT : Fld := ⟨0x150, 0, 32, .rc, 0⟩
/- QOS 0x154 QD_TAIL_DROP (11_switch_core.md). -/
def QD_TAIL_DROP_COUNT : Fld := ⟨0x154, 0, 32, .rc, 0⟩
/- QOS 0x158 QD_TX (11_switch_core.md). -/
def QD_TX_COUNT : Fld := ⟨0x158, 0, 32, .rc, 0⟩
def table0 : List Fld :=
  [CLS_IDX_IDX] ++
  [CLS_ENT_MEN, CLS_ENT_METER, CLS_ENT_QUEUE] ++
  [MTR_IDX_IDX] ++
  [MTR_CIR_CIR] ++
  [MTR_PIR_PIR] ++
  [MTR_BS_PBS, MTR_BS_CBS] ++
  [MTR_GRN_COUNT] ++
  [MTR_YEL_COUNT] ++
  [MTR_RED_COUNT] ++
  [TBL_SUM_CRC] ++
  [RED_WQ_WQ] ++
  [SHED_LIM_CELLS] ++
  (List.range 3).flatMap (fun i => [RED_MIN_MIN i]) ++
  (List.range 3).flatMap (fun i => [RED_MAX_MAX i]) ++
  (List.range 3).flatMap (fun i => [RED_P_MAXP i]) ++
  (List.range 16).flatMap (fun i => [QW_SP i, QW_QUANT i]) ++
  (List.range 16).flatMap (fun i => [QLIM_CELLS i]) ++
  [QD_SEL_PORT, QD_SEL_QUEUE] ++
  [QD_DEPTH_CELLS] ++
  [QD_AVG_AVG]
def table1 : List Fld :=
  [QD_DRAM_CELLS] ++
  [QD_RED_DROP_COUNT] ++
  [QD_TAIL_DROP_COUNT] ++
  [QD_TX_COUNT]
/-- Every field of the page's own registers. -/
def table : List Fld := table0 ++ table1
end QOS

namespace DRAM
/- DRAM 0x040 CFG (11_switch_core.md). -/
def CFG_SPEED : Fld := ⟨0x040, 30, 2, .stg, 2⟩
def CFG_SIZE : Fld := ⟨0x040, 28, 2, .stg, 0⟩
def CFG_OVF_SIZE : Fld := ⟨0x040, 0, 12, .stg, 128⟩
/- DRAM 0x044 STAT (11_switch_core.md). -/
def STAT_STATE : Fld := ⟨0x044, 29, 3, .ro, 0⟩
def STAT_MR4 : Fld := ⟨0x044, 0, 3, .ro, 0⟩
/- DRAM 0x048 OVF_CELLS (11_switch_core.md). -/
def OVF_CELLS_CELLS : Fld := ⟨0x048, 0, 24, .ro, 0⟩
/- DRAM 0x04C OVF_CAP (11_switch_core.md). -/
def OVF_CAP_CELLS : Fld := ⟨0x04C, 0, 24, .ro, 0⟩
/- DRAM 0x050 OVF_CRC (11_switch_core.md). -/
def OVF_CRC_COUNT : Fld := ⟨0x050, 0, 32, .rc, 0⟩
/- DRAM 0x054 OVF_LOST (11_switch_core.md). -/
def OVF_LOST_COUNT : Fld := ⟨0x054, 0, 32, .rc, 0⟩
/- DRAM 0x400 VREF (11_switch_core.md). -/
def VREF_USE : Fld := ⟨0x400, 31, 1, .stg, 0⟩
def VREF_CA : Fld := ⟨0x400, 8, 6, .stg, 0⟩
def VREF_DQ : Fld := ⟨0x400, 0, 6, .stg, 0⟩
def table0 : List Fld :=
  [CFG_SPEED, CFG_SIZE, CFG_OVF_SIZE] ++
  [STAT_STATE, STAT_MR4] ++
  [OVF_CELLS_CELLS] ++
  [OVF_CAP_CELLS] ++
  [OVF_CRC_COUNT] ++
  [OVF_LOST_COUNT] ++
  [VREF_USE, VREF_CA, VREF_DQ]
/-- Every field of the page's own registers. -/
def table : List Fld := table0
end DRAM

namespace TEN
/- TEN 0x040 XBUDGET (12_tenants.md). -/
def XBUDGET_BYTES : Fld := ⟨0x040, 0, 16, .stg, 4096⟩
/- TEN 0x044 SLOTS (12_tenants.md). -/
def SLOTS_TAGS : Fld := ⟨0x044, 16, 9, .stg, 256⟩
def SLOTS_XREQ : Fld := ⟨0x044, 0, 7, .stg, 64⟩
/- TEN 0x048 BULK (12_tenants.md). -/
def BULK_ENFORCE : Fld := ⟨0x048, 31, 1, .stg, 0⟩
def BULK_METER : Fld := ⟨0x048, 8, 8, .stg, 0⟩
def BULK_SHARE : Fld := ⟨0x048, 0, 7, .stg, 0⟩
/- TEN 0x04C MBX (12_tenants.md). -/
def MBX_WRITE : Fld := ⟨0x04C, 0, 16, .stg, 0⟩
/- TEN 0x050 STAT (12_tenants.md). -/
def STAT_TOKENS : Fld := ⟨0x050, 16, 16, .ro, 0⟩
def STAT_XREQ_USED : Fld := ⟨0x050, 8, 7, .ro, 0⟩
def STAT_TAGS_USED : Fld := ⟨0x050, 0, 8, .ro, 0⟩
/- TEN 0x054 XWAIT (12_tenants.md). -/
def XWAIT_COUNT : Fld := ⟨0x054, 0, 32, .rc, 0⟩
/- TEN 0x058 XBYTES (12_tenants.md). -/
def XBYTES_COUNT : Fld := ⟨0x058, 0, 32, .rc, 0⟩
/- TEN 0x05C XREQ_REF (12_tenants.md). -/
def XREQ_REF_COUNT : Fld := ⟨0x05C, 0, 32, .rc, 0⟩
/- TEN 0x060 TAG_WAIT (12_tenants.md). -/
def TAG_WAIT_COUNT : Fld := ⟨0x060, 0, 32, .rc, 0⟩
/- TEN 0x080 + 8 × w WIN[w].BASE (12_tenants.md). -/
def WIN_BASE_BASE (i : Nat) : Fld := ⟨0x080 + 8 * i, 0, 24, .stg, 0⟩
/- TEN 0x084 + 8 × w WIN[w].CTL (12_tenants.md). -/
def WIN_CTL_EN (i : Nat) : Fld := ⟨0x084 + 8 * i, 31, 1, .stg, 0⟩
def WIN_CTL_RD (i : Nat) : Fld := ⟨0x084 + 8 * i, 30, 1, .stg, 0⟩
def WIN_CTL_WR (i : Nat) : Fld := ⟨0x084 + 8 * i, 29, 1, .stg, 0⟩
def WIN_CTL_XOK (i : Nat) : Fld := ⟨0x084 + 8 * i, 28, 1, .stg, 0⟩
def WIN_CTL_PAGES (i : Nat) : Fld := ⟨0x084 + 8 * i, 0, 20, .stg, 0⟩
def table0 : List Fld :=
  [XBUDGET_BYTES] ++
  [SLOTS_TAGS, SLOTS_XREQ] ++
  [BULK_ENFORCE, BULK_METER, BULK_SHARE] ++
  [MBX_WRITE] ++
  [STAT_TOKENS, STAT_XREQ_USED, STAT_TAGS_USED] ++
  [XWAIT_COUNT] ++
  [XBYTES_COUNT] ++
  [XREQ_REF_COUNT] ++
  [TAG_WAIT_COUNT] ++
  (List.range 8).flatMap (fun i => [WIN_BASE_BASE i]) ++
  (List.range 8).flatMap (fun i => [WIN_CTL_EN i, WIN_CTL_RD i, WIN_CTL_WR i, WIN_CTL_XOK i, WIN_CTL_PAGES i])
/-- Every field of the page's own registers. -/
def table : List Fld := table0
end TEN

namespace CH
/- CH 0x040 CFG (13_channels.md). -/
def CFG_MODE : Fld := ⟨0x040, 29, 3, .stg, 0⟩
def CFG_INV_IN : Fld := ⟨0x040, 28, 1, .stg, 0⟩
def CFG_PULL : Fld := ⟨0x040, 26, 2, .stg, 0⟩
def CFG_OD : Fld := ⟨0x040, 25, 1, .stg, 0⟩
def CFG_DRIVE : Fld := ⟨0x040, 23, 2, .stg, 1⟩
def CFG_SAFE : Fld := ⟨0x040, 21, 2, .stg, 0⟩
def CFG_CAP_EDGE : Fld := ⟨0x040, 18, 2, .stg, 0⟩
def CFG_CAP_POS : Fld := ⟨0x040, 17, 1, .stg, 0⟩
def CFG_CAP_TRACK : Fld := ⟨0x040, 13, 4, .stg, 0⟩
def CFG_CNT_EDGE : Fld := ⟨0x040, 11, 2, .stg, 0⟩
def CFG_FILT_UNIT : Fld := ⟨0x040, 10, 1, .stg, 0⟩
def CFG_FILT_LEN : Fld := ⟨0x040, 0, 10, .stg, 0⟩
/- CH 0x044 PWM (13_channels.md). -/
def PWM_PRE : Fld := ⟨0x044, 29, 3, .stg, 0⟩
def PWM_PERIOD : Fld := ⟨0x044, 0, 16, .stg, 2⟩
/- CH 0x048 REACT (13_channels.md). -/
def REACT_EN : Fld := ⟨0x048, 31, 1, .stg, 0⟩
def REACT_ONCE : Fld := ⟨0x048, 30, 1, .stg, 0⟩
def REACT_ACT : Fld := ⟨0x048, 27, 3, .stg, 0⟩
def REACT_EDGE : Fld := ⟨0x048, 25, 2, .stg, 0⟩
def REACT_SRC : Fld := ⟨0x048, 16, 7, .stg, 0⟩
def REACT_WIDTH : Fld := ⟨0x048, 0, 16, .stg, 0⟩
/- CH 0x04C CTL (13_channels.md). -/
def CTL_CAP_CLR : Fld := ⟨0x04C, 2, 1, .wo, 0⟩
def CTL_REARM : Fld := ⟨0x04C, 1, 1, .wo, 0⟩
def CTL_FLUSH : Fld := ⟨0x04C, 0, 1, .wo, 0⟩
/- CH 0x050 OUT (13_channels.md). -/
def OUT_DUTY : Fld := ⟨0x050, 16, 16, .rw, 0⟩
def OUT_LEVEL : Fld := ⟨0x050, 0, 1, .rw, 0⟩
/- CH 0x054 STAT (13_channels.md). -/
def STAT_IN : Fld := ⟨0x054, 31, 1, .ro, 0⟩
def STAT_RAW : Fld := ⟨0x054, 30, 1, .ro, 0⟩
def STAT_DRV : Fld := ⟨0x054, 29, 1, .ro, 0⟩
def STAT_SAFE_MODE : Fld := ⟨0x054, 28, 1, .ro, 0⟩
def STAT_SAFE_FENCE : Fld := ⟨0x054, 27, 1, .ro, 0⟩
def STAT_SAFE_SHED : Fld := ⟨0x054, 26, 1, .ro, 0⟩
def STAT_SAFE_POLICY : Fld := ⟨0x054, 25, 1, .ro, 0⟩
def STAT_SAFE_WAIT : Fld := ⟨0x054, 24, 1, .ro, 0⟩
def STAT_HELD : Fld := ⟨0x054, 23, 1, .ro, 0⟩
def STAT_ARMED : Fld := ⟨0x054, 22, 1, .ro, 0⟩
def STAT_PEND_END : Fld := ⟨0x054, 21, 1, .ro, 0⟩
def STAT_Q_LEN : Fld := ⟨0x054, 16, 5, .ro, 0⟩
/- CH 0x058 CNT (13_channels.md). -/
def CNT_COUNT : Fld := ⟨0x058, 0, 32, .rw, 0⟩
/- CH 0x05C CAP_LO (13_channels.md). -/
def CAP_LO_TLO : Fld := ⟨0x05C, 0, 32, .ro, 0⟩
/- CH 0x060 CAP_HI (13_channels.md). -/
def CAP_HI_THI : Fld := ⟨0x060, 0, 32, .ro, 0⟩
/- CH 0x064 CAP_INFO (13_channels.md). -/
def CAP_INFO_VALID : Fld := ⟨0x064, 31, 1, .ro, 0⟩
def CAP_INFO_LEVEL : Fld := ⟨0x064, 30, 1, .ro, 0⟩
def CAP_INFO_FB : Fld := ⟨0x064, 29, 1, .ro, 0⟩
def CAP_INFO_COUNT : Fld := ⟨0x064, 8, 5, .ro, 0⟩
def CAP_INFO_HEAD : Fld := ⟨0x064, 0, 4, .ro, 0⟩
/- CH 0x068 CAP_ACK (13_channels.md). -/
def CAP_ACK_N : Fld := ⟨0x068, 0, 5, .wo, 0⟩
/- CH 0x06C QE0 (13_channels.md). -/
def QE0_WORD : Fld := ⟨0x06C, 0, 32, .rw, 0⟩
/- CH 0x070 QE1 (13_channels.md). -/
def QE1_WORD : Fld := ⟨0x070, 0, 32, .rw, 0⟩
/- CH 0x074 QE2 (13_channels.md). -/
def QE2_WORD : Fld := ⟨0x074, 0, 32, .rw, 0⟩
/- CH 0x078 QE3 (13_channels.md). -/
def QE3_TAG : Fld := ⟨0x078, 0, 16, .wo, 0⟩
/- CH 0x07C FIRE_INFO (13_channels.md). -/
def FIRE_INFO_TAG : Fld := ⟨0x07C, 16, 16, .ro, 0⟩
def FIRE_INFO_LATE : Fld := ⟨0x07C, 15, 1, .ro, 0⟩
def FIRE_INFO_FB : Fld := ⟨0x07C, 14, 1, .ro, 0⟩
def FIRE_INFO_POS : Fld := ⟨0x07C, 13, 1, .ro, 0⟩
/- CH 0x080 FIRE_LO (13_channels.md). -/
def FIRE_LO_TLO : Fld := ⟨0x080, 0, 32, .ro, 0⟩
/- CH 0x084 FIRE_HI (13_channels.md). -/
def FIRE_HI_THI : Fld := ⟨0x084, 0, 32, .ro, 0⟩
/- CH 0x090 Q_FULL (13_channels.md). -/
def Q_FULL_COUNT : Fld := ⟨0x090, 0, 32, .rc, 0⟩
/- CH 0x094 Q_REF (13_channels.md). -/
def Q_REF_COUNT : Fld := ⟨0x094, 0, 32, .rc, 0⟩
/- CH 0x098 Q_DROP (13_channels.md). -/
def Q_DROP_COUNT : Fld := ⟨0x098, 0, 32, .rc, 0⟩
/- CH 0x09C LATE (13_channels.md). -/
def LATE_COUNT : Fld := ⟨0x09C, 0, 32, .rc, 0⟩
/- CH 0x0A0 CAP_OVF (13_channels.md). -/
def CAP_OVF_COUNT : Fld := ⟨0x0A0, 0, 32, .rc, 0⟩
/- CH 0x0A4 QUAD_ERR (13_channels.md). -/
def QUAD_ERR_COUNT : Fld := ⟨0x0A4, 0, 32, .rc, 0⟩
/- CH 0x0A8 REACT_CNT (13_channels.md). -/
def REACT_CNT_COUNT : Fld := ⟨0x0A8, 0, 32, .rc, 0⟩
/- CH 0x0AC GLITCH (13_channels.md). -/
def GLITCH_COUNT : Fld := ⟨0x0AC, 0, 32, .rc, 0⟩
/- CH 0x0B0 READBACK (13_channels.md). -/
def READBACK_COUNT : Fld := ⟨0x0B0, 0, 32, .rc, 0⟩
def table0 : List Fld :=
  [CFG_MODE, CFG_INV_IN, CFG_PULL, CFG_OD, CFG_DRIVE, CFG_SAFE, CFG_CAP_EDGE, CFG_CAP_POS, CFG_CAP_TRACK, CFG_CNT_EDGE, CFG_FILT_UNIT, CFG_FILT_LEN] ++
  [PWM_PRE, PWM_PERIOD] ++
  [REACT_EN, REACT_ONCE, REACT_ACT, REACT_EDGE, REACT_SRC, REACT_WIDTH] ++
  [CTL_CAP_CLR, CTL_REARM, CTL_FLUSH] ++
  [OUT_DUTY, OUT_LEVEL] ++
  [STAT_IN, STAT_RAW, STAT_DRV, STAT_SAFE_MODE, STAT_SAFE_FENCE, STAT_SAFE_SHED, STAT_SAFE_POLICY, STAT_SAFE_WAIT, STAT_HELD, STAT_ARMED, STAT_PEND_END, STAT_Q_LEN] ++
  [CNT_COUNT] ++
  [CAP_LO_TLO] ++
  [CAP_HI_THI] ++
  [CAP_INFO_VALID, CAP_INFO_LEVEL, CAP_INFO_FB, CAP_INFO_COUNT, CAP_INFO_HEAD] ++
  [CAP_ACK_N] ++
  [QE0_WORD] ++
  [QE1_WORD] ++
  [QE2_WORD] ++
  [QE3_TAG] ++
  [FIRE_INFO_TAG, FIRE_INFO_LATE, FIRE_INFO_FB, FIRE_INFO_POS] ++
  [FIRE_LO_TLO] ++
  [FIRE_HI_THI] ++
  [Q_FULL_COUNT] ++
  [Q_REF_COUNT]
def table1 : List Fld :=
  [Q_DROP_COUNT] ++
  [LATE_COUNT] ++
  [CAP_OVF_COUNT] ++
  [QUAD_ERR_COUNT] ++
  [REACT_CNT_COUNT] ++
  [GLITCH_COUNT] ++
  [READBACK_COUNT]
/-- Every field of the page's own registers. -/
def table : List Fld := table0 ++ table1
end CH

namespace BANK
/- BANK 0x040 CFG (13_channels.md). -/
def CFG_SHED : Fld := ⟨0x040, 24, 4, .stg, 8⟩
def CFG_VSEL : Fld := ⟨0x040, 0, 3, .stg, 0⟩
/- BANK 0x044 STAT (13_channels.md). -/
def STAT_VOK : Fld := ⟨0x044, 31, 1, .ro, 0⟩
def STAT_SHED_ACT : Fld := ⟨0x044, 30, 1, .ro, 0⟩
def STAT_VCLASS : Fld := ⟨0x044, 27, 3, .ro, 0⟩
def STAT_VMEAS : Fld := ⟨0x044, 0, 16, .ro, 0⟩
/- BANK 0x400 SLEW (13_channels.md). -/
def SLEW_USE : Fld := ⟨0x400, 31, 1, .stg, 0⟩
def SLEW_CODE : Fld := ⟨0x400, 0, 3, .stg, 0⟩
/- BANK 0x404 THRESH (13_channels.md). -/
def THRESH_USE : Fld := ⟨0x404, 31, 1, .stg, 0⟩
def THRESH_VIH : Fld := ⟨0x404, 12, 12, .stg, 0⟩
def THRESH_VIL : Fld := ⟨0x404, 0, 12, .stg, 0⟩
def table0 : List Fld :=
  [CFG_SHED, CFG_VSEL] ++
  [STAT_VOK, STAT_SHED_ACT, STAT_VCLASS, STAT_VMEAS] ++
  [SLEW_USE, SLEW_CODE] ++
  [THRESH_USE, THRESH_VIH, THRESH_VIL]
/-- Every field of the page's own registers. -/
def table : List Fld := table0
end BANK

namespace SER
/- SER 0x040 TXD (14_serial_controllers.md). -/
def TXD_ENTRY : Fld := ⟨0x040, 0, 32, .wo, 0⟩
/- SER 0x044 RXD (14_serial_controllers.md). -/
def RXD_ENTRY : Fld := ⟨0x044, 0, 32, .rc, 2147483648⟩
/- SER 0x048 FIFO_STAT (14_serial_controllers.md). -/
def FIFO_STAT_TX_LVL : Fld := ⟨0x048, 16, 7, .ro, 0⟩
def FIFO_STAT_RX_LVL : Fld := ⟨0x048, 0, 7, .ro, 0⟩
/- SER 0x04C FIFO_CFG (14_serial_controllers.md). -/
def FIFO_CFG_STALL_MAX : Fld := ⟨0x04C, 24, 8, .stg, 5⟩
def FIFO_CFG_RX_TO : Fld := ⟨0x04C, 16, 8, .stg, 0⟩
def FIFO_CFG_TX_THR : Fld := ⟨0x04C, 8, 6, .stg, 8⟩
def FIFO_CFG_RX_THR : Fld := ⟨0x04C, 0, 6, .stg, 32⟩
/- SER 0x050 FIFO_CTL (14_serial_controllers.md). -/
def FIFO_CTL_TS_CLR : Fld := ⟨0x050, 2, 1, .wo, 0⟩
def FIFO_CTL_RX_FLUSH : Fld := ⟨0x050, 1, 1, .wo, 0⟩
def FIFO_CTL_TX_FLUSH : Fld := ⟨0x050, 0, 1, .wo, 0⟩
/- SER 0x054 TS_STAT (14_serial_controllers.md). -/
def TS_STAT_COUNT : Fld := ⟨0x054, 8, 5, .ro, 0⟩
def TS_STAT_HEAD : Fld := ⟨0x054, 0, 4, .ro, 0⟩
/- SER 0x058 TS_ACK (14_serial_controllers.md). -/
def TS_ACK_N : Fld := ⟨0x058, 0, 5, .wo, 0⟩
/- SER 0x05C TS_EN (14_serial_controllers.md). -/
def TS_EN_EVENTS : Fld := ⟨0x05C, 1, 5, .stg, 0⟩
/- SER 0x0F0 STALL_TO (14_serial_controllers.md). -/
def STALL_TO_COUNT : Fld := ⟨0x0F0, 0, 32, .rc, 0⟩
/- SER 0x0F4 EMPTY_RD (14_serial_controllers.md). -/
def EMPTY_RD_COUNT : Fld := ⟨0x0F4, 0, 32, .rc, 0⟩
/- SER 0x0F8 TS_OVF (14_serial_controllers.md). -/
def TS_OVF_COUNT : Fld := ⟨0x0F8, 0, 32, .rc, 0⟩
/- SER 0x0FC RX_OVR (14_serial_controllers.md). -/
def RX_OVR_COUNT : Fld := ⟨0x0FC, 0, 32, .rc, 0⟩
def table0 : List Fld :=
  [TXD_ENTRY] ++
  [RXD_ENTRY] ++
  [FIFO_STAT_TX_LVL, FIFO_STAT_RX_LVL] ++
  [FIFO_CFG_STALL_MAX, FIFO_CFG_RX_TO, FIFO_CFG_TX_THR, FIFO_CFG_RX_THR] ++
  [FIFO_CTL_TS_CLR, FIFO_CTL_RX_FLUSH, FIFO_CTL_TX_FLUSH] ++
  [TS_STAT_COUNT, TS_STAT_HEAD] ++
  [TS_ACK_N] ++
  [TS_EN_EVENTS] ++
  [STALL_TO_COUNT] ++
  [EMPTY_RD_COUNT] ++
  [TS_OVF_COUNT] ++
  [RX_OVR_COUNT]
/-- Every field of the page's own registers. -/
def table : List Fld := table0
end SER

namespace UART
/- UART 0x060 PINS_A (14_serial_controllers.md). -/
def PINS_A_TX : Fld := ⟨0x060, 24, 8, .stg, 0⟩
def PINS_A_RX : Fld := ⟨0x060, 16, 8, .stg, 0⟩
def PINS_A_DE : Fld := ⟨0x060, 8, 8, .stg, 0⟩
def PINS_A_RTS : Fld := ⟨0x060, 0, 8, .stg, 0⟩
/- UART 0x064 PINS_B (14_serial_controllers.md). -/
def PINS_B_CTS : Fld := ⟨0x064, 0, 8, .stg, 0⟩
/- UART 0x068 BAUD (14_serial_controllers.md). -/
def BAUD_RATE : Fld := ⟨0x068, 0, 25, .stg, 115200⟩
/- UART 0x06C FRAME (14_serial_controllers.md). -/
def FRAME_MODE : Fld := ⟨0x06C, 16, 2, .stg, 0⟩
def FRAME_FLOW : Fld := ⟨0x06C, 15, 1, .stg, 0⟩
def FRAME_ECHO_OFF : Fld := ⟨0x06C, 14, 1, .stg, 1⟩
def FRAME_HALF : Fld := ⟨0x06C, 13, 1, .stg, 0⟩
def FRAME_MSB_FIRST : Fld := ⟨0x06C, 12, 1, .stg, 0⟩
def FRAME_STOP : Fld := ⟨0x06C, 10, 2, .stg, 0⟩
def FRAME_PARITY : Fld := ⟨0x06C, 7, 3, .stg, 0⟩
def FRAME_BITS : Fld := ⟨0x06C, 0, 4, .stg, 8⟩
/- UART 0x070 DE_CFG (14_serial_controllers.md). -/
def DE_CFG_DE_EN : Fld := ⟨0x070, 31, 1, .stg, 0⟩
def DE_CFG_DE_POL : Fld := ⟨0x070, 30, 1, .stg, 0⟩
def DE_CFG_LEAD : Fld := ⟨0x070, 16, 8, .stg, 10⟩
def DE_CFG_LAG : Fld := ⟨0x070, 8, 8, .stg, 10⟩
def DE_CFG_TURN : Fld := ⟨0x070, 0, 8, .stg, 10⟩
/- UART 0x074 MSG_CFG (14_serial_controllers.md). -/
def MSG_CFG_ROUTE : Fld := ⟨0x074, 26, 1, .stg, 0⟩
def MSG_CFG_ID_LEN : Fld := ⟨0x074, 24, 2, .stg, 0⟩
def MSG_CFG_DELIM : Fld := ⟨0x074, 16, 8, .stg, 0⟩
def MSG_CFG_DELIM_EN : Fld := ⟨0x074, 8, 1, .stg, 0⟩
def MSG_CFG_GAP : Fld := ⟨0x074, 0, 8, .stg, 4⟩
/- UART 0x078 IOL_CFG (14_serial_controllers.md). -/
def IOL_CFG_COM : Fld := ⟨0x078, 30, 2, .stg, 0⟩
def IOL_CFG_TRIES : Fld := ⟨0x078, 26, 4, .stg, 3⟩
def IOL_CFG_TA_MAX : Fld := ⟨0x078, 20, 6, .stg, 10⟩
def IOL_CFG_T2_MAX : Fld := ⟨0x078, 16, 4, .stg, 3⟩
def IOL_CFG_TDMT : Fld := ⟨0x078, 8, 8, .stg, 30⟩
def IOL_CFG_TWU : Fld := ⟨0x078, 0, 8, .stg, 80⟩
/- UART 0x07C IOL_TREN (14_serial_controllers.md). -/
def IOL_TREN_US : Fld := ⟨0x07C, 0, 16, .stg, 500⟩
/- UART 0x080 IOL_CTL (14_serial_controllers.md). -/
def IOL_CTL_WAKE : Fld := ⟨0x080, 0, 1, .wo, 0⟩
/- UART 0x084 STAT (14_serial_controllers.md). -/
def STAT_IOL_STATE : Fld := ⟨0x084, 29, 3, .ro, 0⟩
def STAT_COM_EFF : Fld := ⟨0x084, 27, 2, .ro, 0⟩
def STAT_PAUSED : Fld := ⟨0x084, 7, 1, .ro, 0⟩
def STAT_MSG_OPEN : Fld := ⟨0x084, 6, 1, .ro, 0⟩
def STAT_RT_PEND : Fld := ⟨0x084, 5, 1, .ro, 0⟩
def STAT_BREAK : Fld := ⟨0x084, 4, 1, .ro, 0⟩
def STAT_DE : Fld := ⟨0x084, 3, 1, .ro, 0⟩
def STAT_CTS : Fld := ⟨0x084, 2, 1, .ro, 0⟩
def STAT_RX_BUSY : Fld := ⟨0x084, 1, 1, .ro, 0⟩
def STAT_TX_BUSY : Fld := ⟨0x084, 0, 1, .ro, 0⟩
/- UART 0x090 FERR (14_serial_controllers.md). -/
def FERR_COUNT : Fld := ⟨0x090, 0, 32, .rc, 0⟩
/- UART 0x094 PERR (14_serial_controllers.md). -/
def PERR_COUNT : Fld := ⟨0x094, 0, 32, .rc, 0⟩
/- UART 0x098 BRK (14_serial_controllers.md). -/
def BRK_COUNT : Fld := ⟨0x098, 0, 32, .rc, 0⟩
/- UART 0x09C RESP_TO (14_serial_controllers.md). -/
def RESP_TO_COUNT : Fld := ⟨0x09C, 0, 32, .rc, 0⟩
/- UART 0x0A0 MSG_ROUTED (14_serial_controllers.md). -/
def MSG_ROUTED_COUNT : Fld := ⟨0x0A0, 0, 32, .rc, 0⟩
/- UART 0x0A4 MSG_BAD (14_serial_controllers.md). -/
def MSG_BAD_COUNT : Fld := ⟨0x0A4, 0, 32, .rc, 0⟩
/- UART 0x0A8 BAD_CMD (14_serial_controllers.md). -/
def BAD_CMD_COUNT : Fld := ⟨0x0A8, 0, 32, .rc, 0⟩
/- UART 0x400 BITTIME (14_serial_controllers.md). -/
def BITTIME_USE : Fld := ⟨0x400, 31, 1, .stg, 0⟩
def BITTIME_TBIT : Fld := ⟨0x400, 0, 29, .stg, 0⟩
def table0 : List Fld :=
  [PINS_A_TX, PINS_A_RX, PINS_A_DE, PINS_A_RTS] ++
  [PINS_B_CTS] ++
  [BAUD_RATE] ++
  [FRAME_MODE, FRAME_FLOW, FRAME_ECHO_OFF, FRAME_HALF, FRAME_MSB_FIRST, FRAME_STOP, FRAME_PARITY, FRAME_BITS] ++
  [DE_CFG_DE_EN, DE_CFG_DE_POL, DE_CFG_LEAD, DE_CFG_LAG, DE_CFG_TURN] ++
  [MSG_CFG_ROUTE, MSG_CFG_ID_LEN, MSG_CFG_DELIM, MSG_CFG_DELIM_EN, MSG_CFG_GAP] ++
  [IOL_CFG_COM, IOL_CFG_TRIES, IOL_CFG_TA_MAX, IOL_CFG_T2_MAX, IOL_CFG_TDMT, IOL_CFG_TWU] ++
  [IOL_TREN_US] ++
  [IOL_CTL_WAKE] ++
  [STAT_IOL_STATE, STAT_COM_EFF, STAT_PAUSED, STAT_MSG_OPEN, STAT_RT_PEND, STAT_BREAK, STAT_DE, STAT_CTS, STAT_RX_BUSY, STAT_TX_BUSY] ++
  [FERR_COUNT] ++
  [PERR_COUNT] ++
  [BRK_COUNT] ++
  [RESP_TO_COUNT] ++
  [MSG_ROUTED_COUNT] ++
  [MSG_BAD_COUNT] ++
  [BAD_CMD_COUNT] ++
  [BITTIME_USE, BITTIME_TBIT]
/-- Every field of the page's own registers. -/
def table : List Fld := table0
end UART

namespace SPI
/- SPI 0x060 PINS_A (14_serial_controllers.md). -/
def PINS_A_SCK : Fld := ⟨0x060, 24, 8, .stg, 0⟩
def PINS_A_MOSI : Fld := ⟨0x060, 16, 8, .stg, 0⟩
def PINS_A_MISO : Fld := ⟨0x060, 8, 8, .stg, 0⟩
/- SPI 0x064 PINS_CS (14_serial_controllers.md). -/
def PINS_CS_CS3_CS0 : Fld := ⟨0x064, 0, 32, .stg, 0⟩
/- SPI 0x068 CLK (14_serial_controllers.md). -/
def CLK_ROLE : Fld := ⟨0x068, 30, 2, .stg, 0⟩
def CLK_CPOL : Fld := ⟨0x068, 29, 1, .stg, 0⟩
def CLK_CPHA : Fld := ⟨0x068, 28, 1, .stg, 0⟩
def CLK_FREQ : Fld := ⟨0x068, 0, 17, .stg, 1000⟩
/- SPI 0x06C WORD (14_serial_controllers.md). -/
def WORD_CS_HOLD : Fld := ⟨0x06C, 24, 8, .stg, 1⟩
def WORD_CS_SETUP : Fld := ⟨0x06C, 16, 8, .stg, 1⟩
def WORD_LSB_FIRST : Fld := ⟨0x06C, 8, 1, .stg, 0⟩
def WORD_WIDTH : Fld := ⟨0x06C, 0, 6, .stg, 8⟩
/- SPI 0x070 SSI (14_serial_controllers.md). -/
def SSI_TM : Fld := ⟨0x070, 24, 8, .stg, 20⟩
def SSI_CHECK_END : Fld := ⟨0x070, 9, 1, .stg, 1⟩
def SSI_PAR : Fld := ⟨0x070, 8, 1, .stg, 0⟩
def SSI_WIDTH : Fld := ⟨0x070, 0, 6, .stg, 24⟩
/- SPI 0x074 SSI_CTL (14_serial_controllers.md). -/
def SSI_CTL_READ : Fld := ⟨0x074, 0, 1, .wo, 0⟩
/- SPI 0x078 FRAME (14_serial_controllers.md). -/
def FRAME_CS : Fld := ⟨0x078, 22, 2, .wo, 0⟩
def FRAME_KEEP : Fld := ⟨0x078, 21, 1, .wo, 0⟩
def FRAME_RX_OFF : Fld := ⟨0x078, 20, 1, .wo, 0⟩
def FRAME_WORDS : Fld := ⟨0x078, 0, 10, .wo, 0⟩
/- SPI 0x07C STAT (14_serial_controllers.md). -/
def STAT_PAUSED : Fld := ⟨0x07C, 31, 1, .ro, 0⟩
def STAT_FRAME_OPEN : Fld := ⟨0x07C, 30, 1, .ro, 0⟩
def STAT_CS_ACT : Fld := ⟨0x07C, 28, 2, .ro, 0⟩
def STAT_TRK_SSI : Fld := ⟨0x07C, 27, 1, .ro, 0⟩
def STAT_WORDS_LEFT : Fld := ⟨0x07C, 0, 10, .ro, 0⟩
/- SPI 0x090 FRAME_ABORT (14_serial_controllers.md). -/
def FRAME_ABORT_COUNT : Fld := ⟨0x090, 0, 32, .rc, 0⟩
/- SPI 0x094 SLV_PART (14_serial_controllers.md). -/
def SLV_PART_COUNT : Fld := ⟨0x094, 0, 32, .rc, 0⟩
/- SPI 0x098 SLV_UNDER (14_serial_controllers.md). -/
def SLV_UNDER_COUNT : Fld := ⟨0x098, 0, 32, .rc, 0⟩
/- SPI 0x09C SSI_ERR (14_serial_controllers.md). -/
def SSI_ERR_COUNT : Fld := ⟨0x09C, 0, 32, .rc, 0⟩
/- SPI 0x0A0 SSI_REFUSED (14_serial_controllers.md). -/
def SSI_REFUSED_COUNT : Fld := ⟨0x0A0, 0, 32, .rc, 0⟩
/- SPI 0x0A4 BAD_CMD (14_serial_controllers.md). -/
def BAD_CMD_COUNT : Fld := ⟨0x0A4, 0, 32, .rc, 0⟩
/- SPI 0x400 TIMING (14_serial_controllers.md). -/
def TIMING_USE : Fld := ⟨0x400, 31, 1, .stg, 0⟩
def TIMING_RXDLY : Fld := ⟨0x400, 16, 8, .stg, 0⟩
def TIMING_HALF : Fld := ⟨0x400, 0, 16, .stg, 0⟩
def table0 : List Fld :=
  [PINS_A_SCK, PINS_A_MOSI, PINS_A_MISO] ++
  [PINS_CS_CS3_CS0] ++
  [CLK_ROLE, CLK_CPOL, CLK_CPHA, CLK_FREQ] ++
  [WORD_CS_HOLD, WORD_CS_SETUP, WORD_LSB_FIRST, WORD_WIDTH] ++
  [SSI_TM, SSI_CHECK_END, SSI_PAR, SSI_WIDTH] ++
  [SSI_CTL_READ] ++
  [FRAME_CS, FRAME_KEEP, FRAME_RX_OFF, FRAME_WORDS] ++
  [STAT_PAUSED, STAT_FRAME_OPEN, STAT_CS_ACT, STAT_TRK_SSI, STAT_WORDS_LEFT] ++
  [FRAME_ABORT_COUNT] ++
  [SLV_PART_COUNT] ++
  [SLV_UNDER_COUNT] ++
  [SSI_ERR_COUNT] ++
  [SSI_REFUSED_COUNT] ++
  [BAD_CMD_COUNT] ++
  [TIMING_USE, TIMING_RXDLY, TIMING_HALF]
/-- Every field of the page's own registers. -/
def table : List Fld := table0
end SPI

namespace I2C
/- I2C 0x060 PINS (14_serial_controllers.md). -/
def PINS_SCL : Fld := ⟨0x060, 8, 8, .stg, 0⟩
def PINS_SDA : Fld := ⟨0x060, 0, 8, .stg, 0⟩
/- I2C 0x064 CFG (14_serial_controllers.md). -/
def CFG_ROLE : Fld := ⟨0x064, 30, 2, .stg, 0⟩
def CFG_TEN_BIT : Fld := ⟨0x064, 29, 1, .stg, 0⟩
def CFG_OWN_ADDR : Fld := ⟨0x064, 16, 10, .stg, 0⟩
def CFG_RATE : Fld := ⟨0x064, 0, 10, .stg, 100⟩
/- I2C 0x068 TIMEOUT (14_serial_controllers.md). -/
def TIMEOUT_STRETCH_TO : Fld := ⟨0x068, 8, 8, .stg, 25⟩
def TIMEOUT_SLV_STRETCH_MAX : Fld := ⟨0x068, 0, 8, .stg, 10⟩
/- I2C 0x06C STAT (14_serial_controllers.md). -/
def STAT_BUS_BUSY : Fld := ⟨0x06C, 31, 1, .ro, 0⟩
def STAT_SCL : Fld := ⟨0x06C, 30, 1, .ro, 0⟩
def STAT_SDA : Fld := ⟨0x06C, 29, 1, .ro, 0⟩
def STAT_ADDRESSED : Fld := ⟨0x06C, 28, 1, .ro, 0⟩
def STAT_PAUSED : Fld := ⟨0x06C, 27, 1, .ro, 0⟩
/- I2C 0x090 ADDR_NACK (14_serial_controllers.md). -/
def ADDR_NACK_COUNT : Fld := ⟨0x090, 0, 32, .rc, 0⟩
/- I2C 0x094 DATA_NACK (14_serial_controllers.md). -/
def DATA_NACK_COUNT : Fld := ⟨0x094, 0, 32, .rc, 0⟩
/- I2C 0x098 ARB_LOST (14_serial_controllers.md). -/
def ARB_LOST_COUNT : Fld := ⟨0x098, 0, 32, .rc, 0⟩
/- I2C 0x09C STRETCH_TO (14_serial_controllers.md). -/
def STRETCH_TO_COUNT : Fld := ⟨0x09C, 0, 32, .rc, 0⟩
/- I2C 0x0A0 ABORTED (14_serial_controllers.md). -/
def ABORTED_COUNT : Fld := ⟨0x0A0, 0, 32, .rc, 0⟩
/- I2C 0x0A4 SEQ_ERR (14_serial_controllers.md). -/
def SEQ_ERR_COUNT : Fld := ⟨0x0A4, 0, 32, .rc, 0⟩
/- I2C 0x0A8 BUS_CLEAR (14_serial_controllers.md). -/
def BUS_CLEAR_COUNT : Fld := ⟨0x0A8, 0, 32, .rc, 0⟩
/- I2C 0x400 TIMING (14_serial_controllers.md). -/
def TIMING_USE : Fld := ⟨0x400, 31, 1, .stg, 0⟩
def TIMING_LOW : Fld := ⟨0x400, 15, 15, .stg, 0⟩
def TIMING_HIGH : Fld := ⟨0x400, 0, 15, .stg, 0⟩
/- I2C 0x404 HOLD (14_serial_controllers.md). -/
def HOLD_USE : Fld := ⟨0x404, 31, 1, .stg, 0⟩
def HOLD_HOLD : Fld := ⟨0x404, 0, 8, .stg, 0⟩
def table0 : List Fld :=
  [PINS_SCL, PINS_SDA] ++
  [CFG_ROLE, CFG_TEN_BIT, CFG_OWN_ADDR, CFG_RATE] ++
  [TIMEOUT_STRETCH_TO, TIMEOUT_SLV_STRETCH_MAX] ++
  [STAT_BUS_BUSY, STAT_SCL, STAT_SDA, STAT_ADDRESSED, STAT_PAUSED] ++
  [ADDR_NACK_COUNT] ++
  [DATA_NACK_COUNT] ++
  [ARB_LOST_COUNT] ++
  [STRETCH_TO_COUNT] ++
  [ABORTED_COUNT] ++
  [SEQ_ERR_COUNT] ++
  [BUS_CLEAR_COUNT] ++
  [TIMING_USE, TIMING_LOW, TIMING_HIGH] ++
  [HOLD_USE, HOLD_HOLD]
/-- Every field of the page's own registers. -/
def table : List Fld := table0
end I2C

namespace PRS
/- PRS 0x040 CFG (15_prism_engines.md). -/
def CFG_JOIN : Fld := ⟨0x040, 30, 2, .stg, 0⟩
def CFG_GROUP : Fld := ⟨0x040, 27, 3, .stg, 0⟩
def CFG_CAP_POS : Fld := ⟨0x040, 26, 1, .stg, 0⟩
def CFG_CAP_TRACK : Fld := ⟨0x040, 22, 4, .stg, 0⟩
def CFG_DIV : Fld := ⟨0x040, 0, 16, .stg, 1⟩
/- PRS 0x044 PINS_A (15_prism_engines.md). -/
def PINS_A_PIN3 : Fld := ⟨0x044, 24, 8, .stg, 0⟩
def PINS_A_PIN2 : Fld := ⟨0x044, 16, 8, .stg, 0⟩
def PINS_A_PIN1 : Fld := ⟨0x044, 8, 8, .stg, 0⟩
def PINS_A_PIN0 : Fld := ⟨0x044, 0, 8, .stg, 0⟩
/- PRS 0x048 PINS_B (15_prism_engines.md). -/
def PINS_B_PIN7 : Fld := ⟨0x048, 24, 8, .stg, 0⟩
def PINS_B_PIN6 : Fld := ⟨0x048, 16, 8, .stg, 0⟩
def PINS_B_PIN5 : Fld := ⟨0x048, 8, 8, .stg, 0⟩
def PINS_B_PIN4 : Fld := ⟨0x048, 0, 8, .stg, 0⟩
/- PRS 0x04C PROG (15_prism_engines.md). -/
def PROG_ENTRY : Fld := ⟨0x04C, 16, 10, .rw, 0⟩
def PROG_LEN : Fld := ⟨0x04C, 0, 11, .rw, 0⟩
/- PRS 0x050 PROG_SUM (15_prism_engines.md). -/
def PROG_SUM_SUM : Fld := ⟨0x050, 0, 32, .rw, 0⟩
/- PRS 0x054 SUM_CALC (15_prism_engines.md). -/
def SUM_CALC_CALC : Fld := ⟨0x054, 0, 32, .ro, 0⟩
/- PRS 0x058 CTL (15_prism_engines.md). -/
def CTL_EVT_CLR : Fld := ⟨0x058, 2, 1, .wo, 0⟩
def CTL_STOP : Fld := ⟨0x058, 1, 1, .wo, 0⟩
def CTL_START : Fld := ⟨0x058, 0, 1, .wo, 0⟩
/- PRS 0x05C STAT (15_prism_engines.md). -/
def STAT_STATE : Fld := ⟨0x05C, 29, 3, .ro, 0⟩
def STAT_CAUSE : Fld := ⟨0x05C, 25, 4, .ro, 0⟩
def STAT_START_ERR : Fld := ⟨0x05C, 22, 3, .ro, 0⟩
def STAT_WAIT : Fld := ⟨0x05C, 19, 3, .ro, 0⟩
def STAT_SP : Fld := ⟨0x05C, 16, 3, .ro, 0⟩
def STAT_C : Fld := ⟨0x05C, 15, 1, .ro, 0⟩
def STAT_N : Fld := ⟨0x05C, 14, 1, .ro, 0⟩
def STAT_Z : Fld := ⟨0x05C, 13, 1, .ro, 0⟩
def STAT_PC : Fld := ⟨0x05C, 0, 10, .ro, 0⟩
/- PRS 0x060–0x07C W[0]–W[7] (15_prism_engines.md). -/
def W_VALUE (i : Nat) : Fld := ⟨0x060 + 4 * i, 0, 32, .rw, 0⟩
/- PRS 0x080 EVT (15_prism_engines.md). -/
def EVT_DROPPED : Fld := ⟨0x080, 16, 16, .ro, 0⟩
def EVT_FIRED : Fld := ⟨0x080, 0, 16, .ro, 0⟩
/- PRS 0x084 SLOTS (15_prism_engines.md). -/
def SLOTS_POS : Fld := ⟨0x084, 16, 16, .ro, 0⟩
def SLOTS_ARMED : Fld := ⟨0x084, 0, 16, .ro, 0⟩
/- PRS 0x088 PUBW (15_prism_engines.md). -/
def PUBW_WORD : Fld := ⟨0x088, 0, 32, .ro, 0⟩
/- PRS 0x08C QCFG (15_prism_engines.md). -/
def QCFG_STALL_MAX : Fld := ⟨0x08C, 24, 8, .stg, 5⟩
def QCFG_OUT_THR : Fld := ⟨0x08C, 8, 6, .stg, 8⟩
def QCFG_IN_THR : Fld := ⟨0x08C, 0, 6, .stg, 4⟩
/- PRS 0x090 QSTAT (15_prism_engines.md). -/
def QSTAT_OUT_LVL : Fld := ⟨0x090, 16, 6, .ro, 0⟩
def QSTAT_IN_LVL : Fld := ⟨0x090, 0, 6, .ro, 0⟩
/- PRS 0x094 INQ (15_prism_engines.md). -/
def INQ_ENTRY : Fld := ⟨0x094, 0, 32, .wo, 0⟩
/- PRS 0x098 OUTQ (15_prism_engines.md). -/
def OUTQ_ENTRY : Fld := ⟨0x098, 0, 32, .rc, 2147483648⟩
/- PRS 0x09C QCTL (15_prism_engines.md). -/
def QCTL_OUT_FLUSH : Fld := ⟨0x09C, 1, 1, .wo, 0⟩
def QCTL_IN_FLUSH : Fld := ⟨0x09C, 0, 1, .wo, 0⟩
/- PRS 0x0A0 GRP_CTL (15_prism_engines.md). -/
def GRP_CTL_KEY : Fld := ⟨0x0A0, 16, 16, .wo, 0⟩
def GRP_CTL_GROUPS : Fld := ⟨0x0A0, 8, 8, .wo, 0⟩
def GRP_CTL_CMD : Fld := ⟨0x0A0, 0, 4, .wo, 0⟩
/- PRS 0x0A4 GRP_AT_LO (15_prism_engines.md). -/
def GRP_AT_LO_TLO : Fld := ⟨0x0A4, 0, 32, .rw, 0⟩
/- PRS 0x0A8 GRP_AT_HI (15_prism_engines.md). -/
def GRP_AT_HI_THI : Fld := ⟨0x0A8, 0, 32, .rw, 0⟩
/- PRS 0x0AC STAMP_LO (15_prism_engines.md). -/
def STAMP_LO_TLO : Fld := ⟨0x0AC, 0, 32, .ro, 0⟩
/- PRS 0x0B0 STAMP_HI (15_prism_engines.md). -/
def STAMP_HI_THI : Fld := ⟨0x0B0, 0, 32, .ro, 0⟩
/- PRS 0x0B4 STAMP_INFO (15_prism_engines.md). -/
def STAMP_INFO_VALID : Fld := ⟨0x0B4, 31, 1, .ro, 0⟩
def STAMP_INFO_FB : Fld := ⟨0x0B4, 30, 1, .ro, 0⟩
def STAMP_INFO_RISING : Fld := ⟨0x0B4, 29, 1, .ro, 0⟩
def STAMP_INFO_PIN : Fld := ⟨0x0B4, 0, 3, .ro, 0⟩
/- PRS 0x0C0 LATE (15_prism_engines.md). -/
def LATE_COUNT : Fld := ⟨0x0C0, 0, 32, .rc, 0⟩
/- PRS 0x0C4 ACT_REF (15_prism_engines.md). -/
def ACT_REF_COUNT : Fld := ⟨0x0C4, 0, 32, .rc, 0⟩
/- PRS 0x0C8 ACT_DROP (15_prism_engines.md). -/
def ACT_DROP_COUNT : Fld := ⟨0x0C8, 0, 32, .rc, 0⟩
/- PRS 0x0CC PIN_DEFER (15_prism_engines.md). -/
def PIN_DEFER_COUNT : Fld := ⟨0x0CC, 0, 32, .rc, 0⟩
/- PRS 0x0D0 PUSH_LOST (15_prism_engines.md). -/
def PUSH_LOST_COUNT : Fld := ⟨0x0D0, 0, 32, .rc, 0⟩
/- PRS 0x0D4 EMPTY_RD (15_prism_engines.md). -/
def EMPTY_RD_COUNT : Fld := ⟨0x0D4, 0, 32, .rc, 0⟩
/- PRS 0x0D8 STALL_TO (15_prism_engines.md). -/
def STALL_TO_COUNT : Fld := ⟨0x0D8, 0, 32, .rc, 0⟩
/- PRS 0x0DC LOAD_REF (15_prism_engines.md). -/
def LOAD_REF_COUNT : Fld := ⟨0x0DC, 0, 32, .rc, 0⟩
/- PRS 0x0E0 START_REF (15_prism_engines.md). -/
def START_REF_COUNT : Fld := ⟨0x0E0, 0, 32, .rc, 0⟩
/- PRS 0x0E4 INSTR (15_prism_engines.md). -/
def INSTR_COUNT : Fld := ⟨0x0E4, 0, 32, .ro, 0⟩
def table0 : List Fld :=
  [CFG_JOIN, CFG_GROUP, CFG_CAP_POS, CFG_CAP_TRACK, CFG_DIV] ++
  [PINS_A_PIN3, PINS_A_PIN2, PINS_A_PIN1, PINS_A_PIN0] ++
  [PINS_B_PIN7, PINS_B_PIN6, PINS_B_PIN5, PINS_B_PIN4] ++
  [PROG_ENTRY, PROG_LEN] ++
  [PROG_SUM_SUM] ++
  [SUM_CALC_CALC] ++
  [CTL_EVT_CLR, CTL_STOP, CTL_START] ++
  [STAT_STATE, STAT_CAUSE, STAT_START_ERR, STAT_WAIT, STAT_SP, STAT_C, STAT_N, STAT_Z, STAT_PC] ++
  (List.range 8).flatMap (fun i => [W_VALUE i]) ++
  [EVT_DROPPED, EVT_FIRED] ++
  [SLOTS_POS, SLOTS_ARMED] ++
  [PUBW_WORD] ++
  [QCFG_STALL_MAX, QCFG_OUT_THR, QCFG_IN_THR] ++
  [QSTAT_OUT_LVL, QSTAT_IN_LVL] ++
  [INQ_ENTRY] ++
  [OUTQ_ENTRY] ++
  [QCTL_OUT_FLUSH, QCTL_IN_FLUSH] ++
  [GRP_CTL_KEY, GRP_CTL_GROUPS, GRP_CTL_CMD] ++
  [GRP_AT_LO_TLO] ++
  [GRP_AT_HI_THI]
def table1 : List Fld :=
  [STAMP_LO_TLO] ++
  [STAMP_HI_THI] ++
  [STAMP_INFO_VALID, STAMP_INFO_FB, STAMP_INFO_RISING, STAMP_INFO_PIN] ++
  [LATE_COUNT] ++
  [ACT_REF_COUNT] ++
  [ACT_DROP_COUNT] ++
  [PIN_DEFER_COUNT] ++
  [PUSH_LOST_COUNT] ++
  [EMPTY_RD_COUNT] ++
  [STALL_TO_COUNT] ++
  [LOAD_REF_COUNT] ++
  [START_REF_COUNT] ++
  [INSTR_COUNT]
/-- Every field of the page's own registers. -/
def table : List Fld := table0 ++ table1
end PRS

namespace CAN
/- CAN 0x040 CFG (16_can_fd.md). -/
def CFG_FD_EN : Fld := ⟨0x040, 31, 1, .stg, 0⟩
def CFG_BRS_EN : Fld := ⟨0x040, 30, 1, .stg, 0⟩
def CFG_PEX : Fld := ⟨0x040, 29, 1, .stg, 1⟩
def CFG_LISTEN : Fld := ⟨0x040, 28, 1, .stg, 0⟩
def CFG_LOOP : Fld := ⟨0x040, 27, 1, .stg, 0⟩
def CFG_SELF_RX : Fld := ⟨0x040, 26, 1, .stg, 0⟩
def CFG_AUTO_RECOVER : Fld := ⟨0x040, 25, 1, .stg, 1⟩
def CFG_BUSOFF_FLUSH : Fld := ⟨0x040, 24, 1, .stg, 0⟩
def CFG_ROUTE_EN : Fld := ⟨0x040, 23, 1, .stg, 0⟩
def CFG_ROUTE_EXCL : Fld := ⟨0x040, 22, 1, .stg, 0⟩
def CFG_TXORD : Fld := ⟨0x040, 21, 1, .stg, 0⟩
def CFG_ERR_LIM : Fld := ⟨0x040, 8, 8, .stg, 16⟩
def CFG_ARB_LIM : Fld := ⟨0x040, 0, 8, .stg, 0⟩
/- CAN 0x044 NOMINAL (16_can_fd.md). -/
def NOMINAL_SP : Fld := ⟨0x044, 22, 10, .stg, 800⟩
def NOMINAL_RATE : Fld := ⟨0x044, 0, 20, .stg, 500000⟩
/- CAN 0x048 DATA (16_can_fd.md). -/
def DATA_SP : Fld := ⟨0x048, 22, 10, .stg, 750⟩
def DATA_RATE : Fld := ⟨0x048, 0, 13, .stg, 2000⟩
/- CAN 0x04C GO (16_can_fd.md). -/
def GO_OBJ : Fld := ⟨0x04C, 0, 7, .wo, 0⟩
/- CAN 0x050 CANCEL (16_can_fd.md). -/
def CANCEL_OBJ : Fld := ⟨0x050, 0, 7, .wo, 0⟩
/- CAN 0x054 CTL (16_can_fd.md). -/
def CTL_RECOVER : Fld := ⟨0x054, 0, 1, .wo, 0⟩
/- CAN 0x058 OBJ_BANK (16_can_fd.md). -/
def OBJ_BANK_BANK : Fld := ⟨0x058, 0, 4, .rw, 0⟩
/- CAN 0x05C STAT (16_can_fd.md). -/
def STAT_STATE : Fld := ⟨0x05C, 29, 3, .ro, 0⟩
def STAT_TX_BUSY : Fld := ⟨0x05C, 28, 1, .ro, 0⟩
def STAT_RX_BUSY : Fld := ⟨0x05C, 27, 1, .ro, 0⟩
def STAT_TEC : Fld := ⟨0x05C, 16, 9, .ro, 0⟩
def STAT_REC : Fld := ⟨0x05C, 8, 8, .ro, 0⟩
/- CAN 0x060 TDC_STAT (16_can_fd.md). -/
def TDC_STAT_DELAY : Fld := ⟨0x060, 0, 7, .ro, 0⟩
/- CAN 0x064 RSEQ (16_can_fd.md). -/
def RSEQ_NEXT : Fld := ⟨0x064, 0, 16, .ro, 0⟩
/- CAN 0x068–0x074 FULL[0]–FULL[3] (16_can_fd.md). -/
def FULL_OBJS (i : Nat) : Fld := ⟨0x068 + 4 * i, 0, 32, .ro, 0⟩
/- CAN 0x078–0x084 PEND[0]–PEND[3] (16_can_fd.md). -/
def PEND_OBJS (i : Nat) : Fld := ⟨0x078 + 4 * i, 0, 32, .ro, 0⟩
/- CAN 0x088–0x094 DONE[0]–DONE[3] (16_can_fd.md). -/
def DONE_OBJS (i : Nat) : Fld := ⟨0x088 + 4 * i, 0, 32, .w1c, 0⟩
/- CAN 0x0A0 TX_OK (16_can_fd.md). -/
def TX_OK_COUNT : Fld := ⟨0x0A0, 0, 32, .rc, 0⟩
/- CAN 0x0A4 RX_OK (16_can_fd.md). -/
def RX_OK_COUNT : Fld := ⟨0x0A4, 0, 32, .rc, 0⟩
/- CAN 0x0A8 ARB_LOST (16_can_fd.md). -/
def ARB_LOST_COUNT : Fld := ⟨0x0A8, 0, 32, .rc, 0⟩
/- CAN 0x0AC TX_ERR (16_can_fd.md). -/
def TX_ERR_COUNT : Fld := ⟨0x0AC, 0, 32, .rc, 0⟩
/- CAN 0x0B0 RX_ERR (16_can_fd.md). -/
def RX_ERR_COUNT : Fld := ⟨0x0B0, 0, 32, .rc, 0⟩
/- CAN 0x0B4 ABANDONED (16_can_fd.md). -/
def ABANDONED_COUNT : Fld := ⟨0x0B4, 0, 32, .rc, 0⟩
/- CAN 0x0B8 RX_LOST (16_can_fd.md). -/
def RX_LOST_COUNT : Fld := ⟨0x0B8, 0, 32, .rc, 0⟩
/- CAN 0x0BC TX_REF (16_can_fd.md). -/
def TX_REF_COUNT : Fld := ⟨0x0BC, 0, 32, .rc, 0⟩
/- CAN 0x0C0 OBJ_BUSY (16_can_fd.md). -/
def OBJ_BUSY_COUNT : Fld := ⟨0x0C0, 0, 32, .rc, 0⟩
/- CAN 0x0C4 RT_BAD (16_can_fd.md). -/
def RT_BAD_COUNT : Fld := ⟨0x0C4, 0, 32, .rc, 0⟩
/- CAN 0x0C8 BUSOFF (16_can_fd.md). -/
def BUSOFF_COUNT : Fld := ⟨0x0C8, 0, 32, .rc, 0⟩
/- CAN 0x0CC PEX (16_can_fd.md). -/
def PEX_COUNT : Fld := ⟨0x0CC, 0, 32, .rc, 0⟩
/- CAN 0x0D0 HOLD_ABORT (16_can_fd.md). -/
def HOLD_ABORT_COUNT : Fld := ⟨0x0D0, 0, 32, .rc, 0⟩
/- CAN 0x400 NBT (16_can_fd.md). -/
def NBT_USE : Fld := ⟨0x400, 31, 1, .stg, 0⟩
def NBT_BRP : Fld := ⟨0x400, 25, 6, .stg, 0⟩
def NBT_TSEG1 : Fld := ⟨0x400, 16, 9, .stg, 0⟩
def NBT_TSEG2 : Fld := ⟨0x400, 8, 8, .stg, 0⟩
def NBT_SJW : Fld := ⟨0x400, 0, 8, .stg, 0⟩
/- CAN 0x404 DBT (16_can_fd.md). -/
def DBT_USE : Fld := ⟨0x404, 31, 1, .stg, 0⟩
def DBT_BRP : Fld := ⟨0x404, 25, 6, .stg, 0⟩
def DBT_TSEG1 : Fld := ⟨0x404, 10, 6, .stg, 0⟩
def DBT_TSEG2 : Fld := ⟨0x404, 5, 5, .stg, 0⟩
def DBT_SJW : Fld := ⟨0x404, 0, 5, .stg, 0⟩
/- CAN 0x408 TDC (16_can_fd.md). -/
def TDC_USE : Fld := ⟨0x408, 31, 1, .stg, 0⟩
def TDC_EN : Fld := ⟨0x408, 15, 1, .stg, 0⟩
def TDC_OFS : Fld := ⟨0x408, 8, 7, .stg, 0⟩
def table0 : List Fld :=
  [CFG_FD_EN, CFG_BRS_EN, CFG_PEX, CFG_LISTEN, CFG_LOOP, CFG_SELF_RX, CFG_AUTO_RECOVER, CFG_BUSOFF_FLUSH, CFG_ROUTE_EN, CFG_ROUTE_EXCL, CFG_TXORD, CFG_ERR_LIM, CFG_ARB_LIM] ++
  [NOMINAL_SP, NOMINAL_RATE] ++
  [DATA_SP, DATA_RATE] ++
  [GO_OBJ] ++
  [CANCEL_OBJ] ++
  [CTL_RECOVER] ++
  [OBJ_BANK_BANK] ++
  [STAT_STATE, STAT_TX_BUSY, STAT_RX_BUSY, STAT_TEC, STAT_REC] ++
  [TDC_STAT_DELAY] ++
  [RSEQ_NEXT] ++
  (List.range 4).flatMap (fun i => [FULL_OBJS i]) ++
  (List.range 4).flatMap (fun i => [PEND_OBJS i]) ++
  (List.range 4).flatMap (fun i => [DONE_OBJS i]) ++
  [TX_OK_COUNT] ++
  [RX_OK_COUNT] ++
  [ARB_LOST_COUNT] ++
  [TX_ERR_COUNT] ++
  [RX_ERR_COUNT] ++
  [ABANDONED_COUNT] ++
  [RX_LOST_COUNT]
def table1 : List Fld :=
  [TX_REF_COUNT] ++
  [OBJ_BUSY_COUNT] ++
  [RT_BAD_COUNT] ++
  [BUSOFF_COUNT] ++
  [PEX_COUNT] ++
  [HOLD_ABORT_COUNT] ++
  [NBT_USE, NBT_BRP, NBT_TSEG1, NBT_TSEG2, NBT_SJW] ++
  [DBT_USE, DBT_BRP, DBT_TSEG1, DBT_TSEG2, DBT_SJW] ++
  [TDC_USE, TDC_EN, TDC_OFS]
/-- Every field of the page's own registers. -/
def table : List Fld := table0 ++ table1
end CAN

namespace ETH
/- ETH 0x040 CFG (17_local_ethernet.md). -/
def CFG_MODE : Fld := ⟨0x040, 30, 2, .stg, 0⟩
def CFG_AN_EN : Fld := ⟨0x040, 29, 1, .stg, 1⟩
def CFG_SPEED : Fld := ⟨0x040, 27, 2, .stg, 0⟩
def CFG_PROMISC : Fld := ⟨0x040, 26, 1, .stg, 0⟩
def CFG_BCAST_EN : Fld := ⟨0x040, 25, 1, .stg, 1⟩
def CFG_MAX_LEN : Fld := ⟨0x040, 0, 14, .stg, 1522⟩
/- ETH 0x044 MAC_LO (17_local_ethernet.md). -/
def MAC_LO_ADDR : Fld := ⟨0x044, 0, 32, .stg, 0⟩
/- ETH 0x048 MAC_HI (17_local_ethernet.md). -/
def MAC_HI_ADDR : Fld := ⟨0x048, 0, 16, .stg, 0x0200⟩
/- ETH 0x04C TUN (17_local_ethernet.md). -/
def TUN_TX_EN : Fld := ⟨0x04C, 31, 1, .stg, 0⟩
def TUN_RX_EN : Fld := ⟨0x04C, 30, 1, .stg, 0⟩
def TUN_GROUP : Fld := ⟨0x04C, 29, 1, .stg, 0⟩
def TUN_DST : Fld := ⟨0x04C, 16, 12, .stg, 0⟩
def TUN_TEN : Fld := ⟨0x04C, 12, 4, .stg, 15⟩
def TUN_RX_MASK : Fld := ⟨0x04C, 0, 8, .stg, 0⟩
/- ETH 0x050 CTRL (17_local_ethernet.md). -/
def CTRL_TEN : Fld := ⟨0x050, 28, 4, .stg, 15⟩
def CTRL_MAC_HI : Fld := ⟨0x050, 0, 16, .stg, 0⟩
/- ETH 0x054 CTRL_MAC_LO (17_local_ethernet.md). -/
def CTRL_MAC_LO_ADDR : Fld := ⟨0x054, 0, 32, .stg, 0⟩
/- ETH 0x058 PREEMPT (17_local_ethernet.md). -/
def PREEMPT_EN : Fld := ⟨0x058, 31, 1, .stg, 0⟩
def PREEMPT_VERIFY_DIS : Fld := ⟨0x058, 30, 1, .stg, 0⟩
def PREEMPT_ADD_FRAG : Fld := ⟨0x058, 28, 2, .stg, 0⟩
def PREEMPT_VERIFY_TIME : Fld := ⟨0x058, 0, 8, .stg, 10⟩
/- ETH 0x05C STAT (17_local_ethernet.md). -/
def STAT_LINK : Fld := ⟨0x05C, 31, 1, .ro, 0⟩
def STAT_SPEED_EFF : Fld := ⟨0x05C, 29, 2, .ro, 0⟩
def STAT_AN_DONE : Fld := ⟨0x05C, 28, 1, .ro, 0⟩
def STAT_PREEMPT : Fld := ⟨0x05C, 26, 2, .ro, 0⟩
def STAT_WAKE_TX_BUSY : Fld := ⟨0x05C, 25, 1, .ro, 0⟩
/- ETH 0x060 MDIO (17_local_ethernet.md). -/
def MDIO_OP : Fld := ⟨0x060, 30, 2, .rw, 0⟩
def MDIO_C45_WR : Fld := ⟨0x060, 29, 1, .rw, 0⟩
def MDIO_PHY : Fld := ⟨0x060, 21, 5, .rw, 0⟩
def MDIO_REG : Fld := ⟨0x060, 16, 5, .rw, 0⟩
def MDIO_DATA : Fld := ⟨0x060, 0, 16, .rw, 0⟩
/- ETH 0x064 MDIO_STAT (17_local_ethernet.md). -/
def MDIO_STAT_BUSY : Fld := ⟨0x064, 31, 1, .ro, 0⟩
def MDIO_STAT_RDATA : Fld := ⟨0x064, 0, 16, .ro, 0⟩
/- ETH 0x068 WAKE_TX (17_local_ethernet.md). -/
def WAKE_TX_GO : Fld := ⟨0x068, 0, 1, .wo, 0⟩
/- ETH 0x080 RX_OK (17_local_ethernet.md). -/
def RX_OK_COUNT : Fld := ⟨0x080, 0, 32, .rc, 0⟩
/- ETH 0x084 TX_OK (17_local_ethernet.md). -/
def TX_OK_COUNT : Fld := ⟨0x084, 0, 32, .rc, 0⟩
/- ETH 0x088 RX_FCS (17_local_ethernet.md). -/
def RX_FCS_COUNT : Fld := ⟨0x088, 0, 32, .rc, 0⟩
/- ETH 0x08C RUNT (17_local_ethernet.md). -/
def RUNT_COUNT : Fld := ⟨0x08C, 0, 32, .rc, 0⟩
/- ETH 0x090 OVERSIZE (17_local_ethernet.md). -/
def OVERSIZE_COUNT : Fld := ⟨0x090, 0, 32, .rc, 0⟩
/- ETH 0x094 RX_OVF (17_local_ethernet.md). -/
def RX_OVF_COUNT : Fld := ⟨0x094, 0, 32, .rc, 0⟩
/- ETH 0x098 FILTERED (17_local_ethernet.md). -/
def FILTERED_COUNT : Fld := ⟨0x098, 0, 32, .rc, 0⟩
/- ETH 0x09C TX_DOWN (17_local_ethernet.md). -/
def TX_DOWN_COUNT : Fld := ⟨0x09C, 0, 32, .rc, 0⟩
/- ETH 0x0A0 TX_OVERSIZE (17_local_ethernet.md). -/
def TX_OVERSIZE_COUNT : Fld := ⟨0x0A0, 0, 32, .rc, 0⟩
/- ETH 0x0A4 MAC_CTRL (17_local_ethernet.md). -/
def MAC_CTRL_COUNT : Fld := ⟨0x0A4, 0, 32, .rc, 0⟩
/- ETH 0x0A8 FRAG_ERR (17_local_ethernet.md). -/
def FRAG_ERR_COUNT : Fld := ⟨0x0A8, 0, 32, .rc, 0⟩
/- ETH 0x0AC CTRL_REJ (17_local_ethernet.md). -/
def CTRL_REJ_COUNT : Fld := ⟨0x0AC, 0, 32, .rc, 0⟩
/- ETH 0x0B0 BAD_TUN (17_local_ethernet.md). -/
def BAD_TUN_COUNT : Fld := ⟨0x0B0, 0, 32, .rc, 0⟩
/- ETH 0x100–0x13C HASH[0]–HASH[15] (17_local_ethernet.md). -/
def HASH_BINS (i : Nat) : Fld := ⟨0x100 + 4 * i, 0, 32, .stg, 0⟩
/- ETH 0x200 + 8 × i EXACT[i].LO (17_local_ethernet.md). -/
def EXACT_LO_ADDR (i : Nat) : Fld := ⟨0x200 + 8 * i, 0, 32, .stg, 0⟩
/- ETH 0x204 + 8 × i EXACT[i].HI (17_local_ethernet.md). -/
def EXACT_HI_EN (i : Nat) : Fld := ⟨0x204 + 8 * i, 31, 1, .stg, 0⟩
def EXACT_HI_ACTION (i : Nat) : Fld := ⟨0x204 + 8 * i, 29, 2, .stg, 0⟩
def EXACT_HI_GROUP (i : Nat) : Fld := ⟨0x204 + 8 * i, 28, 1, .stg, 0⟩
def EXACT_HI_DST (i : Nat) : Fld := ⟨0x204 + 8 * i, 16, 12, .stg, 0⟩
def EXACT_HI_ADDR (i : Nat) : Fld := ⟨0x204 + 8 * i, 0, 16, .stg, 0⟩
/- ETH 0x400 TS_LAT (17_local_ethernet.md). -/
def TS_LAT_USE : Fld := ⟨0x400, 31, 1, .stg, 0⟩
def TS_LAT_TX_LAT : Fld := ⟨0x400, 16, 15, .stg, 0⟩
def TS_LAT_RX_LAT : Fld := ⟨0x400, 0, 15, .stg, 0⟩
def table0 : List Fld :=
  [CFG_MODE, CFG_AN_EN, CFG_SPEED, CFG_PROMISC, CFG_BCAST_EN, CFG_MAX_LEN] ++
  [MAC_LO_ADDR] ++
  [MAC_HI_ADDR] ++
  [TUN_TX_EN, TUN_RX_EN, TUN_GROUP, TUN_DST, TUN_TEN, TUN_RX_MASK] ++
  [CTRL_TEN, CTRL_MAC_HI] ++
  [CTRL_MAC_LO_ADDR] ++
  [PREEMPT_EN, PREEMPT_VERIFY_DIS, PREEMPT_ADD_FRAG, PREEMPT_VERIFY_TIME] ++
  [STAT_LINK, STAT_SPEED_EFF, STAT_AN_DONE, STAT_PREEMPT, STAT_WAKE_TX_BUSY] ++
  [MDIO_OP, MDIO_C45_WR, MDIO_PHY, MDIO_REG, MDIO_DATA] ++
  [MDIO_STAT_BUSY, MDIO_STAT_RDATA] ++
  [WAKE_TX_GO] ++
  [RX_OK_COUNT] ++
  [TX_OK_COUNT] ++
  [RX_FCS_COUNT] ++
  [RUNT_COUNT] ++
  [OVERSIZE_COUNT] ++
  [RX_OVF_COUNT] ++
  [FILTERED_COUNT] ++
  [TX_DOWN_COUNT] ++
  [TX_OVERSIZE_COUNT]
def table1 : List Fld :=
  [MAC_CTRL_COUNT] ++
  [FRAG_ERR_COUNT] ++
  [CTRL_REJ_COUNT] ++
  [BAD_TUN_COUNT] ++
  (List.range 16).flatMap (fun i => [HASH_BINS i]) ++
  (List.range 32).flatMap (fun i => [EXACT_LO_ADDR i]) ++
  (List.range 32).flatMap (fun i => [EXACT_HI_EN i, EXACT_HI_ACTION i, EXACT_HI_GROUP i, EXACT_HI_DST i, EXACT_HI_ADDR i]) ++
  [TS_LAT_USE, TS_LAT_TX_LAT, TS_LAT_RX_LAT]
/-- Every field of the page's own registers. -/
def table : List Fld := table0 ++ table1
end ETH

namespace HOST
/- HOST 0x040 STAT (18_host_mailboxes.md). -/
def STAT_IF : Fld := ⟨0x040, 30, 2, .ro, 0⟩
def STAT_LINK_UP : Fld := ⟨0x040, 29, 1, .ro, 0⟩
def STAT_RATE : Fld := ⟨0x040, 27, 2, .ro, 0⟩
def STAT_WIDTH : Fld := ⟨0x040, 25, 2, .ro, 0⟩
def STAT_D3 : Fld := ⟨0x040, 24, 1, .ro, 0⟩
def STAT_BME : Fld := ⟨0x040, 23, 1, .ro, 0⟩
/- HOST 0x044 VEC (18_host_mailboxes.md). -/
def VEC_DB : Fld := ⟨0x044, 26, 6, .stg, 0⟩
def VEC_ERR : Fld := ⟨0x044, 20, 6, .stg, 1⟩
/- HOST 0x048 RXMAP (18_host_mailboxes.md). -/
def RXMAP_QP : Fld := ⟨0x048, 0, 24, .stg, 0⟩
/- HOST 0x04C WERR (18_host_mailboxes.md). -/
def WERR_READ : Fld := ⟨0x04C, 31, 1, .ro, 0⟩
def WERR_NODE : Fld := ⟨0x04C, 16, 12, .ro, 0⟩
def WERR_STATUS : Fld := ⟨0x04C, 8, 8, .ro, 0⟩
def WERR_ADDR_HI : Fld := ⟨0x04C, 0, 4, .ro, 0⟩
/- HOST 0x050 WERR_LO (18_host_mailboxes.md). -/
def WERR_LO_ADDR : Fld := ⟨0x050, 0, 32, .ro, 0⟩
/- HOST 0x054 WERR_CNT (18_host_mailboxes.md). -/
def WERR_CNT_COUNT : Fld := ⟨0x054, 0, 32, .rc, 0⟩
/- HOST 0x058 PCI_ID (18_host_mailboxes.md). -/
def PCI_ID_DEVICE : Fld := ⟨0x058, 16, 16, .ro, 28968⟩
def PCI_ID_VENDOR : Fld := ⟨0x058, 0, 16, .ro, 0⟩
/- HOST 0x05C ALIVE (18_host_mailboxes.md). -/
def ALIVE_ALIVE : Fld := ⟨0x05C, 0, 1, .rw, 0⟩
/- HOST 0x060 VPEND_LO (18_host_mailboxes.md). -/
def VPEND_LO_PEND : Fld := ⟨0x060, 0, 32, .w1c, 0⟩
/- HOST 0x064 VPEND_HI (18_host_mailboxes.md). -/
def VPEND_HI_PEND : Fld := ⟨0x064, 0, 32, .w1c, 0⟩
/- HOST 0x068 VMASK_LO (18_host_mailboxes.md). -/
def VMASK_LO_MASK : Fld := ⟨0x068, 0, 32, .rw, 0⟩
/- HOST 0x06C VMASK_HI (18_host_mailboxes.md). -/
def VMASK_HI_MASK : Fld := ⟨0x06C, 0, 32, .rw, 0⟩
/- HOST 0x070 QSPI_BAD (18_host_mailboxes.md). -/
def QSPI_BAD_COUNT : Fld := ⟨0x070, 0, 32, .rc, 0⟩
/- HOST 0x074 QSPI_ABANDON (18_host_mailboxes.md). -/
def QSPI_ABANDON_COUNT : Fld := ⟨0x074, 0, 32, .rc, 0⟩
/- HOST 0x080 + 4 × a RWIN[a] (18_host_mailboxes.md). -/
def RWIN_EN (i : Nat) : Fld := ⟨0x080 + 4 * i, 31, 1, .stg, 0⟩
def RWIN_CLS (i : Nat) : Fld := ⟨0x080 + 4 * i, 30, 1, .stg, 0⟩
def RWIN_NODE (i : Nat) : Fld := ⟨0x080 + 4 * i, 18, 12, .stg, 0⟩
def RWIN_BASE (i : Nat) : Fld := ⟨0x080 + 4 * i, 0, 12, .stg, 0⟩
/- HOST 0x100 + 0x40 × q QP[q].CFG (18_host_mailboxes.md). -/
def QP_CFG_EN (i : Nat) : Fld := ⟨0x100 + 64 * i, 31, 1, .rw, 0⟩
def QP_CFG_PRI (i : Nat) : Fld := ⟨0x100 + 64 * i, 28, 3, .rw, 0⟩
def QP_CFG_TX_SIZE (i : Nat) : Fld := ⟨0x100 + 64 * i, 24, 4, .rw, 4⟩
def QP_CFG_RX_SIZE (i : Nat) : Fld := ⟨0x100 + 64 * i, 20, 4, .rw, 4⟩
def QP_CFG_VEC_TX (i : Nat) : Fld := ⟨0x100 + 64 * i, 14, 6, .rw, 0⟩
def QP_CFG_VEC_RX (i : Nat) : Fld := ⟨0x100 + 64 * i, 8, 6, .rw, 0⟩
def QP_CFG_RX_MASK (i : Nat) : Fld := ⟨0x100 + 64 * i, 0, 8, .rw, 0⟩
/- HOST 0x104 + 0x40 × q QP[q].TX_BASE_LO (18_host_mailboxes.md). -/
def QP_TX_BASE_LO_ADDR (i : Nat) : Fld := ⟨0x104 + 64 * i, 0, 32, .rw, 0⟩
/- HOST 0x108 + 0x40 × q QP[q].TX_BASE_HI (18_host_mailboxes.md). -/
def QP_TX_BASE_HI_ADDR (i : Nat) : Fld := ⟨0x108 + 64 * i, 0, 32, .rw, 0⟩
/- HOST 0x10C + 0x40 × q QP[q].RX_BASE_LO (18_host_mailboxes.md). -/
def QP_RX_BASE_LO_ADDR (i : Nat) : Fld := ⟨0x10C + 64 * i, 0, 32, .rw, 0⟩
/- HOST 0x110 + 0x40 × q QP[q].RX_BASE_HI (18_host_mailboxes.md). -/
def QP_RX_BASE_HI_ADDR (i : Nat) : Fld := ⟨0x110 + 64 * i, 0, 32, .rw, 0⟩
/- HOST 0x114 + 0x40 × q QP[q].WB_LO (18_host_mailboxes.md). -/
def QP_WB_LO_ADDR (i : Nat) : Fld := ⟨0x114 + 64 * i, 0, 32, .rw, 0⟩
/- HOST 0x118 + 0x40 × q QP[q].WB_HI (18_host_mailboxes.md). -/
def QP_WB_HI_ADDR (i : Nat) : Fld := ⟨0x118 + 64 * i, 0, 32, .rw, 0⟩
/- HOST 0x11C + 0x40 × q QP[q].TX_PROD (18_host_mailboxes.md). -/
def QP_TX_PROD_IDX (i : Nat) : Fld := ⟨0x11C + 64 * i, 0, 12, .rw, 0⟩
/- HOST 0x120 + 0x40 × q QP[q].RX_TAIL (18_host_mailboxes.md). -/
def QP_RX_TAIL_IDX (i : Nat) : Fld := ⟨0x120 + 64 * i, 0, 12, .rw, 0⟩
/- HOST 0x124 + 0x40 × q QP[q].STAT (18_host_mailboxes.md). -/
def QP_STAT_STATE (i : Nat) : Fld := ⟨0x124 + 64 * i, 30, 2, .ro, 0⟩
def QP_STAT_ERR (i : Nat) : Fld := ⟨0x124 + 64 * i, 16, 8, .ro, 0⟩
def QP_STAT_TX_CONS (i : Nat) : Fld := ⟨0x124 + 64 * i, 0, 12, .ro, 0⟩
/- HOST 0x128 + 0x40 × q QP[q].RX_HEAD (18_host_mailboxes.md). -/
def QP_RX_HEAD_IDX (i : Nat) : Fld := ⟨0x128 + 64 * i, 0, 12, .ro, 0⟩
/- HOST 0x12C + 0x40 × q QP[q].TX_DONE (18_host_mailboxes.md). -/
def QP_TX_DONE_COUNT (i : Nat) : Fld := ⟨0x12C + 64 * i, 0, 32, .rc, 0⟩
/- HOST 0x130 + 0x40 × q QP[q].RX_NOBUF (18_host_mailboxes.md). -/
def QP_RX_NOBUF_COUNT (i : Nat) : Fld := ⟨0x130 + 64 * i, 0, 32, .rc, 0⟩
def table0 : List Fld :=
  [STAT_IF, STAT_LINK_UP, STAT_RATE, STAT_WIDTH, STAT_D3, STAT_BME] ++
  [VEC_DB, VEC_ERR] ++
  [RXMAP_QP] ++
  [WERR_READ, WERR_NODE, WERR_STATUS, WERR_ADDR_HI] ++
  [WERR_LO_ADDR] ++
  [WERR_CNT_COUNT] ++
  [PCI_ID_DEVICE, PCI_ID_VENDOR] ++
  [ALIVE_ALIVE] ++
  [VPEND_LO_PEND] ++
  [VPEND_HI_PEND] ++
  [VMASK_LO_MASK] ++
  [VMASK_HI_MASK] ++
  [QSPI_BAD_COUNT] ++
  [QSPI_ABANDON_COUNT] ++
  (List.range 16).flatMap (fun i => [RWIN_EN i, RWIN_CLS i, RWIN_NODE i, RWIN_BASE i]) ++
  (List.range 8).flatMap (fun i => [QP_CFG_EN i, QP_CFG_PRI i, QP_CFG_TX_SIZE i, QP_CFG_RX_SIZE i, QP_CFG_VEC_TX i, QP_CFG_VEC_RX i, QP_CFG_RX_MASK i]) ++
  (List.range 8).flatMap (fun i => [QP_TX_BASE_LO_ADDR i]) ++
  (List.range 8).flatMap (fun i => [QP_TX_BASE_HI_ADDR i]) ++
  (List.range 8).flatMap (fun i => [QP_RX_BASE_LO_ADDR i]) ++
  (List.range 8).flatMap (fun i => [QP_RX_BASE_HI_ADDR i])
def table1 : List Fld :=
  (List.range 8).flatMap (fun i => [QP_WB_LO_ADDR i]) ++
  (List.range 8).flatMap (fun i => [QP_WB_HI_ADDR i]) ++
  (List.range 8).flatMap (fun i => [QP_TX_PROD_IDX i]) ++
  (List.range 8).flatMap (fun i => [QP_RX_TAIL_IDX i]) ++
  (List.range 8).flatMap (fun i => [QP_STAT_STATE i, QP_STAT_ERR i, QP_STAT_TX_CONS i]) ++
  (List.range 8).flatMap (fun i => [QP_RX_HEAD_IDX i]) ++
  (List.range 8).flatMap (fun i => [QP_TX_DONE_COUNT i]) ++
  (List.range 8).flatMap (fun i => [QP_RX_NOBUF_COUNT i])
/-- Every field of the page's own registers. -/
def table : List Fld := table0 ++ table1
end HOST

namespace MBX
/- MBX 0x040 + 4 × m CFG[m] (18_host_mailboxes.md). -/
def CFG_WRITER (i : Nat) : Fld := ⟨0x040 + 4 * i, 28, 4, .stg, 8⟩
def CFG_READER (i : Nat) : Fld := ⟨0x040 + 4 * i, 24, 4, .stg, 9⟩
def CFG_SVC (i : Nat) : Fld := ⟨0x040 + 4 * i, 23, 1, .stg, 0⟩
def CFG_COMPAT (i : Nat) : Fld := ⟨0x040 + 4 * i, 22, 1, .stg, 0⟩
def CFG_DB_BIT (i : Nat) : Fld := ⟨0x040 + 4 * i, 16, 5, .stg, i⟩
def CFG_ACK_BIT (i : Nat) : Fld := ⟨0x040 + 4 * i, 8, 5, .stg, i⟩
def CFG_EN (i : Nat) : Fld := ⟨0x040 + 4 * i, 0, 1, .stg, 0⟩
/- MBX 0x080 + 4 × m STAT[m] (18_host_mailboxes.md). -/
def STAT_FULL (i : Nat) : Fld := ⟨0x080 + 4 * i, 31, 1, .ro, 0⟩
def STAT_ACKED (i : Nat) : Fld := ⟨0x080 + 4 * i, 30, 1, .ro, 0⟩
def STAT_WAITING (i : Nat) : Fld := ⟨0x080 + 4 * i, 29, 1, .ro, 0⟩
def STAT_LEN (i : Nat) : Fld := ⟨0x080 + 4 * i, 16, 7, .ro, 0⟩
def STAT_RC (i : Nat) : Fld := ⟨0x080 + 4 * i, 0, 16, .ro, 0⟩
/- MBX 0x0C0 CMD (18_host_mailboxes.md). -/
def CMD_OP : Fld := ⟨0x0C0, 28, 4, .wo, 0⟩
def CMD_MBX : Fld := ⟨0x0C0, 24, 4, .wo, 0⟩
def CMD_LEN : Fld := ⟨0x0C0, 16, 7, .wo, 0⟩
def CMD_RC : Fld := ⟨0x0C0, 0, 16, .wo, 0⟩
/- MBX 0x0C4 ERR (18_host_mailboxes.md). -/
def ERR_REQ : Fld := ⟨0x0C4, 28, 4, .ro, 0⟩
def ERR_MBX : Fld := ⟨0x0C4, 24, 4, .ro, 0⟩
def ERR_CAUSE : Fld := ⟨0x0C4, 16, 8, .ro, 0⟩
/- MBX 0x0C8 ERR_CNT (18_host_mailboxes.md). -/
def ERR_CNT_COUNT : Fld := ⟨0x0C8, 0, 32, .rc, 0⟩
/- MBX 0x0CC RECALLS (18_host_mailboxes.md). -/
def RECALLS_COUNT : Fld := ⟨0x0CC, 0, 32, .rc, 0⟩
/- MBX 0x0D0 DBCFG (18_host_mailboxes.md). -/
def DBCFG_IRQ_SIDE : Fld := ⟨0x0D0, 0, 2, .stg, 1⟩
/- MBX 0x100 + 0x10 × s DB[s].RAW (18_host_mailboxes.md). -/
def DB_RAW_BITS (i : Nat) : Fld := ⟨0x100 + 16 * i, 0, 32, .w1c, 0⟩
/- MBX 0x104 + 0x10 × s DB[s].MASK (18_host_mailboxes.md). -/
def DB_MASK_BITS (i : Nat) : Fld := ⟨0x104 + 16 * i, 0, 32, .rw, 0⟩
/- MBX 0x108 + 0x10 × s DB[s].PEND (18_host_mailboxes.md). -/
def DB_PEND_BITS (i : Nat) : Fld := ⟨0x108 + 16 * i, 0, 32, .ro, 0⟩
/- MBX 0x10C + 0x10 × s DB[s].RING (18_host_mailboxes.md). -/
def DB_RING_BITS (i : Nat) : Fld := ⟨0x10C + 16 * i, 0, 32, .wo, 0⟩
def table0 : List Fld :=
  (List.range 16).flatMap (fun i => [CFG_WRITER i, CFG_READER i, CFG_SVC i, CFG_COMPAT i, CFG_DB_BIT i, CFG_ACK_BIT i, CFG_EN i]) ++
  (List.range 16).flatMap (fun i => [STAT_FULL i, STAT_ACKED i, STAT_WAITING i, STAT_LEN i, STAT_RC i]) ++
  [CMD_OP, CMD_MBX, CMD_LEN, CMD_RC] ++
  [ERR_REQ, ERR_MBX, ERR_CAUSE] ++
  [ERR_CNT_COUNT] ++
  [RECALLS_COUNT] ++
  [DBCFG_IRQ_SIDE] ++
  (List.range 4).flatMap (fun i => [DB_RAW_BITS i]) ++
  (List.range 4).flatMap (fun i => [DB_MASK_BITS i]) ++
  (List.range 4).flatMap (fun i => [DB_PEND_BITS i]) ++
  (List.range 4).flatMap (fun i => [DB_RING_BITS i])
/-- Every field of the page's own registers. -/
def table : List Fld := table0
end MBX

namespace ZONE
/- ZONE 0x040 CMD (19_field_power.md). -/
def CMD_ON : Fld := ⟨0x040, 0, 1, .rw, 1⟩
/- ZONE 0x044 CTL (19_field_power.md). -/
def CTL_EN_CLR : Fld := ⟨0x044, 2, 1, .wo, 0⟩
def CTL_UNLATCH : Fld := ⟨0x044, 1, 1, .wo, 0⟩
/- ZONE 0x048 CFG (19_field_power.md). -/
def CFG_DMG_CHK : Fld := ⟨0x048, 30, 2, .stg, 3⟩
def CFG_SAFE_ACT : Fld := ⟨0x048, 2, 1, .stg, 0⟩
def CFG_HOTPLUG : Fld := ⟨0x048, 1, 1, .stg, 1⟩
/- ZONE 0x04C SHUNT (19_field_power.md). -/
def SHUNT_RTH : Fld := ⟨0x04C, 16, 16, .stg, 0⟩
def SHUNT_RSHUNT : Fld := ⟨0x04C, 0, 16, .stg, 5000⟩
/- ZONE 0x050 SHUNT_TC (19_field_power.md). -/
def SHUNT_TC_TAU : Fld := ⟨0x050, 16, 16, .stg, 100⟩
def SHUNT_TC_TCR : Fld := ⟨0x050, 0, 16, .stg, 0⟩
/- ZONE 0x054 ILIM (19_field_power.md). -/
def ILIM_TRIP_T : Fld := ⟨0x054, 16, 16, .stg, 100⟩
def ILIM_MA : Fld := ⟨0x054, 0, 16, .stg, 4000⟩
/- ZONE 0x058 RAMP (19_field_power.md). -/
def RAMP_DVDT : Fld := ⟨0x058, 16, 16, .stg, 10⟩
def RAMP_MAX_MS : Fld := ⟨0x058, 0, 16, .stg, 200⟩
/- ZONE 0x05C RAMP_E (19_field_power.md). -/
def RAMP_E_MJ : Fld := ⟨0x05C, 0, 16, .stg, 5000⟩
/- ZONE 0x060 VLIM (19_field_power.md). -/
def VLIM_OV : Fld := ⟨0x060, 16, 16, .stg, 60500⟩
def VLIM_UV : Fld := ⟨0x060, 0, 16, .stg, 16500⟩
/- ZONE 0x064 RETRY (19_field_power.md). -/
def RETRY_COUNT : Fld := ⟨0x064, 28, 4, .stg, 3⟩
def RETRY_BACKOFF : Fld := ⟨0x064, 16, 12, .stg, 100⟩
def RETRY_CLR : Fld := ⟨0x064, 8, 8, .stg, 10⟩
/- ZONE 0x068 DAMAGE (19_field_power.md). -/
def DAMAGE_OFF_T : Fld := ⟨0x068, 16, 16, .stg, 500⟩
def DAMAGE_GATE_T : Fld := ⟨0x068, 0, 16, .stg, 1000⟩
/- ZONE 0x06C OFS_THR (19_field_power.md). -/
def OFS_THR_THR : Fld := ⟨0x06C, 0, 16, .stg, 100⟩
/- ZONE 0x080 STAT (19_field_power.md). -/
def STAT_STATE : Fld := ⟨0x080, 29, 3, .ro, 0⟩
def STAT_RETRY_CNT : Fld := ⟨0x080, 25, 4, .ro, 0⟩
def STAT_PROBE : Fld := ⟨0x080, 24, 1, .ro, 0⟩
def STAT_RECOVERY : Fld := ⟨0x080, 23, 1, .ro, 0⟩
def STAT_PGOOD : Fld := ⟨0x080, 22, 1, .ro, 0⟩
def STAT_REVERSE : Fld := ⟨0x080, 21, 1, .ro, 0⟩
def STAT_VIN_UV : Fld := ⟨0x080, 20, 1, .ro, 0⟩
def STAT_VIN_OV : Fld := ⟨0x080, 19, 1, .ro, 0⟩
def STAT_DMG_GATE : Fld := ⟨0x080, 18, 1, .ro, 0⟩
def STAT_DMG_OUT : Fld := ⟨0x080, 17, 1, .ro, 0⟩
def STAT_OFS_DRIFT : Fld := ⟨0x080, 16, 1, .w1c, 0⟩
def STAT_WAIT_MS : Fld := ⟨0x080, 0, 16, .ro, 0⟩
/- ZONE 0x084 IMEAS (19_field_power.md). -/
def IMEAS_MA : Fld := ⟨0x084, 0, 32, .ro, 0⟩
/- ZONE 0x088 VOUT (19_field_power.md). -/
def VOUT_MV : Fld := ⟨0x088, 0, 16, .ro, 0⟩
/- ZONE 0x08C VIN (19_field_power.md). -/
def VIN_MV : Fld := ⟨0x08C, 0, 16, .ro, 0⟩
/- ZONE 0x090 PWR (19_field_power.md). -/
def PWR_MW : Fld := ⟨0x090, 0, 32, .ro, 0⟩
/- ZONE 0x094 ENERGY_LO (19_field_power.md). -/
def ENERGY_LO_UJ : Fld := ⟨0x094, 0, 32, .ro, 0⟩
/- ZONE 0x098 ENERGY_HI (19_field_power.md). -/
def ENERGY_HI_UJ : Fld := ⟨0x098, 0, 32, .ro, 0⟩
/- ZONE 0x09C IPEAK (19_field_power.md). -/
def IPEAK_MA : Fld := ⟨0x09C, 0, 32, .rc, 0⟩
/- ZONE 0x0A0 TRIP_INFO (19_field_power.md). -/
def TRIP_INFO_CAUSE : Fld := ⟨0x0A0, 28, 4, .ro, 0⟩
/- ZONE 0x0A4 TRIP_I (19_field_power.md). -/
def TRIP_I_MA : Fld := ⟨0x0A4, 0, 32, .ro, 0⟩
/- ZONE 0x0A8 ZERO (19_field_power.md). -/
def ZERO_HOT : Fld := ⟨0x0A8, 16, 16, .ro, 0⟩
def ZERO_COLD : Fld := ⟨0x0A8, 0, 16, .ro, 0⟩
/- ZONE 0x0B0 FAST_TRIPS (19_field_power.md). -/
def FAST_TRIPS_COUNT : Fld := ⟨0x0B0, 0, 32, .rc, 0⟩
/- ZONE 0x0B4 SLOW_TRIPS (19_field_power.md). -/
def SLOW_TRIPS_COUNT : Fld := ⟨0x0B4, 0, 32, .rc, 0⟩
/- ZONE 0x0B8 RAMP_FAILS (19_field_power.md). -/
def RAMP_FAILS_COUNT : Fld := ⟨0x0B8, 0, 32, .rc, 0⟩
/- ZONE 0x0BC RETRIES (19_field_power.md). -/
def RETRIES_COUNT : Fld := ⟨0x0BC, 0, 32, .rc, 0⟩
/- ZONE 0x0C0 HOTPLUGS (19_field_power.md). -/
def HOTPLUGS_COUNT : Fld := ⟨0x0C0, 0, 32, .rc, 0⟩
/- ZONE 0x0C4 LATCHES (19_field_power.md). -/
def LATCHES_COUNT : Fld := ⟨0x0C4, 0, 32, .rc, 0⟩
/- ZONE 0x400 IFAST (19_field_power.md). -/
def IFAST_USE : Fld := ⟨0x400, 31, 1, .stg, 0⟩
def IFAST_UV : Fld := ⟨0x400, 0, 16, .stg, 0⟩
/- ZONE 0x404 CAL (19_field_power.md). -/
def CAL_USE : Fld := ⟨0x404, 31, 1, .stg, 0⟩
def CAL_GAIN : Fld := ⟨0x404, 16, 15, .stg, 0⟩
def CAL_OFS : Fld := ⟨0x404, 0, 16, .stg, 0⟩
/- ZONE 0x408 GATE (19_field_power.md). -/
def GATE_USE : Fld := ⟨0x408, 31, 1, .stg, 0⟩
def GATE_VGS_FULL : Fld := ⟨0x408, 8, 8, .stg, 0⟩
def GATE_VGS_RISE : Fld := ⟨0x408, 0, 8, .stg, 0⟩
def table0 : List Fld :=
  [CMD_ON] ++
  [CTL_EN_CLR, CTL_UNLATCH] ++
  [CFG_DMG_CHK, CFG_SAFE_ACT, CFG_HOTPLUG] ++
  [SHUNT_RTH, SHUNT_RSHUNT] ++
  [SHUNT_TC_TAU, SHUNT_TC_TCR] ++
  [ILIM_TRIP_T, ILIM_MA] ++
  [RAMP_DVDT, RAMP_MAX_MS] ++
  [RAMP_E_MJ] ++
  [VLIM_OV, VLIM_UV] ++
  [RETRY_COUNT, RETRY_BACKOFF, RETRY_CLR] ++
  [DAMAGE_OFF_T, DAMAGE_GATE_T] ++
  [OFS_THR_THR] ++
  [STAT_STATE, STAT_RETRY_CNT, STAT_PROBE, STAT_RECOVERY, STAT_PGOOD, STAT_REVERSE, STAT_VIN_UV, STAT_VIN_OV, STAT_DMG_GATE, STAT_DMG_OUT, STAT_OFS_DRIFT, STAT_WAIT_MS] ++
  [IMEAS_MA] ++
  [VOUT_MV] ++
  [VIN_MV] ++
  [PWR_MW] ++
  [ENERGY_LO_UJ] ++
  [ENERGY_HI_UJ] ++
  [IPEAK_MA]
def table1 : List Fld :=
  [TRIP_INFO_CAUSE] ++
  [TRIP_I_MA] ++
  [ZERO_HOT, ZERO_COLD] ++
  [FAST_TRIPS_COUNT] ++
  [SLOW_TRIPS_COUNT] ++
  [RAMP_FAILS_COUNT] ++
  [RETRIES_COUNT] ++
  [HOTPLUGS_COUNT] ++
  [LATCHES_COUNT] ++
  [IFAST_USE, IFAST_UV] ++
  [CAL_USE, CAL_GAIN, CAL_OFS] ++
  [GATE_USE, GATE_VGS_FULL, GATE_VGS_RISE]
/-- Every field of the page's own registers. -/
def table : List Fld := table0 ++ table1
end ZONE

namespace FLT
/- FLT 0x040 CFG (20_faults.md). -/
def CFG_REPEAT_CLR : Fld := ⟨0x040, 8, 16, .stg, 3600⟩
def CFG_REPEAT_LIM : Fld := ⟨0x040, 0, 4, .stg, 3⟩
/- FLT 0x044 STAT (20_faults.md). -/
def STAT_ESCALATED : Fld := ⟨0x044, 31, 1, .stk, 0⟩
def STAT_UNITS : Fld := ⟨0x044, 16, 8, .ro, 0⟩
def STAT_QUEUE : Fld := ⟨0x044, 0, 6, .ro, 0⟩
/- FLT 0x048 RELEASE (20_faults.md). -/
def RELEASE_KEY : Fld := ⟨0x048, 16, 16, .wo, 0⟩
def RELEASE_PAGE : Fld := ⟨0x048, 0, 12, .wo, 0⟩
/- FLT 0x04C REL_STAT (20_faults.md). -/
def REL_STAT_RESULT : Fld := ⟨0x04C, 28, 4, .ro, 0⟩
def REL_STAT_PAGE : Fld := ⟨0x04C, 0, 12, .ro, 0⟩
/- FLT 0x050 LAST_FENCE (20_faults.md). -/
def LAST_FENCE_SRC : Fld := ⟨0x050, 28, 4, .ro, 0⟩
def LAST_FENCE_PAGE : Fld := ⟨0x050, 0, 12, .ro, 0⟩
/- FLT 0x054 CNT_CORR (20_faults.md). -/
def CNT_CORR_COUNT : Fld := ⟨0x054, 0, 32, .rc, 0⟩
/- FLT 0x058 CNT_FENCE (20_faults.md). -/
def CNT_FENCE_COUNT : Fld := ⟨0x058, 0, 32, .rc, 0⟩
/- FLT 0x05C CNT_REL (20_faults.md). -/
def CNT_REL_COUNT : Fld := ⟨0x05C, 0, 32, .rc, 0⟩
/- FLT 0x060 UNIT_SEL (20_faults.md). -/
def UNIT_SEL_PAGE : Fld := ⟨0x060, 0, 12, .rw, 0⟩
/- FLT 0x064 UNIT_STAT (20_faults.md). -/
def UNIT_STAT_FENCED : Fld := ⟨0x064, 31, 1, .ro, 0⟩
def UNIT_STAT_QUEUED : Fld := ⟨0x064, 30, 1, .ro, 0⟩
def UNIT_STAT_COUNT : Fld := ⟨0x064, 24, 4, .ro, 0⟩
def UNIT_STAT_CLR_S : Fld := ⟨0x064, 0, 16, .ro, 0⟩
/- FLT 0x080–0x0AC SUM[0]–SUM[11] (20_faults.md). -/
def SUM_PAGES (i : Nat) : Fld := ⟨0x080 + 4 * i, 0, 32, .ro, 0⟩
/- FLT 0x0C0–0x0EC FENCED[0]–FENCED[11] (20_faults.md). -/
def FENCED_PAGES (i : Nat) : Fld := ⟨0x0C0 + 4 * i, 0, 32, .ro, 0⟩
def table0 : List Fld :=
  [CFG_REPEAT_CLR, CFG_REPEAT_LIM] ++
  [STAT_ESCALATED, STAT_UNITS, STAT_QUEUE] ++
  [RELEASE_KEY, RELEASE_PAGE] ++
  [REL_STAT_RESULT, REL_STAT_PAGE] ++
  [LAST_FENCE_SRC, LAST_FENCE_PAGE] ++
  [CNT_CORR_COUNT] ++
  [CNT_FENCE_COUNT] ++
  [CNT_REL_COUNT] ++
  [UNIT_SEL_PAGE] ++
  [UNIT_STAT_FENCED, UNIT_STAT_QUEUED, UNIT_STAT_COUNT, UNIT_STAT_CLR_S] ++
  (List.range 12).flatMap (fun i => [SUM_PAGES i]) ++
  (List.range 12).flatMap (fun i => [FENCED_PAGES i])
/-- Every field of the page's own registers. -/
def table : List Fld := table0
end FLT

namespace THERM
/- THERM 0x040 CFG (20_faults.md). -/
def CFG_WARN_C : Fld := ⟨0x040, 24, 8, .stg, 110⟩
def CFG_STEP_MS : Fld := ⟨0x040, 8, 16, .stg, 20⟩
def CFG_HYST : Fld := ⟨0x040, 0, 8, .stg, 5⟩
/- THERM 0x044 STAT (20_faults.md). -/
def STAT_BULK_SHED : Fld := ⟨0x044, 31, 1, .ro, 0⟩
def STAT_SENSE_FENCED : Fld := ⟨0x044, 30, 1, .ro, 0⟩
def STAT_LEVEL : Fld := ⟨0x044, 24, 4, .ro, 0⟩
def STAT_IN_USE : Fld := ⟨0x044, 20, 4, .ro, 15⟩
def STAT_TJ : Fld := ⟨0x044, 0, 16, .ro, 0⟩
/- THERM 0x048 TJ_MAX (20_faults.md). -/
def TJ_MAX_TJ : Fld := ⟨0x048, 0, 16, .rc, 0⟩
/- THERM 0x04C–0x058 SENSOR[0]–SENSOR[3] (20_faults.md). -/
def SENSOR_T (i : Nat) : Fld := ⟨0x04C + 4 * i, 0, 16, .ro, 0⟩
/- THERM 0x060 BULK_MS (20_faults.md). -/
def BULK_MS_COUNT : Fld := ⟨0x060, 0, 32, .rc, 0⟩
/- THERM 0x064 BANK_MS (20_faults.md). -/
def BANK_MS_COUNT : Fld := ⟨0x064, 0, 32, .rc, 0⟩
/- THERM 0x400 TRIP (20_faults.md). -/
def TRIP_USE : Fld := ⟨0x400, 31, 1, .stg, 0⟩
def TRIP_BULK_C : Fld := ⟨0x400, 8, 8, .stg, 0⟩
def TRIP_BANK_C : Fld := ⟨0x400, 0, 8, .stg, 0⟩
def table0 : List Fld :=
  [CFG_WARN_C, CFG_STEP_MS, CFG_HYST] ++
  [STAT_BULK_SHED, STAT_SENSE_FENCED, STAT_LEVEL, STAT_IN_USE, STAT_TJ] ++
  [TJ_MAX_TJ] ++
  (List.range 4).flatMap (fun i => [SENSOR_T i]) ++
  [BULK_MS_COUNT] ++
  [BANK_MS_COUNT] ++
  [TRIP_USE, TRIP_BULK_C, TRIP_BANK_C]
/-- Every field of the page's own registers. -/
def table : List Fld := table0
end THERM

namespace STW
/- STW 0x040 STAT (21_steward_security.md). -/
def STAT_CORE : Fld := ⟨0x040, 30, 2, .ro, 0⟩
def STAT_READY : Fld := ⟨0x040, 29, 1, .ro, 0⟩
def STAT_ANX_STATE : Fld := ⟨0x040, 27, 2, .ro, 0⟩
def STAT_ANX_CAUSE : Fld := ⟨0x040, 24, 3, .ro, 0⟩
def STAT_COP_BUSY : Fld := ⟨0x040, 23, 1, .ro, 0⟩
def STAT_KEYS : Fld := ⟨0x040, 0, 8, .ro, 0⟩
/- STW 0x044 READY (21_steward_security.md). -/
def READY_KEY : Fld := ⟨0x044, 16, 16, .wo, 0⟩
/- STW 0x048 FW_VER (21_steward_security.md). -/
def FW_VER_VER : Fld := ⟨0x048, 0, 32, .rw, 0⟩
/- STW 0x04C WDOG (21_steward_security.md). -/
def WDOG_S_MS : Fld := ⟨0x04C, 16, 16, .rw, 2000⟩
def WDOG_A_MS : Fld := ⟨0x04C, 0, 16, .rw, 0⟩
/- STW 0x050 WDOG_KICK (21_steward_security.md). -/
def WDOG_KICK_KEY : Fld := ⟨0x050, 16, 16, .wo, 0⟩
/- STW 0x054 ANX_CTL (21_steward_security.md). -/
def ANX_CTL_UNLOAD : Fld := ⟨0x054, 2, 1, .wo, 0⟩
def ANX_CTL_STOP : Fld := ⟨0x054, 1, 1, .wo, 0⟩
def ANX_CTL_START : Fld := ⟨0x054, 0, 1, .wo, 0⟩
/- STW 0x058 DRAM_WIN (21_steward_security.md). -/
def DRAM_WIN_ANX : Fld := ⟨0x058, 31, 1, .rw, 0⟩
def DRAM_WIN_BASE : Fld := ⟨0x058, 0, 3, .rw, 0⟩
/- STW 0x060 + 4 × a RWIN[a] (21_steward_security.md). -/
def RWIN_EN (i : Nat) : Fld := ⟨0x060 + 4 * i, 31, 1, .rw, 0⟩
def RWIN_ANX (i : Nat) : Fld := ⟨0x060 + 4 * i, 30, 1, .rw, 0⟩
def RWIN_CLS (i : Nat) : Fld := ⟨0x060 + 4 * i, 29, 1, .rw, 0⟩
def RWIN_NODE (i : Nat) : Fld := ⟨0x060 + 4 * i, 17, 12, .rw, 0⟩
def RWIN_BASE (i : Nat) : Fld := ⟨0x060 + 4 * i, 0, 12, .rw, 0⟩
/- STW 0x0A0–0x0CC ANX_PAGES[0]–ANX_PAGES[11] (21_steward_security.md). -/
def ANX_PAGES_PAGES (i : Nat) : Fld := ⟨0x0A0 + 4 * i, 0, 32, .rw, 0⟩
/- STW 0x0D0 ANX_IRQ_LO (21_steward_security.md). -/
def ANX_IRQ_LO_INPUTS : Fld := ⟨0x0D0, 0, 32, .rw, 0⟩
/- STW 0x0D4 ANX_IRQ_HI (21_steward_security.md). -/
def ANX_IRQ_HI_INPUTS : Fld := ⟨0x0D4, 0, 32, .rw, 2⟩
/- STW 0x0D8–0x0E4 IRQ_SEL[0]–IRQ_SEL[3] (21_steward_security.md). -/
def IRQ_SEL_EN (i : Nat) : Fld := ⟨0x0D8 + 4 * i, 31, 1, .rw, 0⟩
def IRQ_SEL_PAGE (i : Nat) : Fld := ⟨0x0D8 + 4 * i, 0, 12, .rw, 0⟩
/- STW 0x0E8 ERR (21_steward_security.md). -/
def ERR_WORLD : Fld := ⟨0x0E8, 28, 4, .ro, 0⟩
def ERR_NODE : Fld := ⟨0x0E8, 16, 12, .ro, 0⟩
def ERR_STATUS : Fld := ⟨0x0E8, 8, 8, .ro, 0⟩
/- STW 0x0F0 MSG_DROP (21_steward_security.md). -/
def MSG_DROP_COUNT : Fld := ⟨0x0F0, 0, 32, .rc, 0⟩
/- STW 0x0F4 ETH_DISCARD (21_steward_security.md). -/
def ETH_DISCARD_COUNT : Fld := ⟨0x0F4, 0, 32, .rc, 0⟩
/- STW 0x0F8 BAD_KICK (21_steward_security.md). -/
def BAD_KICK_COUNT : Fld := ⟨0x0F8, 0, 32, .rc, 0⟩
/- STW 0x0FC SVC_CALLS (21_steward_security.md). -/
def SVC_CALLS_COUNT : Fld := ⟨0x0FC, 0, 32, .rc, 0⟩
def table0 : List Fld :=
  [STAT_CORE, STAT_READY, STAT_ANX_STATE, STAT_ANX_CAUSE, STAT_COP_BUSY, STAT_KEYS] ++
  [READY_KEY] ++
  [FW_VER_VER] ++
  [WDOG_S_MS, WDOG_A_MS] ++
  [WDOG_KICK_KEY] ++
  [ANX_CTL_UNLOAD, ANX_CTL_STOP, ANX_CTL_START] ++
  [DRAM_WIN_ANX, DRAM_WIN_BASE] ++
  (List.range 16).flatMap (fun i => [RWIN_EN i, RWIN_ANX i, RWIN_CLS i, RWIN_NODE i, RWIN_BASE i]) ++
  (List.range 12).flatMap (fun i => [ANX_PAGES_PAGES i]) ++
  [ANX_IRQ_LO_INPUTS] ++
  [ANX_IRQ_HI_INPUTS] ++
  (List.range 4).flatMap (fun i => [IRQ_SEL_EN i, IRQ_SEL_PAGE i]) ++
  [ERR_WORLD, ERR_NODE, ERR_STATUS] ++
  [MSG_DROP_COUNT] ++
  [ETH_DISCARD_COUNT] ++
  [BAD_KICK_COUNT] ++
  [SVC_CALLS_COUNT]
/-- Every field of the page's own registers. -/
def table : List Fld := table0
end STW

namespace LC
/- LC 0x040 STATE (21_steward_security.md). -/
def STATE_STATE : Fld := ⟨0x040, 28, 4, .ro, 0⟩
def STATE_DEPLOY : Fld := ⟨0x040, 26, 2, .ro, 0⟩
def STATE_TORN : Fld := ⟨0x040, 25, 1, .ro, 0⟩
def STATE_DEBUG_OPEN : Fld := ⟨0x040, 24, 1, .ro, 0⟩
/- LC 0x044 TRANS (21_steward_security.md). -/
def TRANS_KEY : Fld := ⟨0x044, 16, 16, .wo, 0⟩
def TRANS_TARGET : Fld := ⟨0x044, 0, 4, .wo, 0⟩
/- LC 0x048 TRANS_STAT (21_steward_security.md). -/
def TRANS_STAT_RESULT : Fld := ⟨0x048, 28, 4, .ro, 0⟩
def TRANS_STAT_TARGET : Fld := ⟨0x048, 24, 4, .ro, 0⟩
/- LC 0x04C–0x058 UID[0]–UID[3] (21_steward_security.md). -/
def UID_UID (i : Nat) : Fld := ⟨0x04C + 4 * i, 0, 32, .ro, 0⟩
/- LC 0x05C HWTYPE (21_steward_security.md). -/
def HWTYPE_WORD : Fld := ⟨0x05C, 0, 32, .ro, 0⟩
/- LC 0x060 KEYSLOT (21_steward_security.md). -/
def KEYSLOT_REVOKED : Fld := ⟨0x060, 4, 4, .ro, 0⟩
def KEYSLOT_PROG : Fld := ⟨0x060, 0, 4, .ro, 0⟩
/- LC 0x064 ROLLBACK (21_steward_security.md). -/
def ROLLBACK_COUNT : Fld := ⟨0x064, 0, 9, .ro, 0⟩
/- LC 0x068 OTP_SEL (21_steward_security.md). -/
def OTP_SEL_WORD : Fld := ⟨0x068, 0, 8, .rw, 0⟩
/- LC 0x06C OTP_DATA (21_steward_security.md). -/
def OTP_DATA_DATA : Fld := ⟨0x06C, 0, 32, .ro, 0⟩
/- LC 0x070 OTP_WDATA (21_steward_security.md). -/
def OTP_WDATA_DATA : Fld := ⟨0x070, 0, 32, .rw, 0⟩
/- LC 0x074 OTP_PROG (21_steward_security.md). -/
def OTP_PROG_KEY : Fld := ⟨0x074, 16, 16, .wo, 0⟩
/- LC 0x078 OTP_STAT (21_steward_security.md). -/
def OTP_STAT_BUSY : Fld := ⟨0x078, 31, 1, .ro, 0⟩
def OTP_STAT_RESULT : Fld := ⟨0x078, 28, 3, .ro, 0⟩
def table0 : List Fld :=
  [STATE_STATE, STATE_DEPLOY, STATE_TORN, STATE_DEBUG_OPEN] ++
  [TRANS_KEY, TRANS_TARGET] ++
  [TRANS_STAT_RESULT, TRANS_STAT_TARGET] ++
  (List.range 4).flatMap (fun i => [UID_UID i]) ++
  [HWTYPE_WORD] ++
  [KEYSLOT_REVOKED, KEYSLOT_PROG] ++
  [ROLLBACK_COUNT] ++
  [OTP_SEL_WORD] ++
  [OTP_DATA_DATA] ++
  [OTP_WDATA_DATA] ++
  [OTP_PROG_KEY] ++
  [OTP_STAT_BUSY, OTP_STAT_RESULT]
/-- Every field of the page's own registers. -/
def table : List Fld := table0
end LC

namespace UPD
/- UPD 0x040 CFG (22_boot_update.md). -/
def CFG_AUTO_CONFIRM : Fld := ⟨0x040, 31, 1, .stg, 0⟩
def CFG_CONFIRM_S : Fld := ⟨0x040, 0, 16, .stg, 60⟩
/- UPD 0x044 STAT (22_boot_update.md). -/
def STAT_ACTIVE : Fld := ⟨0x044, 31, 1, .ro, 0⟩
def STAT_CELLAR_NEXT : Fld := ⟨0x044, 30, 1, .ro, 0⟩
def STAT_STATE_A : Fld := ⟨0x044, 28, 2, .ro, 0⟩
def STAT_STATE_B : Fld := ⟨0x044, 26, 2, .ro, 0⟩
def STAT_TRIES : Fld := ⟨0x044, 24, 2, .ro, 0⟩
def STAT_REVERTED : Fld := ⟨0x044, 23, 1, .ro, 0⟩
def STAT_BUSY : Fld := ⟨0x044, 22, 1, .ro, 0⟩
def STAT_LAND_STATE : Fld := ⟨0x044, 19, 3, .ro, 0⟩
def STAT_FLASH_LOG2 : Fld := ⟨0x044, 8, 5, .ro, 0⟩
/- UPD 0x048 BOOT_SEQ (22_boot_update.md). -/
def BOOT_SEQ_SEQ : Fld := ⟨0x048, 0, 32, .ro, 0⟩
/- UPD 0x04C VER_A (22_boot_update.md). -/
def VER_A_VER : Fld := ⟨0x04C, 0, 32, .ro, 0⟩
/- UPD 0x050 VER_B (22_boot_update.md). -/
def VER_B_VER : Fld := ⟨0x050, 0, 32, .ro, 0⟩
/- UPD 0x054 SECVER (22_boot_update.md). -/
def SECVER_SEC_A : Fld := ⟨0x054, 16, 9, .ro, 0⟩
def SECVER_SEC_B : Fld := ⟨0x054, 0, 9, .ro, 0⟩
/- UPD 0x058 LAND_LEN (22_boot_update.md). -/
def LAND_LEN_BLOCKS : Fld := ⟨0x058, 0, 16, .ro, 0⟩
/- UPD 0x05C LAND_RX (22_boot_update.md). -/
def LAND_RX_BYTES : Fld := ⟨0x05C, 0, 32, .ro, 0⟩
/- UPD 0x060 LAND_OWNER (22_boot_update.md). -/
def LAND_OWNER_REQ : Fld := ⟨0x060, 0, 4, .ro, 15⟩
/- UPD 0x064 LAST (22_boot_update.md). -/
def LAST_SERVICE : Fld := ⟨0x064, 16, 16, .ro, 0⟩
def LAST_RC : Fld := ⟨0x064, 0, 16, .ro, 0⟩
/- UPD 0x068 BOOT_INFO (22_boot_update.md). -/
def BOOT_INFO_KIND : Fld := ⟨0x068, 28, 4, .ro, 0⟩
def BOOT_INFO_MS : Fld := ⟨0x068, 0, 16, .ro, 0⟩
/- UPD 0x06C CFG_ERR (22_boot_update.md). -/
def CFG_ERR_RC : Fld := ⟨0x06C, 16, 16, .ro, 0⟩
def CFG_ERR_RECORD : Fld := ⟨0x06C, 0, 16, .ro, 0⟩
/- UPD 0x070 FLASH_ERR (22_boot_update.md). -/
def FLASH_ERR_COUNT : Fld := ⟨0x070, 0, 32, .rc, 0⟩
/- UPD 0x074 BLK_ERR (22_boot_update.md). -/
def BLK_ERR_COUNT : Fld := ⟨0x074, 0, 32, .rc, 0⟩
def table0 : List Fld :=
  [CFG_AUTO_CONFIRM, CFG_CONFIRM_S] ++
  [STAT_ACTIVE, STAT_CELLAR_NEXT, STAT_STATE_A, STAT_STATE_B, STAT_TRIES, STAT_REVERTED, STAT_BUSY, STAT_LAND_STATE, STAT_FLASH_LOG2] ++
  [BOOT_SEQ_SEQ] ++
  [VER_A_VER] ++
  [VER_B_VER] ++
  [SECVER_SEC_A, SECVER_SEC_B] ++
  [LAND_LEN_BLOCKS] ++
  [LAND_RX_BYTES] ++
  [LAND_OWNER_REQ] ++
  [LAST_SERVICE, LAST_RC] ++
  [BOOT_INFO_KIND, BOOT_INFO_MS] ++
  [CFG_ERR_RC, CFG_ERR_RECORD] ++
  [FLASH_ERR_COUNT] ++
  [BLK_ERR_COUNT]
/-- Every field of the page's own registers. -/
def table : List Fld := table0
end UPD

namespace BIST
/- BIST 0x040 SEL (23_self_test.md). -/
def SEL_BOOT : Fld := ⟨0x040, 8, 1, .rw, 0⟩
def SEL_ITEMS : Fld := ⟨0x040, 0, 4, .rw, 15⟩
/- BIST 0x044 STAT (23_self_test.md). -/
def STAT_STATE : Fld := ⟨0x044, 29, 3, .ro, 0⟩
def STAT_ITEM : Fld := ⟨0x044, 26, 3, .ro, 0⟩
def STAT_ELAPSED : Fld := ⟨0x044, 0, 16, .ro, 0⟩
/- BIST 0x048 RESULT (23_self_test.md). -/
def RESULT_DONE : Fld := ⟨0x048, 31, 1, .ro, 0⟩
def RESULT_PASS : Fld := ⟨0x048, 30, 1, .ro, 0⟩
def RESULT_FULL : Fld := ⟨0x048, 29, 1, .ro, 0⟩
def RESULT_RAN : Fld := ⟨0x048, 25, 4, .ro, 0⟩
def RESULT_FAILED : Fld := ⟨0x048, 21, 4, .ro, 0⟩
def RESULT_LC : Fld := ⟨0x048, 18, 3, .ro, 0⟩
def RESULT_DEPLOY : Fld := ⟨0x048, 16, 2, .ro, 0⟩
def RESULT_MS : Fld := ⟨0x048, 0, 16, .ro, 0⟩
/- BIST 0x04C FAIL (23_self_test.md). -/
def FAIL_ITEM : Fld := ⟨0x04C, 28, 4, .ro, 0⟩
def FAIL_PAGE : Fld := ⟨0x04C, 16, 12, .ro, 0⟩
def FAIL_DETAIL : Fld := ⟨0x04C, 0, 16, .ro, 0⟩
/- BIST 0x050 SKIP (23_self_test.md). -/
def SKIP_BANKS : Fld := ⟨0x050, 16, 16, .ro, 0⟩
def SKIP_ZONES : Fld := ⟨0x050, 12, 4, .ro, 0⟩
/- BIST 0x054 POT (23_self_test.md). -/
def POT_RAN : Fld := ⟨0x054, 31, 1, .ro, 0⟩
def POT_PASS : Fld := ⟨0x054, 30, 1, .ro, 0⟩
def POT_US : Fld := ⟨0x054, 0, 16, .ro, 0⟩
/- BIST 0x058 POT_FAIL (23_self_test.md). -/
def POT_FAIL_PAGE : Fld := ⟨0x058, 16, 12, .ro, 0⟩
def POT_FAIL_WORDS : Fld := ⟨0x058, 0, 16, .ro, 0⟩
/- BIST 0x05C UNIT (23_self_test.md). -/
def UNIT_BUSY : Fld := ⟨0x05C, 31, 1, .ro, 0⟩
def UNIT_DONE : Fld := ⟨0x05C, 30, 1, .ro, 0⟩
def UNIT_PASS : Fld := ⟨0x05C, 29, 1, .ro, 0⟩
def UNIT_ABORTED : Fld := ⟨0x05C, 28, 1, .ro, 0⟩
def UNIT_ITEMS : Fld := ⟨0x05C, 24, 4, .ro, 0⟩
def UNIT_FAILED : Fld := ⟨0x05C, 20, 4, .ro, 0⟩
def UNIT_PAGE : Fld := ⟨0x05C, 0, 12, .ro, 0⟩
/- BIST 0x060 UNIT_FAIL (23_self_test.md). -/
def UNIT_FAIL_ITEM : Fld := ⟨0x060, 28, 4, .ro, 0⟩
def UNIT_FAIL_PAGE : Fld := ⟨0x060, 16, 12, .ro, 0⟩
def UNIT_FAIL_DETAIL : Fld := ⟨0x060, 0, 16, .ro, 0⟩
/- BIST 0x064 RUNS (23_self_test.md). -/
def RUNS_COUNT : Fld := ⟨0x064, 0, 32, .rc, 0⟩
def table0 : List Fld :=
  [SEL_BOOT, SEL_ITEMS] ++
  [STAT_STATE, STAT_ITEM, STAT_ELAPSED] ++
  [RESULT_DONE, RESULT_PASS, RESULT_FULL, RESULT_RAN, RESULT_FAILED, RESULT_LC, RESULT_DEPLOY, RESULT_MS] ++
  [FAIL_ITEM, FAIL_PAGE, FAIL_DETAIL] ++
  [SKIP_BANKS, SKIP_ZONES] ++
  [POT_RAN, POT_PASS, POT_US] ++
  [POT_FAIL_PAGE, POT_FAIL_WORDS] ++
  [UNIT_BUSY, UNIT_DONE, UNIT_PASS, UNIT_ABORTED, UNIT_ITEMS, UNIT_FAILED, UNIT_PAGE] ++
  [UNIT_FAIL_ITEM, UNIT_FAIL_PAGE, UNIT_FAIL_DETAIL] ++
  [RUNS_COUNT]
/-- Every field of the page's own registers. -/
def table : List Fld := table0
end BIST

end Sys2Proof.Machine.Reg

namespace Sys2Proof.Machine

/-- The fields of a page group's own registers. -/
def blockTable : Kind → List Fld
  | .sys => Reg.SYS.table
  | .lc => Reg.LC.table
  | .stw => Reg.STW.table
  | .upd => Reg.UPD.table
  | .bist => Reg.BIST.table
  | .flt => Reg.FLT.table
  | .therm => Reg.THERM.table
  | .mbx => Reg.MBX.table
  | .host => Reg.HOST.table
  | .time => Reg.TIME.table
  | .topo => Reg.TOPO.table
  | .rport => Reg.RPORT.table
  | .atr => Reg.ATR.table
  | .brg => Reg.BRG.table
  | .sw => Reg.SW.table
  | .qos => Reg.QOS.table
  | .dram => Reg.DRAM.table
  | .eth => Reg.ETH.table
  | .trk => Reg.TRK.table
  | .ten => Reg.TEN.table
  | .zone => Reg.ZONE.table
  | .can => Reg.CAN.table
  | .bank => Reg.BANK.table
  | .uart => Reg.SER.table ++ Reg.UART.table
  | .spi => Reg.SER.table ++ Reg.SPI.table
  | .i2c => Reg.SER.table ++ Reg.I2C.table
  | .prs => Reg.PRS.table
  | .ch => Reg.CH.table

/-- The fields of every register of a page group, the common ones first (R35). -/
def fieldTable (k : Kind) : List Fld := Reg.PG.table ++ blockTable k

/-- The fields of the register at an offset of a page group; empty where no register lies. -/
def fieldsAt (k : Kind) (off : Nat) : List Fld := (fieldTable k).filter (fun f => f.off == off)

/-- The default fault classes of a page group, two bits a source (R38, R515 and the fault tables of the chapters): 0 corrected, 1 contained, 2 fatal. -/
def defaultClasses : Kind → Nat
  | .sys => 0xA
  | .lc => 0x8
  | .stw => 0x201
  | .upd => 0x0
  | .bist => 0x1
  | .flt => 0xA
  | .therm => 0x9
  | .mbx => 0x4
  | .host => 0x40
  | .time => 0x5
  | .topo => 0x40
  | .rport => 0x145
  | .atr => 0x140
  | .brg => 0x11
  | .sw => 0x10
  | .qos => 0x1
  | .dram => 0x11
  | .eth => 0x10
  | .trk => 0x100
  | .ten => 0x1
  | .zone => 0x440
  | .can => 0x100
  | .bank => 0x5
  | .uart => 0x0
  | .spi => 0x0
  | .i2c => 0x10
  | .prs => 0x110
  | .ch => 0x40

/-- The number of fault sources a page group has (R513, R515). -/
def sourceCount : Kind → Nat
  | .sys => 3
  | .lc => 2
  | .stw => 5
  | .upd => 2
  | .bist => 1
  | .flt => 2
  | .therm => 4
  | .mbx => 2
  | .host => 4
  | .time => 5
  | .topo => 4
  | .rport => 6
  | .atr => 5
  | .brg => 5
  | .sw => 5
  | .qos => 1
  | .dram => 3
  | .eth => 4
  | .trk => 5
  | .ten => 1
  | .zone => 6
  | .can => 5
  | .bank => 2
  | .uart => 3
  | .spi => 3
  | .i2c => 3
  | .prs => 5
  | .ch => 4

end Sys2Proof.Machine
end

