-- ==== Sys2Proof/Machine/State.lean ====
section
/-!
DEFINITION. The state of the hub: every register of the manual's tables in three sparse register files (fields that differ from
their reset value are listed), the blocks' own state that no register shows, and the queue of waiting commands.
Where the manual is open: DESIGN CHOICE, log entries 1, 2, 3, 30 and 50.
-/
namespace Sys2Proof.Machine

/-- The place of a register field: page number, offset in the page, lowest bit. -/
structure Key where
  page : Nat
  off : Nat
  lo : Nat
deriving DecidableEq, Repr

/-- A register file: the fields that differ from their reset values, in rising order of place. -/
abbrev RegFile := List (Key × Nat)

/-! ### What the hub sends out -/

/-- What a serial controller puts on its lines: a UART character as the levels of its start bit, data bits and parity bit in line order with the
length of its stop in half bits, a break of so many bit times, the level of a wake-up request, an SPI word as its levels in line order with
CPHA, or an I²C entry or slave byte. -/
inductive SerialOut where
  | char (levels : List Bool) (stop : Nat)
  | brk (bits : Nat)
  | wake (level : Bool)
  | word (cpha : Bool) (levels : List Bool)
  | bus (e : Nat)
deriving DecidableEq, Repr

/-- What a command makes the hub send out or drive (the model's own record of it). -/
inductive Out where
  /-- The completion of a register write: accepted or an error response (R32, R41). -/
  | resp (req : Req) (ok : Bool)
  /-- The data a read answers. -/
  | data (req : Req) (v : Nat)
  /-- A frame sent on a ring port, with its check (R127). -/
  | frame (port : Nat) (f : Frame) (c : Check)
  /-- A fragment of a Bulk frame sent on a ring port: its start delimiter, its header and payload bytes, and its check (R128). -/
  | fragment (port sd : Nat) (bytes : List Byte) (check : Nat)
  /-- A frame handed to the block that its type names, with its port of arrival (R152). -/
  | deliver (port : Nat) (f : Frame)
  /-- PWR_EN driven high or low (R100, R102). -/
  | pwrEn (b : Bool)
  /-- The outcome of an access that its requester waits for: a write or a read, its status under R261 and the data read. -/
  | done (o : Origin) (write : Bool) (status : Nat) (bytes : List Byte)
  /-- A frame whose sending begins on the local Ethernet port, from its destination address through its FCS (R446). -/
  | ether (bytes : List Byte)
  /-- An mPacket with a fragment of a Bulk frame on that port: its bytes, and whether they are the frame's first and last (R449). -/
  | mfragment (bytes : List Byte) (first last : Bool)
  /-- A write by DMA into host memory (R473, R476). -/
  | hostWrite (addr : Nat) (bytes : List Byte)
  /-- What the QSPI slave drives behind its wait bytes: the marker, the STATUS byte and the data, 0x00 in their place after an error (R470). -/
  | qspi (bytes : List Byte)
  /-- An MSI-X message sent (R478). -/
  | msix (vector : Nat)
  /-- What a serial controller begins to put on its lines. -/
  | serial (page : Nat) (x : SerialOut)
  /-- A Prism engine has shifted out the bits of a SHIFTO (R409). -/
  | shifted (engine v : Nat)
  /-- A CAN frame whose transmission begins on a controller (R434). -/
  | can (unit : Nat) (f : CanFrame)
  /-- A received Ethernet frame dispatched to the control path (1) or the Steward (2 for PTP, 3), with its receive stamp in eighths of a tick and
  the stamp's fall-back flag (R451, R456). -/
  | dispatch (row : Nat) (bytes : List Byte) (stamp : Nat) (fb : Bool)
  /-- An mPacket sent: a verify or a respond (R449). -/
  | mpacket (respond : Bool)
  /-- A management frame that starts on MDIO: the register's value (R461). -/
  | mdio (v : Nat)
  /-- The wake pattern's sending begins (R459). -/
  | wakePattern
  /-- A completion of a PCI Express configuration read, with its byte (R464). -/
  | config (off v : Nat)
  /-- The status word that a coprocessor instruction puts into rd (R549). -/
  | core (annex : Bool) (rd v : Nat)
  /-- The return of an ECALL: a0 and a1 (R540). -/
  | ecall (rc len : Nat)
deriving DecidableEq, Repr

/-! ### System state without a register (R51 to R113) -/

structure SysState where
  /-- The commit command that runs: 0 none, else its code of R52. -/
  commitCmd : Nat := 0
  /-- The mode when that command was written (R58). -/
  commitMode : Nat := 0
  /-- The seal matched when its validation ended (R58). -/
  commitSealed : Bool := false
  /-- The ring time of the last commit instant, which the epoch condition of R81 compares with. -/
  lastT : Nat := 0
  /-- The count C in eighths of a tick at the last commit instant: what began before it keeps the old configuration (R56). -/
  commit8 : Nat := 0
  /-- An epoch sampled at or after that instant has closed (R81). -/
  epochMet : Bool := false
  /-- The step of the start-up sequence of R103; 0 once the boot ROM has started. -/
  startup : Nat := 1
  /-- The 20 ms of step 3 have passed without a valid 25 MHz reference (R103). -/
  refLate : Bool := false
  /-- RST_N is held low. -/
  rstLow : Bool := false
  /-- The voltage of each bank's supply at its pins, in mV, as the monitor last saw it (R329). -/
  bankMv : Map Nat := []
  /-- The present Shelf was entered by request (R102). -/
  shelfByRequest : Bool := false
  /-- The wake events qualified since Shelf was entered, as bits of WAKE_CAUSE. -/
  wakeSeen : Nat := 0
  /-- What the last slots of the Ethernet wake detector read, the newest first, at most 20, since one that read neither 0 nor 1 (R458). -/
  slots : List Bool := []
  /-- The level of PWR_EN; the manual gives none for a power-on with VKA present, and it is low until Shelf is left (DESIGN CHOICE, log entry 3). -/
  pwrEn : Bool := false
  /-- A fatal fault recorded in Waking, which acts when Waking ends (R520). -/
  fatalWaiting : Option (Nat × Nat) := none
  /-- The clock count at which Safe-stop was entered, and at which SAFE_CAUSE was written (R525). -/
  safeAt : Option Nat := none
  causeAt : Option Nat := none
  /-- A corrected transition since the last sampling instant (R527). -/
  corrected : Bool := false
  /-- The gate groups whose ungating has not completed (R111). -/
  ungating : List Nat := []
  /-- The ring has been rejoined and an epoch sampled since then has closed (R89). -/
  rejoined : Bool := false
  /-- Fault sources whose conditions have arisen inside a command and are still to be judged (the model's own; empty between commands). -/
  due : List (Nat × Nat) := []
deriving DecidableEq, Repr

/-- The commands of one edge of the 500 MHz clock (R37, R69; the model's own). -/
structure EdgeState where
  /-- How many waiting commands belong to one edge, from the front of the queue on; where none is listed, a command has an edge of its own. -/
  groups : List Nat := []
  /-- Commands of the present edge still follow. -/
  more : Bool := false
  /-- The flags that the hardware has set on this edge: PG_IRQ_RAW by page, PG_FLT by 0x1000 and the page (R37, R525). -/
  risen : Map Nat := []
  /-- The change of mode that the edge makes, with its reason: the first of its conditions in the order of R69. -/
  want : Option (Mode × Nat) := none
deriving DecidableEq, Repr

/-! ### The fault collector and the temperature unit (R516 to R532) -/

structure FltState where
  /-- The fence requests, oldest first: page and source (R520). -/
  queue : List (Nat × Nat) := []
  /-- The fence count of each unit, by the unit's page (R521). -/
  counts : Map Nat := []
  /-- The clock count of each unit's last release, by the unit's page (R521). -/
  released : Map Nat := []
deriving DecidableEq, Repr

/-! ### Ring ports (R114 to R141) -/

/-- A frame waiting to be sent on a ring port, with its check and, in transit, the stamp of its reception (R127, R132). -/
structure TxItem where
  frame : Frame := {}
  check : Check := .good
  rx : Option Nat := none
  /-- The switch port it came from; 8 for the units that have none and for transit. -/
  ingress : Nat := 8
deriving DecidableEq, Repr

/-- The Bulk frame being received on a port: the bytes so far from header byte 0, the next fragment number (R129), the stamp of its first
/S/ (R132), and whether its header found the port UP, so that its transit decision has been taken (R632). -/
structure OpenRx where
  bytes : List Byte := []
  next : Nat := 1
  stamp : Nat := 0
  routed : Bool := true
deriving DecidableEq, Repr

/-- The Bulk frame being sent on a port: the bytes sent so far, the number of the fragment that follows (R128), the stamp of its first /S/ (R132),
and whether it lies in DRAM. -/
structure BulkTx where
  frame : Frame := {}
  sent : Nat := 0
  number : Nat := 0
  stamp : Nat := 0
  dram : Bool := false
deriving DecidableEq, Repr

/-- The neighbour-delay filter of a port (R177, R178); delays and stamps in 2^-16 tick. -/
structure PdState where
  values : List Int := []
  rejected : List Int := []
  /-- Values accepted since the port last entered UP. -/
  accepted : Nat := 0
  /-- The request that awaits its response: REQ_ID and t1. -/
  waiting : Option (Nat × Int) := none
  nextId : Nat := 0
deriving DecidableEq, Repr

structure PortState where
  /-- Consecutive valid HELLO frames in this HELLO state (R133). -/
  hellos : Nat := 0
  /-- The clock count at the last valid HELLO (R134); none if there was none. -/
  helloAt : Option Nat := none
  /-- The Bulk frame open for reception (R129). -/
  rxOpen : Option OpenRx := none
  /-- The Bulk frame in transmission (R128). -/
  txBulk : Option BulkTx := none
  /-- The frames waiting, by the precedence of R127. -/
  transitX : List TxItem := []
  ownX : List TxItem := []
  transitT : List TxItem := []
  ownT : List TxItem := []
  links : List TxItem := []
  /-- The dwell under AUTO as last drawn, in ms; none before the first full pass (R135). -/
  dwell : Option Nat := none
  /-- The present pass of the AUTO order began at its first rate and has not reached LOCKING (R135). -/
  pass : Bool := false
  /-- The elastic buffer overflowed or underflowed at this count of C, in eighths of a tick: the frame in progress then is still to come (R119). -/
  spoilAt : Option Nat := none
  /-- The 64-bit counters of R141. -/
  rxFrames : Nat := 0
  txFrames : Nat := 0
  rxBytes : Nat := 0
  txBytes : Nat := 0
  /-- The module's A0h and A2h pages (R139). -/
  a0 : Map Byte := []
  a2 : Map Byte := []
  /-- The SRC of the last keep-alive received on the port, and whether one has come since bring-up (R144, R149). -/
  peerSrc : Nat := 0
  peerKa : Bool := false
  /-- The last keep-alive of the peer showed LEAVING (R162). -/
  peerLeaving : Bool := false
  /-- The seed last received on the port: SEED_UID, SEED_HOPS and the clock count then (R145). -/
  seed : Option (Nat × Nat × Nat) := none
  /-- The seed last sent on the port (R148). -/
  sentSeed : Option (Nat × Nat) := none
  pd : PdState := {}
deriving DecidableEq, Repr

/-! ### The topology unit (R142 to R168) -/

/-- An entry of the member table (R151); HOPS_E and HOPS_W are none once expired. -/
structure Member where
  uid : Nat := 0
  inc : Nat := 0
  mode : Nat := 0
  fixed : Bool := false
  hopsE : Option Nat := none
  hopsW : Option Nat := none
deriving DecidableEq, Repr

/-- A break record (R158). -/
structure BreakRec where
  sender : Nat := 0
  hops : Nat := 0
  gen : Nat := 0
deriving DecidableEq, Repr

/-- A duplicate-discard window (R154): F, H and the gap records, each a start and a length, oldest first. -/
structure Window where
  first : Nat := 0
  high : Nat := 0
  gaps : List (Nat × Nat) := []
  /-- A gap record has been dropped since the window was last emptied (R273). -/
  dropped : Bool := false
deriving DecidableEq, Repr

/-- A HEAL received that awaits its T_h: sender, port named, generation, T_h (R162). -/
structure HealRec where
  sender : Nat := 0
  port : Nat := 0
  gen : Nat := 0
  at_ : Nat := 0
deriving DecidableEq, Repr

structure TopoState where
  members : Map Member := []
  recE : List BreakRec := []
  recW : List BreakRec := []
  /-- The windows by origin × 4 + class × 2 + port of arrival. -/
  windows : Map Window := []
  /-- The sequence counters of R153. -/
  seqX : Nat := 0
  seqT : Nat := 0
  genE : Nat := 0
  genW : Nat := 0
  /-- The T_h that each port of this node awaits (R162). -/
  healAt : Map Nat := []
  heals : List HealRec := []
  /-- This node is leaving (R163). -/
  leaving : Bool := false
  /-- Group membership (GROUPS window), byte by byte. -/
  groups : Map Byte := []
  /-- The last direction of each Bulk flow, the flows held after a change, and the clock count at a commit that holds every flow (R161, R309). -/
  flowDir : Map Nat := []
  heldFlows : List Nat := []
  heldAll : Option Nat := none
deriving DecidableEq, Repr

/-! ### Ring time (R169 to R195) -/

structure TimeState where
  /-- The counter C of R169, 64 bits. -/
  c : Nat := 0
  /-- OFF of R169, in units of 2^-32 tick. -/
  off : Int := 0
  /-- RATE of R169, 32.32. -/
  rate : Nat := 2 ^ 32
  /-- The fall-back count of R172, in units of 2^-24 nanosecond. -/
  fb : Nat := 0
  /-- The key of the master followed, PRIO and unit ID (R187). -/
  master : Option (Nat × Nat) := none
  /-- Consecutive accepted syncs below LOCK_THRESH, at or above STEP_THRESH, and above 1 µs (R183, R185). -/
  lockRun : Nat := 0
  stepRun : Nat := 0
  bigRun : Nat := 0
  /-- The clock count when the main path last left LOCKED or MASTER; none in those states and before them (R184). -/
  leftAt : Option Nat := none
  /-- HOLD_VALID has passed since then (R184). -/
  holdExpired : Bool := false
  /-- The integral term of the servo, as a rate (R183). -/
  rateInt : Nat := 2 ^ 32
  /-- The junction temperature as the stamps use it, THERM.STAT.TJ sampled every 1 ms (R175). -/
  tj : Nat := 0
  /-- The returns of this master's own syncs: the sum of M − T in 2^-16 tick and their number, East-going and West-going (R189). -/
  loopE : Int × Nat := (0, 0)
  loopW : Int × Nat := (0, 0)
deriving DecidableEq, Repr

/-! ### Tracks and channels (R198 to R229, R327 to R358) -/

/-- An accepted Track sample (R205); position in 2^-16 count, velocity and acceleration in 1/256 count. -/
structure Sample where
  ts : Nat := 0
  sub : Nat := 0
  pos : Nat := 0
  vel : Int := 0
  acc : Int := 0
  gen : Nat := 0
  number : Nat := 0
  rate : Nat := 0
  src : Nat := 0
deriving DecidableEq, Repr

/-- What binds an action to a Track (R211), and what its last conversion set (R214). -/
structure PosBind where
  track : Nat := 0
  prof : Nat := 0
  target : Nat := 0
  policy : Nat := 0
  measure : Bool := false
  /-- The firing instant F, where one is set. -/
  fire : Option Nat := none
  /-- The velocity at the hit in 1/256 count/s, and the lead in ticks, of the conversion that set F. -/
  vh : Int := 0
  lead : Int := 0
  /-- Newly queued and not yet converted (R212). -/
  new : Bool := true
  /-- F lay less than 1 µs ahead when the Track left LIVE, so that it fires (R218). -/
  committed : Bool := false
deriving DecidableEq, Repr

/-- An entry of a channel's timed-action queue (R345); `pos` is none for an entry placed in time. -/
structure QEntry where
  number : Nat := 0
  qe0 : Nat := 0
  qe1 : Nat := 0
  qe2 : Nat := 0
  tag : Nat := 0
  pos : Option PosBind := none
deriving DecidableEq, Repr

/-- An armed action slot of a Prism engine (R410, R411). -/
structure Slot where
  at_ : Nat := 0
  pos : Option PosBind := none
  evt : Bool := false
  mask : Nat := 0
  val : Nat := 0
deriving DecidableEq, Repr

/-- An entry of a capture FIFO (R357); the stamp in eighths of a tick of ring time, modulo 2^64. -/
structure CapEntry where
  stamp : Nat := 0
  level : Bool := false
  fb : Bool := false
  /-- With CAP_POS: the position (none while the Track has accepted no sample), the Track's state and its age (R210). -/
  pos : Option (Option Nat × Nat × Nat) := none
deriving DecidableEq, Repr

/-- A raw edge: its stamp in eighths of a tick, its fall-back flag, the clock count at it, and what each Track that holds a context held at the stamp:
position, state and age (R210, R334, R335). -/
structure RawEdge where
  stamp : Nat := 0
  fb : Bool := false
  at_ : Nat := 0
  tracks : Map (Option Nat × Nat × Nat) := []
deriving DecidableEq, Repr

structure ChState where
  /-- The level at the ball as the synchroniser last showed it, the raw and the filtered level (R334). -/
  ball : Bool := false
  raw : Bool := false
  filt : Bool := false
  /-- The raw edge that the glitch filter measures (R334, R335). -/
  measuring : Option RawEdge := none
  /-- The filtered level has changed since the last sampling instant (R75, R233). -/
  changed : Bool := false
  /-- The last capture, and the FIFO with the index of its oldest entry (R336). -/
  last : Option CapEntry := none
  fifo : List CapEntry := []
  head : Nat := 0
  /-- The 250 MHz cycle of the last edge that CNT counted, and the edges counted in it (R337). -/
  counted : Nat × Nat := (0, 0)
  /-- The last two counted edges of a quadrature pair, newest first: stamp, and whether the count rose (R339). -/
  edges : List (Nat × Bool) := []
  /-- The timed-action queue in push order, and the number of the next push (R345). -/
  queue : List QEntry := []
  pushes : Nat := 0
  /-- The level of the last event, the duty in effect, and the duty that waits for the next period with the period of its event (R21, R344). -/
  level : Bool := false
  duty : Nat := 0
  nextDuty : Option (Nat × Nat) := none
  /-- The tick and the source of the last event, and the level before that tick (R21). -/
  lastEvent : Option (Nat × Nat × Bool) := none
  /-- The safe value is held until the next event (R22); set from the onset of every safe-value condition on. -/
  waiting : Bool := true
  /-- The Tracks (0 to 15) whose stale policy holds the safe value (R218), and 16 for an Atrium slot's (R245). -/
  policies : List Nat := []
  /-- A pulse's pending end: its source, its level and its instant (R348). -/
  ending : Option (Nat × Bool × Nat) := none
  /-- The local reaction is armed (R350). -/
  armed : Bool := false
  /-- The last firing: FIRE_INFO, FIRE_LO and FIRE_HI (R347). -/
  fired : Nat × Nat × Nat := (0, 0, 0)
deriving DecidableEq, Repr

/-- A bin of drift statistics (R224). -/
structure Bin where
  count : Nat := 0
  mean : Int := 0
  min : Int := 0
  max : Int := 0
  res : Int := 0
  /-- The sums of the first 16 deviations and residuals (R224). -/
  sum : Int := 0
  resSum : Int := 0
deriving DecidableEq, Repr

/-- An open measurement of a lead profile: F, and the instant at which the action fired (R222, R223). -/
structure Measure where
  fire : Nat := 0
  firedAt : Nat := 0
  vh : Int := 0
  lead : Int := 0
  target : Nat := 0
deriving DecidableEq, Repr

structure TrackState where
  newest : Option Sample := none
  /-- The newest sample was accepted in ACQUIRE (R219). -/
  inAcquire : Bool := false
  lock : Nat := 0
  /-- The sample that the conversion pass under way uses, and whether one has been accepted during it (R215). -/
  pass : Option Sample := none
  passAgain : Bool := false
  /-- The pass's sample was not accepted in the present ACQUIRE (R219). -/
  passOld : Bool := false
  /-- The number of the last sample instant on the grid of R200, plus one. -/
  grid : Nat := 0
  /-- The source's positions at successive sample instants in 2^-16 count, newest first, and the number of the newest (R202). -/
  history : List Nat := []
  histGrid : Nat := 0
  /-- An encoder error is present, or the history has not refilled since (R226). -/
  encFault : Bool := false
  /-- The source's own counts (R201, R205). -/
  smpCount : Nat := 0
  srcGen : Nat := 0
  /-- A preset waits for the next sample instant; the value that one took for an SSI read (R221). -/
  preset : Bool := false
  ssiPreset : Option Nat := none
  ssiCount : Nat := 0
  ssiLast : Nat := 0
  /-- An SSI read for a sample is under way (R201). -/
  ssiReading : Bool := false
  /-- Drift statistics by profile × 8 + point; open measurements and consecutive misses by profile (R222 to R224). -/
  bins : Map Bin := []
  open_ : Map Measure := []
  misses : Map Nat := []
deriving DecidableEq, Repr

/-! ### The Atrium (R230 to R254) -/

/-- What the epoch descriptor shows of the closed epoch (R243). -/
structure EpochDesc where
  number : Nat := 0
  sampled : Nat := 0
  closed : Nat := 0
  valid : Nat := 0
  covered : Nat := 0
  fb : Bool := false
  own : Bool := false
  skipped : Bool := false
deriving DecidableEq, Repr

structure AtrState where
  /-- The epoch held open, and whether its sampling instant has come (R231). -/
  open_ : Option Nat := none
  sampled : Bool := false
  /-- The epoch of the last sampling instant (R247), and the clock count at that instant (R82, R89). -/
  last : Option Nat := none
  sampledAt : Option Nat := none
  /-- The tick before which no instant of a new CYCLE lies (R248). -/
  notBefore : Nat := 0
  /-- The committed values of the page that the open epoch closes under, once it is sampled (R248). -/
  layout : RegFile := []
  /-- The slots in the back banks: by node, the bytes and whether they came over the ring (R241, R242). -/
  back : Map (List Byte × Bool) := []
  /-- The data area's front banks, byte by byte (R240, R241). -/
  front : Map Byte := []
  /-- The nodes whose slots were valid in the closed epoch, and the stale ages below 255 (R242). -/
  valid : List Nat := []
  ages : Map Nat := []
  desc : EpochDesc := {}
  /-- Epochs were skipped since the last close (R247). -/
  skipped : Bool := false
  /-- The ring was joined when the open epoch was sampled (R89). -/
  joined : Bool := false
  /-- The values of the closed epoch await the next sampling instant (R245). -/
  undriven : Bool := false
  /-- The publish buffer: its shadow and its live copy, and the slot last published (R234, R243). -/
  shadow : Map Byte := []
  live : Map Byte := []
  lastSlot : List Byte := []
deriving DecidableEq, Repr


/-! ### The bridge (R255 to R282) -/

/-- A frame that waits at the bridge: who issued it, its charge in tokens (0 for Bulk), the DMA queue pair's number and priority, and
whether its waits have been counted (R265, R315, R318). -/
structure Issue where
  origin : Origin := .none
  frame : Frame := {}
  charge : Nat := 0
  qp : Option Nat := none
  pri : Nat := 0
  tokenWait : Bool := false
  slotWait : Bool := false
deriving DecidableEq, Repr

/-- An open read (R265, R267). -/
structure OpenRead where
  origin : Origin := .none
  dst : Nat := 0
  ten : Nat := 0
  addr : Nat := 0
  rlen : Nat := 0
  /-- It was sent in the class Bulk (R455). -/
  bulk : Bool := false
deriving DecidableEq, Repr

/-- A read slot: its generation, the read that holds it, and whether a timeout keeps it from being assigned (R265). -/
structure ReadSlot where
  gen : Nat := 0
  read : Option OpenRead := none
  resting : Bool := false
deriving DecidableEq, Repr

/-- The spacing of an IRQ_OUT entry: less than 10 µs since its last message, and an event merged since (R272). -/
structure IrqOut where
  spacing : Bool := false
  merged : Bool := false
deriving DecidableEq, Repr

/-- A write that is being applied: a remote one by its frame, or a local one by its origin and its node and address; the first word that
failed (its place, status and address), and the words that still wait for a FIFO (R264, R363). -/
structure Serving where
  origin : Origin := .none
  frame : Option Frame := none
  node : Nat := 0
  addr : Nat := 0
  fail : Option (Nat × Nat × Nat) := none
  left : Nat := 0
  bulk : Bool := false
deriving DecidableEq, Repr

/-- A request that the bridge holds until it is served; `uncorr` is the offset of the first byte of a read at which memory has an uncorrectable
error (R261, R264). -/
structure BrgRequest where
  frame : Frame := {}
  uncorr : Option Nat := none
deriving DecidableEq, Repr

structure BrgState where
  /-- The Express requests that wait to be served, at most 64, and the Bulk requests taken behind them, in arrival order (R264). -/
  express : List BrgRequest := []
  bulk : List BrgRequest := []
  /-- Broadcast writes of this node that the local path has yet to apply here, each with its requester (R257). -/
  own : List (Req × Frame) := []
  slots : Map ReadSlot := []
  /-- The write count of R259. -/
  writes : Nat := 0
  /-- What waits for tokens or a slot, in issue order. -/
  waiting : List Issue := []
  /-- The interrupt messages held at this node, each with its port of arrival (R273). -/
  held : List (Nat × Frame) := []
  irqOut : Map IrqOut := []
  /-- The writes that wait for a full FIFO, by number (R363). -/
  serving : Map Serving := []
  /-- The grid point of R230, in ticks, of the last refill of the tenants' tokens (R315). -/
  refilled : Option Nat := none
deriving DecidableEq, Repr

/-! ### The switch core (R283 to R309) -/

/-- A Bulk frame whose cells the cell buffer holds (R283, R289): the slots in the overflow area of its cells that lie in DRAM, in order; the
clock count at which it was queued; the ring time of its /S/ or of its arrival (R301); whether this node turned it back (R159), and whether a copy
of it goes the other way (R160). Also an Express or Timed frame on its way to its queue. -/
structure QFrame where
  frame : Frame := {}
  cells : Nat := 1
  slots : List Nat := []
  /-- The cells read back from DRAM into the staging area (R289). -/
  staged : Nat := 0
  since : Nat := 0
  ingress : Nat := 0
  stamp : Nat := 0
  turned : Bool := false
  twin : Bool := false
deriving DecidableEq, Repr

/-- How much of a frame the switch core has when it decides on the header (R288): all of it, its header, or all of a frame that fails its checks. -/
inductive Part where
  | whole | header | bad
deriving DecidableEq, Repr

/-- A frame on its way into the switch core: its port of arrival and the switch ports it is bound for; 8 leaves the ring direction
to the Lens. `pri` is PRI of R292, `qp` the DMA queue pair of Lens field 4, `queue` a Bulk queue that the sender fixes, `stamp` the ring time of
its /S/ or of its arrival, and `old` marks a frame whose start delimiter came before the last commit instant (R56). -/
structure Arrival where
  ingress : Nat := 0
  egress : Nat := 0
  also : Option Nat := none
  frame : Frame := {}
  pri : Nat := 0
  qp : Option Nat := none
  queue : Option Nat := none
  origin : Origin := .none
  part : Part := .whole
  stamp : Nat := 0
  old : Bool := false
deriving DecidableEq, Repr

/-- A frame in a virtual output queue (R285): the Bulk queue it is bound for, and the cells that are still to move. -/
structure VFrame where
  item : QFrame := {}
  queue : Nat := 0
  left : Nat := 1
deriving DecidableEq, Repr

/-- A meter: what its two buckets lack, in 1/40,000 byte, and the clock count when that was so (R293). -/
structure Meter where
  lackC : Nat := 0
  lackP : Nat := 0
  at_ : Nat := 0
deriving DecidableEq, Repr

/-- The average depth of a Bulk queue, `num` divided by 2^`exp` cells (R294). -/
structure Average where
  num : Nat := 0
  exp : Nat := 0
deriving DecidableEq, Repr

/-- A valid pin entry: its direction, the Lens epoch it was pinned in, and the clock count at its last use (R297 to R299). -/
structure Pin where
  west : Bool := false
  epoch : Nat := 0
  used : Nat := 0
deriving DecidableEq, Repr

/-- A Periscope session: its copy count, whether copies were dropped since the last one, and frames counted for KIND 2 (R300, R301). -/
structure Session where
  cseq : Nat := 0
  lost : Bool := false
  seen : Nat := 0
deriving DecidableEq, Repr

/-- A port's deficit round robin: the queue whose turn it is, whether its quantum has been added, and the deficits by queue (R295). -/
structure Drr where
  turn : Nat := 0
  given : Bool := false
  deficits : Map Nat := []
deriving DecidableEq, Repr

structure SwState where
  /-- The Bulk queues, by egress port × 16 + queue, oldest first. -/
  queues : Map (List QFrame) := []
  /-- Express and Timed frames that reach the switch core, oldest first. -/
  taps : List Arrival := []
  /-- Bulk frames whose header has reached the switch core, oldest first. -/
  bulk : List Arrival := []
  /-- The Express and Timed queues of ports 2 to 6, by port × 2 + 1 for Timed, oldest first (R284, R287). -/
  express : Map (List QFrame) := []
  /-- The Bulk frames admitted on their headers and still being received, each with its egress port × 16 + queue (R288). -/
  opening : List (Nat × QFrame) := []
  /-- The virtual output queues, by (ingress × 8 + egress) × 3 + class, and the pointers of the crossbar: the grant pointers by
  egress × 3 + class and the accept pointers by ingress × 3 + class (R285). -/
  voq : Map (List VFrame) := []
  grants : Map Nat := []
  accepts : Map Nat := []
  /-- The meters by number, and their counts by meter × 4 + colour (R293). -/
  meters : Map Meter := []
  meterCounts : Map Nat := []
  /-- The average depths, and the drop and send counts, by egress port × 16 + queue (R294, R307). -/
  averages : Map Average := []
  redDrops : Map Nat := []
  tailDrops : Map Nat := []
  sent : Map Nat := []
  /-- The valid pin entries by flow index, and the Lens epoch in effect (R297, R299). -/
  pins : Map Pin := []
  lensEpoch : Nat := 0
  sessions : Map Session := []
  drr : Map Drr := []
deriving DecidableEq, Repr


/-! ### The serial controllers (R361 to R394) -/

/-- An entry of a stamp FIFO (R368); the stamp in eighths of a tick of ring time, modulo 2^64. -/
structure SerStamp where
  stamp : Nat := 0
  rxPos : Nat := 0
  code : Nat := 0
  fb : Bool := false
deriving DecidableEq, Repr

/-- A UART's own state (R369 to R378). -/
structure UartState where
  /-- The characters of the DATA entry under way that are still to be sent. -/
  chars : List Nat := []
  /-- A message is being sent, and whether the message buffer is its source (R375). -/
  open_ : Bool := false
  fromBuffer : Bool := false
  /-- What is left of the inbound routed message (R375). -/
  buffer : List Byte := []
  /-- DE is asserted; the clock count at which DE is released once the transmitter has come to rest, from which TURN runs (R372). -/
  de : Bool := false
  releaseAt : Option Nat := none
  /-- The clock count of the falling edge that began the character being received (R370, R391). -/
  rxSince : Option Nat := none
  /-- The next received character carries FIRST (R371, R374). -/
  first : Bool := true
  /-- The received message in the message buffer, with its flags, the stamp of its first start bit, and whether it has outgrown the buffer (R374). -/
  held : List Nat := []
  heldAt : Nat := 0
  long : Bool := false
  /-- RTS is asserted (R373). -/
  rts : Bool := true
  /-- The IO-Link sequence: 1 TWU, 2 TREN, 3 sending, 4 waiting TA_MAX, 5 waiting TDMT, 6 a wake-up that waits for its outputs (R80, R367); the rate tried, the tries made at it, the
  characters of the first message that have been sent (R377). -/
  stage : Nat := 0
  com : Nat := 0
  tries : Nat := 0
  sent : Nat := 0
  /-- A response is awaited in OPERATE (R378). -/
  awaiting : Bool := false
deriving DecidableEq, Repr

/-- An SPI controller's own state (R379 to R383). -/
structure SpiState where
  /-- The master frame under way: chip select, KEEP, RX_OFF; STAT.WORDS_LEFT counts its words. -/
  frame : Option (Nat × Bool × Bool) := none
  /-- The chip select that stays asserted after a frame with KEEP (R380). -/
  kept : Option Nat := none
  /-- Entries are discarded until a command entry (R380). -/
  discard : Bool := false
  /-- Entries of an aborted frame still to be discarded (R367). -/
  skip : Nat := 0
  /-- A read that software started is under way (R383). -/
  reading : Bool := false
  /-- The stamp and fall-back flag of the first falling clock edge of the present SSI read, and the clock count at the last rising edge of the
  previous one (R368, R382). -/
  ssiStart : Nat × Bool := (0, false)
  ssiEnded : Option Nat := none
deriving DecidableEq, Repr

/-- An I²C controller's own state (R385 to R388). -/
structure I2cState where
  /-- The master holds the bus: since its START, reading or writing, and the bytes written since. -/
  held : Option Bool := none
  index : Nat := 0
  /-- Entries are discarded up to and including the next STOP (R387). -/
  discard : Bool := false
  /-- The bytes of the READ entry at the front that have been read. -/
  read : Nat := 0
  /-- The slave's direction: true for a read; none when not addressed or when the master has ended the read. -/
  slave : Option Bool := none
  /-- Status and STOP entries that wait for room in the receive FIFO, oldest first. -/
  due : List Nat := []
deriving DecidableEq, Repr

structure SerState where
  /-- The transmit and receive FIFOs, oldest first (R361). -/
  tx : List Nat := []
  rx : List Nat := []
  /-- Stalled pushes, oldest first (R363). -/
  stalled : List (Waiter × Nat) := []
  /-- An entry was lost since the last one stored (R364). -/
  lost : Bool := false
  /-- Receive entries pushed since enable (R368). -/
  rxPos : Nat := 0
  /-- The stamp FIFO, oldest first, and the index of its oldest entry. -/
  stamps : List SerStamp := []
  head : Nat := 0
  /-- The page's committed values before the last commit, for work begun under them; EN has fallen while a character, word or byte was in
  progress, which finishes (R56). -/
  prior : RegFile := []
  finishing : Bool := false
  uart : UartState := {}
  spi : SpiState := {}
  i2c : I2cState := {}
deriving DecidableEq, Repr


/-! ### The Prism engines (R395 to R422) -/

/-- What a Prism engine waits for, with what its instruction still needs (R407 to R412). -/
inductive PrsWait where
  | none
  /-- A pin, the condition, whether it times out, and the edge that has reached the engine with the clock count of that. -/
  | pin (p cond : Nat) (timeout : Bool) (seen : Option (RawEdge × Nat))
  | time (t : Nat)
  | events (d mask : Nat)
  | pull (d : Nat)
  | push (v : Nat)
  | delay
  /-- A shift: SHIFTI or SHIFTO, the instruction word, the value sent, the levels sampled, the first in bit 0, and the last tick stepped. -/
  | shift (input : Bool) (w v got step : Nat)
deriving DecidableEq, Repr

/-- What an instruction does at the end of its last tick: PDIR, POUT and POUTR at the pins (R403), PUB with the publish word (R414). -/
inductive PrsAfter where
  | dirs (mask val : Nat)
  | pins (mask val : Nat)
  | publish (v : Nat)
deriving DecidableEq, Repr

/-- The stamp latch: stamp in eighths of a tick, edge, fall-back flag, pin, and the position latched with it (R408). -/
structure PrsStamp where
  stamp : Nat := 0
  rising : Bool := false
  fb : Bool := false
  pin : Nat := 0
  pos : Option (Option Nat × Nat × Nat) := none
deriving DecidableEq, Repr

structure PrsState where
  /-- The program counter, the flags, the return stack (newest first) and what the engine waits for. -/
  pc : Nat := 0
  z : Bool := false
  n : Bool := false
  c : Bool := false
  stack : List Nat := []
  wait : PrsWait := .none
  /-- The pins that PDIR has made outputs, and the deferred changes by pin (R404). -/
  dirs : Nat := 0
  /-- The pins that hold their safe value since the engine last left RUNNING or WAIT_START, until their next change (R400). -/
  safe : Nat := 0
  deferred : Map Bool := []
  /-- The IN and OUT queues, oldest first, and the stalled pushes (R413). -/
  inq : List Nat := []
  outq : List Nat := []
  stalled : List (Waiter × Nat) := []
  stamp : Option PrsStamp := none
  /-- SUM_CALC is not up to date (R398). -/
  stale : Bool := false
  /-- The start instant in WAIT_START, and the instant of a RESTART_AT that is pending (R399, R417). -/
  startAt : Nat := 0
  restartAt : Option Nat := none
  /-- The clock count at which a tick began, and the ticks from there to the end of the instruction, delay, shift or timeout in progress (R402, R407, R418). -/
  anchor : Nat := 0
  ticks : Nat := 0
  /-- The ticks from the anchor to the end of a wait's first tick, after which it may end. -/
  first : Nat := 0
  /-- What instructions still do at their end, each with the ticks from the anchor to that, the earliest first. -/
  after : List (Nat × PrsAfter) := []
  /-- The clock count of each pin's last change (R404). -/
  changed : Map Nat := []
  /-- The slots whose last firing was on the fall-back path; no register shows them (R14). -/
  fbSlots : Nat := 0
deriving DecidableEq, Repr


/-! ### The CAN FD controllers (R423 to R445) -/

structure CanState where
  /-- Message memory, byte by byte; object i from 128 × i on (R430, R431). -/
  mem : Map Byte := []
  /-- The PENDING objects in the order of GO writes and route fills (R434). -/
  order : List Nat := []
  /-- The object whose frame is in transmission, and whether a CANCEL of it waits for the frame's end (R432, R434). -/
  sending : Option Nat := none
  cancelling : Bool := false
  /-- The recovery count runs in BUS_OFF (R427). -/
  recovering : Bool := false
  /-- The page's committed values that the protocol still runs under, until the next bus idle (R429). -/
  settings : Option RegFile := none
  /-- The level of CANn_RX, recessive at rest; and whether the bus is free, so that a dominant edge there starts a frame (R424, R444). -/
  rx : Bool := true
  free : Bool := false
deriving DecidableEq, Repr

/-! ### The local Ethernet port (R446 to R462) -/

/-- A frame from its destination address through its FCS of which `sent` bytes have left, and whether it lay in DRAM (R304, R449). -/
structure EtherPart where
  bytes : List Byte := []
  sent : Nat := 0
  dram : Bool := false
deriving DecidableEq, Repr

/-- A preemptable frame in reassembly: its bytes so far, its number, the count that its next fragment has, the instant of its first bit on C in
eighths of a tick, and whether it found both receive buffers full (R448, R449). -/
structure RxPart where
  bytes : List Byte := []
  number : Nat := 0
  count : Nat := 0
  at_ : Nat := 0
  full : Bool := false
deriving DecidableEq, Repr

structure EtherState where
  /-- The verify mPackets sent since the link came up, and C at the last one (R449). -/
  verifies : Nat := 0
  verifyAt : Nat := 0
  /-- C when the wake pattern began (R459). -/
  wakeAt : Nat := 0
  /-- C when what is on the line ends, and when each frame that is on the line to its end does (R447). -/
  busy : Nat := 0
  ends : List Nat := []
  /-- A preempted Bulk frame, of which a part has gone (R449). -/
  part : Option EtherPart := none
  /-- The delivered tunnelled frames that wait for the line, oldest first (R453). -/
  waiting : List (List Byte) := []
  /-- The preemptable frame that is being put together from its fragments (R449). -/
  rx : Option RxPart := none
deriving DecidableEq, Repr

/-! ### The host port and the mailboxes (R463 to R490) -/

/-- A transmit descriptor that the hub has fetched: its index, its eight words, the ring time of the fetch in eighths of a tick, whether it has been
issued, and its status once complete (R473 to R475). -/
structure Desc where
  idx : Nat := 0
  words : List Nat := []
  stamp : Nat := 0
  issued : Bool := false
  status : Option Nat := none
deriving DecidableEq, Repr

/-- A queue pair: the next descriptor to fetch, the descriptors fetched and not complete, oldest first, and its receive descriptors. -/
structure QpState where
  next : Nat := 0
  descs : List Desc := []
  /-- The receive descriptors made available and not used, and the last one made available (R476). -/
  rxAvail : Nat := 0
  rxLast : Option Nat := none
deriving DecidableEq, Repr

structure HostState where
  qps : Map QpState := []
  /-- The MSI-X table, byte by byte (R465). -/
  msix : Map Byte := []
  /-- PCI Express configuration space, the bytes written (R464). -/
  config : Map (Option Nat) := []
  /-- The queue pair whose turn to fetch a descriptor comes next (R475). -/
  turn : Nat := 0
  /-- The mailboxes' data, byte by byte from mailbox 0 (R480). -/
  mail : Map Byte := []
  /-- The QSPI read under way, its number and its length: the slave drives 0x00 until it is over (R470). -/
  reading : Option (Nat × Nat) := none
deriving DecidableEq, Repr

/-! ### Field power zones (R490 to R512) -/

structure ZoneState where
  /-- The newest samples: current in mA, output and drain voltage in mV (R493, R498). -/
  iMa : Int := 0
  voutMv : Nat := 0
  vinMv : Nat := 0
  /-- A FAST trip, a SLOW, RAMP_TIME or RAMP_ENERGY trip, and REVERSE since the previous sampling instant (R510). -/
  sinceFast : Bool := false
  sinceSlow : Bool := false
  sinceReverse : Bool := false
  /-- VIN has stayed within its limits for 100 ms; a sample has found it out of range since; since when its samples lie within them (R498). -/
  vinOk : Bool := false
  outSeen : Bool := false
  inAt : Option Nat := none
  /-- The zone was permitted when it was last looked at (R501). -/
  permitted : Bool := false
  /-- The converter's next slot of four, when it may begin, and when the next chop cycle may end (R492). -/
  slot : Nat := 0
  slotDue : Nat := 0
  chopDue : Nat := 0
  /-- The latest 64 shunt samples in 0.1 µV, newest first (R495). -/
  shunts : List Int := []
  /-- The shunt's temperature rise, in 10^-13 K (R493). -/
  rise : Int := 0
  /-- The energy in µJ, 64 bits, and its fraction in 10^-5 µJ (R494). -/
  energy : Nat := 0
  energyFrac : Nat := 0
  /-- Consecutive current samples above the limit, and the energy of the ramp in 10^-5 µJ (R497). -/
  overRun : Nat := 0
  rampEnergy : Int := 0
  /-- In ns of C: the starts of the last ramp, of the time ON, of the clamping and of the back-off, and the back-off's length (R495, R500, R502). -/
  clampAt : Nat := 0
  rampAt : Nat := 0
  onAt : Nat := 0
  backAt : Nat := 0
  backNs : Nat := 0
  /-- When VOUT reached 95 % of VIN in the ramp (R506), and since when it has stayed above half of VIN with the gate clamped (R507). -/
  at95 : Option Nat := none
  overAt : Option Nat := none
  /-- A turn-off at load whose ZERO_HOT is still to be taken; one has been taken (R495). -/
  hotPending : Bool := false
  hotTaken : Bool := false
  /-- A current sample has been taken since IPEAK was last read (R511). -/
  peakSeen : Bool := false
  /-- A self-test holds the zone under the PROBE policy, and lets a fenced zone ramp (R504, R597). -/
  probing : Bool := false
deriving DecidableEq, Repr


/-- The temperature unit's own counts of 100 µs readings (BULK_MS, BANK_MS), and its times on C: when the next reading may come, since when each
sensor has differed from the median by more than 15 °C (R528), and since when the shed level counts towards its next step (R529). -/
structure ThermState where
  readDue : Nat := 0
  diffAt : Map (Option Nat) := []
  stepAt : Option Nat := none
  /-- A reading has been taken since TJ_MAX was last read. -/
  maxSeen : Bool := false
  bulkTenths : Nat := 0
  bankTenths : Nat := 0
deriving DecidableEq, Repr

/-! ### The Steward core and its block (R534 to R559) -/

/-- A service call that waits for the Steward firmware (R545): its path, code, requester code and arguments; `good` is well-formed lengths. -/
structure SvcCall where
  path : SvcPath
  code : Nat
  req : Nat
  args : List Byte
  good : Bool
deriving DecidableEq, Repr

/-- What a coprocessor operation will leave at its completion: bytes for SRAM by core address, RESULT, and a key slot's new value (R549, R550). -/
structure CopOutcome where
  writes : List (Nat × List Byte) := []
  result : Nat := 0
  slot : Option (Nat × Nat) := none
deriving DecidableEq, Repr

/-- The operation that the coprocessor runs: by which world, the key slot read at its start, the clock count of its start, and its outcome once
computed (R548 to R550). -/
structure CopJob where
  op : CopOp
  annex : Bool
  key : Nat
  start : Nat := 0
  outcome : Option CopOutcome
deriving DecidableEq, Repr

structure StwState where
  /-- The raised interrupt inputs that are events: 0 to 31, 37 to 40 and 45 (R541). -/
  inputs : Nat := 0
  /-- The machine timer interrupt, and the comparators' last values (R542). -/
  timerIrq : Bool := false
  cmpS : Option Nat := none
  cmpA : Option Nat := none
  /-- The PMP entries, each a configuration byte and an address word (R534). -/
  pmp : Map (Nat × Nat) := []
  /-- SRAM, by byte offset from core address 0x2000_0000 (R535). -/
  sram : Map Byte := []
  /-- The service calls that wait, oldest first (R545). -/
  calls : List SvcCall := []
  /-- The nonces issued and not used, with their instants in ns (R556). -/
  nonces : List (Nat × Nat) := []
  /-- An accepted token's target for LC.TRANS (R555). -/
  token : Option Nat := none
  /-- The instants, in ns, at which the boot ROM started and each watchdog last restarted (R543). -/
  bootNs : Nat := 0
  kickS : Nat := 0
  kickA : Nat := 0
  /-- The coprocessor: the running operation, the last status word without BUSY, and the core stalled in COP.WAIT with its rd (R549). -/
  cop : Option CopJob := none
  copLast : Nat := 0
  copWait : Option (Bool × Nat) := none
  /-- The key slots (R550). -/
  slots : Map Nat := []
  /-- The fuse word and bits being programmed, and the target of a lifecycle transition under way (R552, R555). -/
  otp : Option (Nat × Nat) := none
  trans : Option Nat := none
deriving DecidableEq, Repr


/-! ### Boot and field update (R560 to R583) -/

/-- What the boot ROM has loaded (R570 to R572): the slot, whether it is on trial, the Annex region's size and the configuration section
(stream offset, length, seal code); none of either where the image has none. `bare` is an image booted for its firmware alone (R571). -/
structure BootImage where
  slot : Nat := 0
  trial : Bool := false
  annex : Option Nat := none
  auto : Bool := false
  config : Option (Nat × Nat × Nat) := none
  bare : Bool := false
deriving DecidableEq, Repr

structure UpdState where
  boot : Option BootImage := none
  /-- The call whose verification or activation runs, and the activation's target slot (R575). -/
  running : Option SvcCall := none
  target : Nat := 0
  /-- The bytes received of the block that is not complete yet, and the instant in ns of the last DATA accepted (R575, R576). -/
  part : List Byte := []
  dataNs : Nat := 0
  /-- The instant in ns of the restart that follows a reply with REBOOT (R574). -/
  reboot : Option Nat := none
  /-- The instant in ns since when the mode has been Running or Degraded without interruption (R579). -/
  runSince : Option Nat := none
  /-- The download in the Landing was begun by a call of the Ethernet port (R557). -/
  etherLoad : Bool := false
  /-- The data buffer BUF (R583). -/
  buf : Map Byte := []
deriving DecidableEq, Repr


/-! ### Self-test (R584 to R599) -/

structure BistState where
  /-- The phase of the full self-test (1 to 5, 6 once they are over; 0 where none runs), its items, those that have failed, whether the final
  phase failed, and what it skipped (R587, R590). -/
  phase : Nat := 0
  items : Nat := 0
  failed : Nat := 0
  finalFailed : Bool := false
  skipBanks : Nat := 0
  skipZones : Nat := 0
  /-- Its first failure: item, page and detail; and the lifecycle state and deployment at its start (R591). -/
  first : Option (Nat × Nat × Nat) := none
  lc : Nat := 0
  deploy : Nat := 0
  /-- The unit under test by its first page, and a LOAD ramp that has failed (R593, R597). -/
  unit : Nat := 0
  loadFailed : Bool := false
  /-- A LOAD ramp that is to come, and what the test found before it while the ramp runs: items failed, page and detail (R597). -/
  load : Bool := false
  found : Option (Nat × Nat × Nat) := none
  /-- The instant in ns at which the test began (STAT.ELAPSED). -/
  began : Nat := 0
deriving DecidableEq, Repr


/-! ### The hub and the machine -/

/-- The hub: its registers, what it sends out, and its blocks. -/
structure Hub where
  /-- The present values of every register field that is not staged (R6). -/
  live : RegFile := []
  /-- The staged values of every STG field, and of the staged tables (R48). -/
  staged : RegFile := []
  /-- The committed values of every STG field, and of the committed tables (R48). -/
  committed : RegFile := []
  /-- The committed values before the last commit instant (R56). -/
  prior : RegFile := []
  /-- What the last command sent out (the model's own). -/
  out : List Out := []
  /-- The number of the next free value (the model's own). -/
  free : Nat := 0
  /-- The commands of the present edge (the model's own). -/
  edge : EdgeState := {}
  /-- System state without a register (R51 to R113). -/
  sys : SysState := {}
  /-- The fault collector (R516 to R525). -/
  flt : FltState := {}
  /-- The ring ports, East 0 and West 1 (R114 to R141). -/
  ports : Map PortState := []
  /-- The topology unit (R142 to R168). -/
  topo : TopoState := {}
  /-- The fuses, word by word (R552); the unit that the model starts with is in Field, first deployment, with key slot 0 programmed. -/
  fuses : Map Nat := [(4, 7), (5, 7), (6, 7), (7, 0x71280000), (64, 1)]
  /-- Ring time (R169 to R195). -/
  time : TimeState := {}
  /-- The edges of the 500 MHz domain that have passed, which the hub's own timers count; no reset takes it back (the model's own field). -/
  clock : Nat := 0
  /-- The Tracks by number (R198 to R229). -/
  tracks : Map TrackState := []
  /-- The Tracks whose conversion passes are under way or wait, in order of sample acceptance (R215). -/
  passes : List Nat := []
  /-- The channel cells by number (R333 to R358). -/
  chans : Map ChState := []
  /-- The armed action slots of the Prism engines, by engine × 16 + slot (R410), and the fired and dropped flags by engine (R412). -/
  slots : Map Slot := []
  slotFlags : Map (Nat × Nat) := []
  /-- The Atrium engine (R230 to R254). -/
  atr : AtrState := {}
  /-- The bridge (R255 to R282). -/
  brg : BrgState := {}
  /-- The switch core (R283 to R309). -/
  sw : SwState := {}
  /-- The external DRAM's bytes, by offset from local address 0x1_0000_0000 (R256, R290). -/
  dram : Map Byte := []
  /-- The serial controllers by page number (R361 to R394). -/
  sers : Map SerState := []
  /-- The Prism engines by number (R395 to R422). -/
  prs : Map PrsState := []
  /-- The program and data memories, engine e's from 0x10000 × e on (R396). -/
  prsMem : Map Byte := []
  /-- The CAN FD controllers by number (R423 to R445). -/
  cans : Map CanState := []
  /-- The local Ethernet port (R446 to R462). -/
  ether : EtherState := {}
  /-- The host port and the mailboxes (R463 to R490). -/
  host : HostState := {}
  /-- The field power zones by number (R490 to R512). -/
  zones : Map ZoneState := []
  /-- The temperature unit (R528 to R532). -/
  therm : ThermState := {}
  /-- The Steward core and its block (R534 to R559). -/
  stw : StwState := {}
  /-- Boot and field update (R560 to R583). -/
  upd : UpdState := {}
  /-- The external flash: its bytes that are not erased (0xFF), and log2 of its size; below 24, no usable device (R560, R561). -/
  flash : Map Byte := []
  flashLog2 : Nat := 24
  /-- Self-test (R584 to R599). -/
  bist : BistState := {}
deriving DecidableEq, Repr

/-- The machine: the hub, and the commands that wait, the oldest first. -/
structure State where
  hub : Hub := {}
  pending : List Instr := []
deriving DecidableEq, Repr

/-- The machine right after a power-on reset (R8, R107): every register at its reset value, in Waking, no command waiting. -/
def State.reset : State := {}

/-- Why a step stops with a fault. -/
inductive Fault where
  /-- Raised by no command: the manual gives every event of the hub an effect. Safe. -/
  | none
deriving DecidableEq, Repr

/-- Why a command has no meaning. -/
inductive Refusal where
  /-- Raised by the dispatch for a command that has no meaning yet, by its mnemonic. Safe. -/
  | notModelled (mnemonic : String)
deriving DecidableEq, Repr

end Sys2Proof.Machine
end

