-- ==== Sys2Proof/Machine/Ops.lean ====
section
/-!
DEFINITION. The named operations over registers, memories, ring time, outputs and register accesses: the one place that reads and writes them.
Where the manual is open: DEDUCED, log entry 7; DESIGN CHOICE, log entries 1 and 2.
-/
namespace Sys2Proof.Machine

open Reg

/-! ### Register files -/

/-- The order of places: page, then offset, then lowest bit. -/
def Key.lt (a b : Key) : Bool :=
  decide (a.page < b.page) ||
    (decide (a.page = b.page) && (decide (a.off < b.off) || (decide (a.off = b.off) && decide (a.lo < b.lo))))

/-- The value listed for a place. -/
def RegFile.find : RegFile → Key → Option Nat
  | [], _ => none
  | e :: r, k => if e.1 = k then some e.2 else RegFile.find r k

/-- A register file without a place. -/
def RegFile.erase (r : RegFile) (k : Key) : RegFile := r.filter (fun e => decide (e.1 ≠ k))

/-- A register file with an entry put before the first greater place. -/
def RegFile.insert : RegFile → Key → Nat → RegFile
  | [], k, v => [(k, v)]
  | e :: r, k, v => if k.lt e.1 then (k, v) :: e :: r else e :: RegFile.insert r k v

/-- A register file with a place holding a value; the reset value is not listed. -/
def RegFile.set (r : RegFile) (k : Key) (rst v : Nat) : RegFile :=
  if v = rst then RegFile.erase r k else RegFile.insert (RegFile.erase r k) k v

/-- The places rise strictly. -/
def RegFile.sorted : RegFile → Bool
  | [] => true
  | [_] => true
  | a :: b :: r => a.1.lt b.1 && RegFile.sorted (b :: r)

/-! ### Reset values (R8) -/

/-- The pages whose PG_CTRL.EN resets to 1 (R74). -/
def enAtReset (p : Nat) : Bool :=
  match kindOf p with
  | some .bist => false
  | some .dram => false
  | some .trk => false
  | some .ten => p == 0x030
  | some .can => false
  | some .uart => false
  | some .spi => false
  | some .i2c => false
  | some .prs => false
  | some _ => true
  | none => false

/-- The default fault classes of a page (R515). -/
def classesAtReset (p : Nat) : Nat :=
  match kindOf p with
  | some k => defaultClasses k
  | none => 0

/-- The reset windows of TEN[0] (R312). -/
def tenWindowReset (off lo : Nat) : Nat :=
  if off = 0x080 then 0x40000
  else if off = 0x084 then (if lo = 0 then 4096 else 1)
  else if off = 0x088 then 0x80000
  else if off = 0x08C then (if lo = 0 then 785 else 1)
  else 0

/-- The reset value of a field of a page: that of its table, or the page's own where the manual gives one by page. -/
def resetOf (p : Nat) (f : Fld) : Nat :=
  if f.off = 0x008 ∧ f.lo = 0 then flag (enAtReset p)
  else if f.off = 0x020 then classesAtReset p
  else if p = 0x030 ∧ 0x080 ≤ f.off ∧ f.off ≤ 0x0BC then tenWindowReset f.off f.lo
  else f.rst

/-! ### Reading and writing one field -/

/-- The present value of a field; of an STG field, its staged value (R6, R48). -/
def Hub.get (h : Hub) (p : Nat) (f : Fld) : Nat :=
  (RegFile.find (if f.acc = .stg then h.staged else h.live) ⟨p, f.off, f.lo⟩).getD (resetOf p f)

/-- The committed value of an STG field: what the hardware uses (R48). -/
def Hub.cfg (h : Hub) (p : Nat) (f : Fld) : Nat :=
  (RegFile.find h.committed ⟨p, f.off, f.lo⟩).getD (resetOf p f)

/-- The hub with a field set; of an STG field, its staged value. -/
def Hub.put (h : Hub) (p : Nat) (f : Fld) (v : Nat) : Hub :=
  { h with
    live := if f.acc = .stg then h.live else RegFile.set h.live ⟨p, f.off, f.lo⟩ (resetOf p f) (v % 2 ^ f.w)
    staged := if f.acc = .stg then RegFile.set h.staged ⟨p, f.off, f.lo⟩ (resetOf p f) (v % 2 ^ f.w) else h.staged }

/-- The hub with the committed value of a field set. -/
def Hub.putCfg (h : Hub) (p : Nat) (f : Fld) (v : Nat) : Hub :=
  { h with committed := RegFile.set h.committed ⟨p, f.off, f.lo⟩ (resetOf p f) (v % 2 ^ f.w) }

/-- Whether a one-bit field reads 1. -/
def Hub.on (h : Hub) (p : Nat) (f : Fld) : Bool := h.get p f != 0

/-- Whether a one-bit field is committed as 1. -/
def Hub.cfgOn (h : Hub) (p : Nat) (f : Fld) : Bool := h.cfg p f != 0

/-- The value in effect of an expert field: the committed one where USE is committed as 1, else the one derived (R44). -/
def Hub.expert (h : Hub) (p : Nat) (use f : Fld) (derived : Nat) : Nat := if h.cfgOn p use then h.cfg p f else derived

/-- A counter raised by `n`, saturating (the counters of the register tables). -/
def Hub.addTo (h : Hub) (p : Nat) (f : Fld) (n : Nat) : Hub := h.put p f (satAdd f.w (h.get p f) n)

/-- A counter raised by one, saturating. -/
def Hub.inc (h : Hub) (p : Nat) (f : Fld) : Hub := h.addTo p f 1

/-- The PG_IRQ_RAW bits that a group's chapter defines, bit 31 FLT apart: the bits from 0 up to this number (R36, R627). -/
def irqFlags : Kind → Nat
  | .lc | .qos | .dram => 1
  | .bist | .rport | .sw | .host | .ten | .bank => 2
  | .mbx | .atr | .trk | .zone | .can | .ch => 4
  | .spi | .i2c => 5
  | .uart => 6
  | .prs => 8
  | .sys | .stw | .upd | .flt | .therm | .time | .topo | .brg | .eth => 3

/-- Of a number of flags, those that a page has: its chapter's and FLT (R36, R627). -/
def pageFlags (p v : Nat) : Nat :=
  match kindOf p with
  | some k => v % 2 ^ irqFlags k + 2 ^ 31 * flag (bitOf v 31)
  | none => 0

/-- A flag that the hardware has set on an edge of which more commands follow: writes that clear flags on this edge leave it set (R37). -/
def Hub.noteRisen (h : Hub) (place bit : Nat) : Hub :=
  if h.edge.more then
    { h with edge := { h.edge with risen := Map.put h.edge.risen place 0 (withBit (Map.getD h.edge.risen place 0) bit) } }
  else h

/-- A PG_IRQ_RAW flag of a page set. -/
def Hub.irq (h : Hub) (p bit : Nat) : Hub := (h.put p PG.IRQ_RAW (withBit (h.get p PG.IRQ_RAW) bit)).noteRisen p bit

/-- A field set, with a PG_IRQ_RAW flag where that changes it. -/
def Hub.putIrq (h : Hub) (p : Nat) (f : Fld) (v bit : Nat) : Hub :=
  if h.get p f = v % 2 ^ f.w then h else (h.put p f v).irq p bit

/-- Two 32-bit fields of a page read as one 64-bit number. -/
def Hub.get64 (h : Hub) (p : Nat) (lo hi : Fld) : Nat := h.get p lo + 2 ^ 32 * h.get p hi

/-- A 64-bit number put into two 32-bit fields of a page. -/
def Hub.put64 (h : Hub) (p : Nat) (lo hi : Fld) (v : Nat) : Hub := (h.put p lo v).put p hi (v / 2 ^ 32)

/-! ### Pages -/

/-- The page numbers that the rules name most. -/
def pSys : Nat := 0x000
def pLc : Nat := 0x001
def pStw : Nat := 0x002
def pUpd : Nat := 0x003
def pBist : Nat := 0x004
def pFlt : Nat := 0x005
def pTherm : Nat := 0x006
def pMbx : Nat := 0x007
def pHost : Nat := 0x008
def pTime : Nat := 0x010
def pTopo : Nat := 0x011
def pRport (i : Nat) : Nat := 0x012 + i
def pAtr : Nat := 0x014
def pBrg : Nat := 0x015
def pSw : Nat := 0x016
def pQos : Nat := 0x017
def pDram : Nat := 0x018
def pEth : Nat := 0x019
def pTrk (i : Nat) : Nat := 0x020 + i
def pTen (i : Nat) : Nat := 0x030 + i
def pZone (i : Nat) : Nat := 0x038 + i
def pCan (i : Nat) : Nat := 0x03C + i
def pBank (i : Nat) : Nat := 0x040 + i
def pUart (i : Nat) : Nat := 0x050 + i
def pSpi (i : Nat) : Nat := 0x060 + i
def pI2c (i : Nat) : Nat := 0x068 + i
def pPrs (i : Nat) : Nat := 0x080 + i
def pCh (i : Nat) : Nat := 0x100 + i

/-- Whether a page is fenced (PG_STAT.FENCED). -/
def Hub.fenced (h : Hub) (p : Nat) : Bool := h.on p PG.STAT_FENCED

/-- Whether a page is active: committed EN is 1 and its unit is not fenced (PG_STAT.ACTIVE). -/
def Hub.active (h : Hub) (p : Nat) : Bool := h.cfgOn p PG.CTRL_EN && !h.fenced p

/-! ### Free values and outputs -/

/-- A value that the manual leaves open, and the hub with the next one ready. -/
def Hub.fresh (h : Hub) : Nat × Hub := ((Config.freeValue h.free).toNat, { h with free := h.free + 1 })

/-- The hub with one more thing sent out. -/
def Hub.emit (h : Hub) (o : Out) : Hub := { h with out := h.out ++ [o] }

/-- The hub with several more things sent out. -/
def Hub.emits (h : Hub) (os : List Out) : Hub := { h with out := h.out ++ os }

/-- The edge of the command that begins: the one of the command before it where more were to follow, else a new one. -/
def EdgeState.next (e : EdgeState) : EdgeState :=
  match e.groups with
  | (n + 2) :: r => { groups := (n + 1) :: r, more := true, risen := if e.more then e.risen else [], want := if e.more then e.want else none }
  | _ :: r => { groups := r, risen := if e.more then e.risen else [], want := if e.more then e.want else none }
  | [] => {}

/-- The hub as a command finds it: what the last command sent out is gone, and no fault source waits to be judged. -/
def Hub.begin (h : Hub) : Hub := { h with out := [], edge := h.edge.next, sys := { h.sys with due := [] } }

/-- A fault source whose condition arises inside a hook: it is judged at the end of the command. -/
def Hub.note (h : Hub) (p src : Nat) : Hub := { h with sys := { h.sys with due := h.sys.due ++ [(p, src)] } }

/-- Whether something that began at an instant on C, in eighths of a tick, came before the last commit instant (R56). -/
def Hub.beforeCommit (h : Hub) (c8 : Nat) : Bool := decide (c8 < h.sys.commit8)

/-- What is done under the configuration before the last commit instant where that is asked for (R56). -/
def Hub.underPrior (h : Hub) (old : Bool) (k : Hub → Hub) : Hub :=
  if old then { k { h with committed := h.prior } with committed := h.committed } else k h

/-! ### Ring time (R169 to R174) -/

/-- Main-path ring time in units of 2^-32 tick (R169). -/
def Hub.main32 (h : Hub) : Nat := ((h.time.off + (h.time.c * h.time.rate : Nat)) % (2 ^ 96 : Nat)).toNat

/-- Main-path ring time in ticks. -/
def Hub.mainTicks (h : Hub) : Nat := h.main32 / 2 ^ 32

/-- Nanoseconds of the 500 MHz clock. -/
def Hub.ns (h : Hub) : Nat := 2 * h.clock

/-- Fall-back ring time in ticks: its nanoseconds divided by two (R172). -/
def Hub.fbTicks (h : Hub) : Nat := h.time.fb / 2 ^ 25

/-- The main path is in use in LOCKED, MASTER, HOLDOVER and RELOCK (R174). -/
def Hub.mainInUse (h : Hub) : Bool :=
  let s := h.get pTime TIME.STAT_STATE
  s == 2 || s == 3 || s == 4 || s == 5

/-- Ring time in ticks, from the path in use (R174). -/
def Hub.now (h : Hub) : Nat := if h.mainInUse then h.mainTicks else h.fbTicks

/-- The sub-tick of ring time in eighths of a tick (R169, R172). -/
def Hub.nowSub (h : Hub) : Nat :=
  if h.mainInUse then h.main32 / 2 ^ 29 % 8 else h.time.fb / 2 ^ 22 % 8

/-- Ring time in units of an eighth of a tick, 0.25 ns. -/
def Hub.now8 (h : Hub) : Nat := h.now * 8 + h.nowSub

/-- Ring time, in eighths of a tick, `ago` edges of the 500 MHz clock ago, from the path in use (R169, R172, R174). -/
def Hub.now8Ago (h : Hub) (ago : Nat) : Nat :=
  if h.mainInUse then ((h.time.off + ((h.time.c : Int) - ago) * h.time.rate) % (2 ^ 96 : Nat)).toNat / 2 ^ 29
  else (((h.time.fb : Int) - ago * h.get pTime TIME.FB_INC_INC) % (2 ^ 88 : Nat)).toNat / 2 ^ 22

/-- The stamp of an input edge that the synchroniser showed `ago` edges of the clock ago: that instant less the 16 ns of the input path, as a
64-bit number of eighths of a tick (R233, R335). -/
def Hub.inputStamp (h : Hub) (ago : Nat) : Nat := (h.now8Ago ago + 2 ^ 67 - 64) % 2 ^ 67

/-- The stamp of an output edge whose grid point lies `ahead` ticks ahead: 8 ns of driver and pad later (R18, R368). -/
def Hub.outputStamp (h : Hub) (ahead : Nat) : Nat := (h.now8 + 8 * ahead + 32) % 2 ^ 67

/-- Whether what is stamped now carries the fall-back flag (R14). -/
def Hub.onFallBack (h : Hub) : Bool := !h.mainInUse

/-! ### Supplies and references (R95, R105) -/

/-- Whether a domain is present, from the monitors (SYS.SUPPLY_STAT). -/
def Hub.present (h : Hub) (d : Supply) : Bool :=
  match d with
  | .bank k => bitOf (h.get pSys SYS.SUPPLY_STAT_BANK) (k % 16)
  | d => bitOf (h.get pSys SYS.SUPPLY_STAT_DOM) d.bit

/-- VKA and every core supply are present (R96). -/
def Hub.corePresent (h : Hub) : Bool := [Supply.vka, .core, .sram, .sdh, .io].all (fun d => h.present d)

/-- A group of pins that R98 holds while the domains it needs are absent. -/
inductive PinGroup where
  | bank (k : Nat)
  | ring
  | ether
  | pcie
  | zone
  | dram
  | flash
  | qspi
  | can
deriving DecidableEq, Repr

/-- Whether a pin group is held in the state of R98: a domain it needs is absent, the hub is in Shelf, or the DRAM controller is not enabled. Held, channel pins are high-impedance
with their pulls off, transmitters in electrical idle, gates clamped, the DRAM reset and CKE low, the flash deselected, QSPI data outputs and
CAN transmit pins high-impedance. -/
def Hub.pinsHeld (h : Hub) (g : PinGroup) : Bool :=
  Mode.ofCode (h.get pSys SYS.MODE_CUR) == .shelf ||
    !(match g with
      | .bank k => h.corePresent && h.present (.bank k)
      | .ring => h.corePresent && h.present .sd
      | .ether => h.corePresent && h.present .sd
      | .pcie => h.corePresent && h.present .sd
      | .zone => h.present .fp
      | .dram => h.corePresent && h.present .mem && h.cfgOn pDram PG.CTRL_EN
      | .flash => h.present .io
      | .qspi => h.present .io
      | .can => h.corePresent)

/-- Whether the SerDes lanes have their supply and their reference (R95, R106). -/
def Hub.serdesReady (h : Hub) : Bool := h.present .sd && h.on pSys SYS.CLK_STAT_REF156

/-- The SerDes PLLs of both ring ports lock or unlock with their supply and reference (R106); SD_LOCK shows them together. -/
def Hub.serdesPlls (h : Hub) : Hub :=
  (h.put (pRport 0) RPORT.STAT_PLL_LOCK (flag h.serdesReady)).put (pRport 1) RPORT.STAT_PLL_LOCK (flag h.serdesReady)

/-! ### The mode -/

/-- The mode in effect (R62). -/
def Hub.mode (h : Hub) : Mode := Mode.ofCode (h.get pSys SYS.MODE_CUR)

/-- Whether the core runs: not in Shelf, with VKA and every core supply present, and its reset released (R96, R100, R103). -/
def Hub.coreRuns (h : Hub) : Bool := h.mode != .shelf && h.sys.startup == 0 && h.corePresent

/-- The mode whose rules hold: in Maintenance, the mode in RETURN (R90). -/
def Hub.modeEff (h : Hub) : Mode :=
  match h.mode with
  | .maintenance => Mode.ofCode (h.get pSys SYS.MODE_RETURN)
  | m => m

/-- Whether the mode in effect lets outputs be driven (R62, R90). -/
def Hub.driving (h : Hub) : Bool := h.modeEff.drives

/-! ### Units (R519) and blocks under test (R585 to R596) -/

/-- The unit of a page, named by its first page: BANK[k] for the channels of bank k (R519). -/
def unitOf (p : Nat) : Nat := if 0x100 ≤ p ∧ p < 0x180 then 0x040 + (p - 0x100) / 8 else p

/-- The pages of a unit. -/
def unitPages (u : Nat) : List Nat :=
  if 0x040 ≤ u ∧ u < 0x050 then u :: (List.range 8).map (fun i => 0x100 + 8 * (u - 0x040) + i) else [u]

/-- The pages of the management partition (R585). -/
def managementPage (p : Nat) : Bool := p == pSys || p == pLc || p == pStw || p == pFlt || p == pMbx || p == pHost

/-- The units with memories that MEM tests, outside the management partition (R584, R596). -/
def memoryPage (p : Nat) : Bool :=
  match kindOf p with
  | some .topo => true | some .atr => true | some .brg => true | some .sw => true | some .trk => true | some .can => true
  | some .bank => true | some .ch => true | some .prs => true | some .eth => true
  | _ => false

/-- The pages under test in a phase of the full self-test (R587). -/
def phasePage (phase p : Nat) : Bool :=
  match phase with
  | 1 => memoryPage p
  | 2 => p == pRport 0 || p == pRport 1 || p == pEth
  | 3 => p == pTherm || (match kindOf p with
    | some .bank => true | some .ch => true | some .zone => true
    | _ => false)
  | 4 => !managementPage p && p != pBist
  | 5 => managementPage p
  | _ => false

/-- STAT.ELAPSED: the milliseconds since the test began (R599). -/
def Hub.bistElapsed (h : Hub) : Nat :=
  if h.on pBist BIST.STAT_STATE then min 65535 ((h.ns - h.bist.began) / 1000000) else h.get pBist BIST.STAT_ELAPSED

/-- Whether the block of a page is under test (R587, R595). -/
def Hub.underTest (h : Hub) (p : Nat) : Bool :=
  phasePage h.bist.phase p || (h.on pBist BIST.UNIT_BUSY && unitOf p == h.bist.unit)

/-! ### The Annex (R538, R539) -/

/-- The Annex's state: 0 NONE, 1 LOADED, 2 RUNNING, 3 STOPPED. -/
def Hub.annexState (h : Hub) : Nat := h.get pStw STW.STAT_ANX_STATE

/-- The Annex enters a state. -/
def Hub.setAnnex (h : Hub) (st : Nat) : Hub := (h.putIrq pStw STW.STAT_ANX_STATE st 0).put pStw PG.STAT_BLOCK st

/-- The Annex leaves RUNNING with a cause: its comparator is disarmed and what it has open at the bridge completes unseen (R539). -/
def Hub.annexExit (h : Hub) (st cause : Nat) : Hub :=
  if h.annexState ≠ 2 then h
  else
    let hide (o : Origin) : Origin := match o with
      | .annex _ => .none
      | o => o
    let h := (h.setAnnex st).put pStw STW.STAT_ANX_CAUSE cause
    { h with
      stw := { h.stw with cmpA := none, copWait := h.stw.copWait.filter (fun w => !w.1), calls := h.stw.calls.filter (fun c => match c.path with | .ecall _ => false | _ => true) }
      brg := { h.brg with
        slots := h.brg.slots.map (fun (e : Nat × ReadSlot) => (e.1, { e.2 with read := e.2.read.map (fun r => { r with origin := hide r.origin }) }))
        waiting := h.brg.waiting.map (fun i => { i with origin := hide i.origin }) } }

/-- Whether the Annex reaches a page at an offset (R538). -/
def Hub.annexMay (h : Hub) (p off : Nat) (write : Bool) : Bool :=
  if p = pSys ∨ p = pMbx then true
  else if p = pStw then write && off == 0x050
  else if p = pLc ∨ p = pUpd ∨ p = pBist then false
  else bitOf (h.get pStw (STW.ANX_PAGES_PAGES (p / 32 % 12))) (p % 32)

/-- An Annex access that its checks refuse: PMP_FAULT, and the Annex is stopped (R538). -/
def Hub.annexFault (h : Hub) : Hub := (h.annexExit 3 3).note pStw 2

/-- What becomes of an Annex access before it reaches the hub; none where it reaches it or another requester makes it (R538). -/
def Hub.annexTurned (h : Hub) (req : Req) (p off : Nat) (write : Bool) : Option Hub :=
  if req ≠ .annex then none
  else if h.annexState ≠ 2 then some h
  else if h.annexMay p off write then none
  else some h.annexFault

/-! ### Register accesses (R32 to R45, R113) -/

/-- An access recorded in SYS.ACC_ERR (R32, R33, R49). -/
def Hub.accErr (h : Hub) (req : Req) (p off : Nat) : Hub :=
  ((h.put pSys SYS.ACC_ERR_REQ req.code).put pSys SYS.ACC_ERR_PAGE p).put pSys SYS.ACC_ERR_OFFSET off

/-- A write refused under R41, recorded and counted. -/
def Hub.ownErr (h : Hub) (req : Req) (p off : Nat) : Hub :=
  (((h.put pSys SYS.OWN_ERR_REQ req.code).put pSys SYS.OWN_ERR_PAGE p).put pSys SYS.OWN_ERR_OFFSET off).inc
    pSys SYS.OWN_ERR_CNT_COUNT

/-- An access refused because of a gate (R113). -/
def Hub.gateErr (h : Hub) (req : Req) (p off : Nat) : Hub :=
  ((h.put pSys SYS.GATE_ERR_REQ req.code).put pSys SYS.GATE_ERR_PAGE p).put pSys SYS.GATE_ERR_OFFSET off

/-- The gate group of a page (R109). -/
def gateGroup (p : Nat) : Option Nat :=
  match kindOf p with
  | some .dram => some 0
  | some .eth => some 1
  | some .host => some 2
  | some .can => some 3
  | some .uart => if p < 0x058 then some 4 else some 5
  | some .spi => some 6
  | some .i2c => some 7
  | some .prs => if p < 0x090 then some 8 else some 9
  | some .bist => some 10
  | _ => none

/-- The gate state in effect of a group: 0 on, 1 clock-gated, 2 power-gated. -/
def Hub.gateState (h : Hub) (g : Nat) : Nat := slice (h.get pSys SYS.GATE_STAT_STATE) (2 * g) 2

/-- Whether a page's group is gated, or its ungating has not completed (R111, R113). -/
def Hub.gated (h : Hub) (p : Nat) : Bool :=
  match gateGroup p with
  | some g => h.gateState g != 0 || h.sys.ungating.contains g
  | none => false

/-- Whether a page's block runs: EN committed as 1, not fenced, not gated (R112). -/
def Hub.runs (h : Hub) (p : Nat) : Bool := h.active p && !h.gated p

/-- The owner in effect of a page. -/
def Hub.owner (h : Hub) (p : Nat) : Nat := h.cfg p PG.CTRL_OWNER

/-- Whether a requester counts as the owner of a page (R628). -/
def Hub.owns (h : Hub) (req : Req) (p : Nat) : Bool :=
  h.owner p == req.code || h.owner p == 0xE || h.owner p == 0xF

/-- Whether a requester may write a page (R41). -/
def Hub.mayWrite (h : Hub) (req : Req) (p : Nat) : Bool := h.owns req p || req == .secure

/-- Whether a register takes writes from a requester whoever owns its page: GATE_REQ and WDOG_KICK from the Annex (R110, R537). -/
def openTo (req : Req) (p off : Nat) : Bool :=
  req == .annex && ((p == pSys && off == 0x0DC) || (p == pStw && off == 0x050))

/-- Whether a requester may do what only the owner of SYS and the secure world may (R49, R93, R628). -/
def Hub.sysOwner (h : Hub) (req : Req) : Bool := h.owns req pSys || req == .secure

/-- The pages that remain writable in Safe-stop (R92). -/
def safeStopWritable (p : Nat) : Bool := p == pFlt || p == pUpd || p == pMbx || p == pSys || p == pLc

/-- Whether an access has a form that no register and no window takes (R33). -/
def badForm (off size : Nat) : Bool :=
  if off < 0xC00 then size != 4 || off % 4 != 0 else !(size == 1 || size == 2 || size == 4) || off % size != 0

/-- The registers of a page that lie outside its gated group (R113): PG_ID, PG_CTRL, PG_STAT and PG_SEAL. -/
def outsideGate (off : Nat) : Bool := off == 0x000 || off == 0x008 || off == 0x00C || off == 0x024

/-! ### The host port as a requester (R463, R468, R487) -/

/-- The host interface in effect: 0 none, 1 PCI Express, 2 QSPI (R463). -/
def Hub.hostIf (h : Hub) : Nat := h.get pHost HOST.STAT_IF

/-- Whether the PCI Express function takes memory requests: link up and D0. -/
def Hub.pcieServes (h : Hub) : Bool := h.hostIf == 1 && h.on pHost HOST.STAT_LINK_UP && !h.on pHost HOST.STAT_D3

/-- Whether the QSPI slave takes a transaction: it is the interface in effect and not gated (R109, R463). -/
def Hub.qspiServes (h : Hub) : Bool := h.hostIf == 2 && !h.gated pHost

/-- Whether a host can make accesses at all (R463). -/
def Hub.hostServed (h : Hub) : Bool := h.pcieServes || h.qspiServes

/-- Whether an access of a page is one by a host that cannot make any, or one that a fenced host port answers with an error: all but those to the
SYS page (R463, R487). -/
def Hub.hostTurned (h : Hub) (req : Req) (p : Nat) : Bool := req == .host && (!h.hostServed || (h.fenced pHost && p != pSys))

/-- The place that holds what a read of another register will latch into a field (R281, R488). -/
def latched (f : Fld) : Fld := { f with off := f.off + 0x40000 }

/-- An access of the host port that ends in an error response (R468). -/
def Hub.hostError (h : Hub) (read : Bool) (node addr status : Nat) : Hub :=
  let h := (((h.put pHost HOST.WERR_READ (flag read)).put pHost HOST.WERR_NODE node).put pHost HOST.WERR_STATUS status).put
    pHost HOST.WERR_ADDR_HI (addr / 2 ^ 32)
  let h := h.put pHost (latched HOST.WERR_LO_ADDR) addr
  if read then h else (h.inc pHost HOST.WERR_CNT_COUNT).irq pHost 1

/-! ### Statuses (R261) -/

/-- The statuses of R261 that a register access can have; 0x08 also stands for a refusal that the table has no code for. -/
def stNoTarget : Nat := 0x01
def stBadSize : Nat := 0x02
def stOwner : Nat := 0x03
def stTenant : Nat := 0x04
def stGated : Nat := 0x05
def stStaging : Nat := 0x06
def stOutRefused : Nat := 0x07
def stBusy : Nat := 0x08
def stReadOnly : Nat := 0x0A
def stBadReq : Nat := 0x0B

/-- The status of an access that readTurnedAway or turnedAway stops. -/
def Hub.stopStatus (h : Hub) (req : Req) (p off size : Nat) (write : Bool) : Nat :=
  if h.hostTurned req p then stBusy
  else if !usedPage p then stNoTarget
  else if badForm off size then stBadSize
  else if h.underTest p && off != 0 then stBusy
  else if write && !h.mayWrite req p && !openTo req p off then stOwner
  else if h.gated p && !outsideGate off then stGated
  else stBusy

/-- 0x07 for a write refused in Held under R76, 0x08 for any other refusal. -/
def Hub.outStatus (h : Hub) (output : Bool) : Nat := if h.modeEff = .held ∧ output then stOutRefused else stBusy

/-- The local address of a register (R256). -/
def pageAddr (p off : Nat) : Nat := 0x40000000 + 4096 * p + off

/-- A write at a local address has its status, 0 where it took effect: its requester hears of it, and an error of the host port is recorded. No host
is there to hear of an access that none can make (R463, R468). -/
def Hub.hear (h : Hub) (req : Req) (addr st : Nat) : Hub :=
  if req = .host ∧ st ≠ 0 then (if h.hostServed then (h.hostError false 0 addr st).emit (.resp req false) else h)
  else h.emit (.resp req (st == 0))

/-- A read at a local address ends in an error response (R468). -/
def Hub.readFails (h : Hub) (req : Req) (addr st : Nat) : Hub :=
  if req = .host then (if h.hostServed then (h.hostError true 0 addr st).emits [.data req 0, .resp req false] else h)
  else h.emits [.data req 0, .resp req false]

/-- The answer to a write that is turned away before it reaches the register; none where it is admitted.
The order is that of R34: the page, the form of the access, the owner, then the gate and the mode; an Annex access that its own checks
refuse does not reach the hub at all. -/
def Hub.turnedAway (h : Hub) (req : Req) (p off size : Nat) : Option Hub :=
  if h.hostTurned req p then some h
  else if (h.annexTurned req p off true).isSome then h.annexTurned req p off true
  else if !usedPage p then some (h.accErr req p off)
  else if badForm off size then some (h.accErr req p off)
  else if h.underTest p && off != 0 then some h
  else if !h.mayWrite req p && !openTo req p off then some (h.ownErr req p off)
  else if h.gated p && !outsideGate off then some (h.gateErr req p off)
  else if h.mode == .safeStop && !safeStopWritable p then some h
  else none

/-! ### Register commands -/

/-- A write to a register of a page: the common checks, then the register's own effect, then the completion; `bad` is the status where the register
refuses it. -/
def Hub.write (h : Hub) (req : Req) (p off : Nat) (k : Hub → Hub × Bool) (bad : Nat := stBusy) : Hub :=
  match h.turnedAway req p off 4 with
  | some e => e.hear req (pageAddr p off) (h.stopStatus req p off 4 true)
  | none => (k h).1.hear req (pageAddr p off) (if (k h).2 then 0 else bad)

/-- A write whose effect is always accepted. -/
def Hub.writeDo (h : Hub) (req : Req) (p off : Nat) (k : Hub → Hub) : Hub := h.write req p off (fun g => (k g, true))

/-- The record of a read that is turned away; none where it is admitted (R32, R33, R113, R538, R588). -/
def Hub.readTurnedAway (h : Hub) (req : Req) (p off size : Nat) : Option Hub :=
  if h.hostTurned req p then some h
  else if (h.annexTurned req p off false).isSome then h.annexTurned req p off false
  else if !usedPage p then some (h.accErr req p off)
  else if badForm off size then some (h.accErr req p off)
  else if h.underTest p && off != 0 then some h
  else if h.gated p && !outsideGate off then some (h.gateErr req p off)
  else none

/-- Whether an offset lies in the 256-byte window that begins at `base`. -/
def inWin (base off : Nat) : Bool := decide (base ≤ off) && decide (off < base + 0x100)

/-- A read of a register: the common checks, then what the register answers and does on being read. -/
def Hub.read (h : Hub) (req : Req) (p off : Nat) (k : Hub → Nat × Hub) : Hub :=
  match h.readTurnedAway req p off 4 with
  | some e => e.readFails req (pageAddr p off) (h.stopStatus req p off 4 false)
  | none => (k h).2.emit (.data req (k h).1)

/-- Whether a commit is being validated or is scheduled, so that staged values may not change (R54). -/
def Hub.commitBusy (h : Hub) : Bool := h.get pSys SYS.COMMIT_STATE_STATE != 0

/-- A staged write refused under R54, counted. -/
def Hub.blocked (h : Hub) : Hub := h.inc pSys SYS.COMMIT_STATE_BLOCKED

end Sys2Proof.Machine
end

