-- ==== Sys2Proof/Machine/RingOps.lean ====
section
/-!
DEFINITION. The ring ports' and the topology unit's shared operations: link states, sending, announcements, wrap, reach (R127 to R163).
Where the manual is open: DEDUCED, log entries 14 and 18; DESIGN CHOICE, log entry 55.
-/
namespace Sys2Proof.Machine

open Reg

/-! ### Ports -/

/-- A ring port's own state. -/
def Hub.port (h : Hub) (i : Nat) : PortState := Map.getD h.ports i {}

/-- A ring port's own state changed. -/
def Hub.setPort (h : Hub) (i : Nat) (f : PortState → PortState) : Hub := { h with ports := Map.put h.ports i {} (f (h.port i)) }

/-- The topology unit's state changed. -/
def Hub.setTopo (h : Hub) (f : TopoState → TopoState) : Hub := { h with topo := f h.topo }

/-- The other ring port. -/
def other (port : Nat) : Nat := if port = 0 then 1 else 0

/-- The link state of a ring port (R133). -/
def Hub.link (h : Hub) (port : Nat) : Nat := h.get (pRport port) RPORT.STAT_STATE

/-- Whether a port carries Bulk (R159). -/
def Hub.portOpen (h : Hub) (port : Nat) : Bool :=
  h.on pTopo (if port = 0 then TOPO.STAT_E_OPEN else TOPO.STAT_W_OPEN)

/-- Whether a port is parked (R164). -/
def Hub.parked (h : Hub) (port : Nat) : Bool := h.on pTopo (if port = 0 then TOPO.STAT_E_PARK else TOPO.STAT_W_PARK)

/-- A port parked or unparked. -/
def Hub.setPark (h : Hub) (port : Nat) (b : Bool) : Hub :=
  h.put pTopo (if port = 0 then TOPO.STAT_E_PARK else TOPO.STAT_W_PARK) (flag b)

/-- An error or event counter of a port. -/
def Hub.portCount (h : Hub) (port : Nat) (f : Fld) : Hub := h.inc (pRport port) f

/-! ### This node -/

/-- This node's ID; 0 if it has none (R142). -/
def Hub.nodeId (h : Hub) : Nat := h.get pTopo TOPO.STAT_NODE_ID_EFF

/-- A fuse word (R552). -/
def Hub.fuse (h : Hub) (i : Nat) : Nat := Map.getD h.fuses i 0

/-- The 128-bit unit ID, from fuse words 0 to 3 (R552). -/
def Hub.uid (h : Hub) : Nat := h.fuse 0 + 2 ^ 32 * h.fuse 1 + 2 ^ 64 * h.fuse 2 + 2 ^ 96 * h.fuse 3

/-- Whether this node's ID is fixed (TOPO.CFG.ID_MODE). -/
def Hub.idFixed (h : Hub) : Bool := h.cfgOn pTopo TOPO.CFG_ID_MODE

/-! ### Sending (R17, R127, R137, R150, R153) -/

/-- Whether a sequence number precedes another (R153). -/
def seqBefore (a b : Nat) : Bool := a != b && decide ((b + 65536 - a % 65536) % 65536 < 0x8000)

/-- A frame of this node put among those of its class that wait, in the order of their sequence numbers (R153). -/
def insertSeq (t : TxItem) : List TxItem → List TxItem
  | [] => [t]
  | u :: l => if seqBefore t.frame.hdr.seq u.frame.hdr.seq then t :: u :: l else u :: insertSeq t l

/-- A port's queue of the class and origin given, with one more item. -/
def PortState.push (p : PortState) (c : Cls) (transit : Bool) (t : TxItem) : PortState :=
  match c, transit with
  | .express, true => { p with transitX := p.transitX ++ [t] }
  | .express, false => { p with ownX := insertSeq t p.ownX }
  | .timed, true => { p with transitT := p.transitT ++ [t] }
  | .timed, false => { p with ownT := insertSeq t p.ownT }
  | _, _ => { p with links := p.links ++ [t] }

/-- The cells of the Express and Timed frames of this node that wait for a ring port (R287). -/
def PortState.ownCells (p : PortState) : Nat := (p.ownX ++ p.ownT).foldl (fun a t => a + t.frame.cells) 0

/-- The Express and Timed frames on their way to the queues of an egress port (R285). -/
def Hub.voqXt (h : Hub) (egress : Nat) : List VFrame :=
  (h.sw.voq.filter (fun (e : Nat × List VFrame) => e.1 / 3 % 8 == egress && e.1 % 3 != 2)).flatMap (fun (e : Nat × List VFrame) => e.2)

/-- The cells of the Express and Timed frames of the switch core that are bound for an egress port (R287). -/
def Hub.xtPortCells (h : Hub) (egress : Nat) : Nat :=
  (if egress < 2 then (h.port egress).ownCells else 0)
    + ((Map.getD h.sw.express (2 * egress) [] ++ Map.getD h.sw.express (2 * egress + 1) []).foldl (fun a q => a + q.cells) 0)
    + (h.voqXt egress).foldl (fun a v => a + v.item.cells) 0

/-- A frame that finds its egress port's share of the reserve full: discarded and counted (R287). -/
def Hub.dropXt (h : Hub) (egress : Nat) : Hub := ((h.inc pSw (SW.XT_DROP_COUNT egress)).irq pSw 1).note pSw 3

/-- An Express or Timed frame bound for a port: queued while the port is UP, else discarded and counted in SETTLE_DROP (R137); a frame
of this node only within the port's share of the reserve (R287). -/
def Hub.sendOn (h : Hub) (port : Nat) (transit : Bool) (t : TxItem) : Hub :=
  if h.link port ≠ 4 then h.portCount port RPORT.SETTLE_DROP_COUNT
  else if !transit ∧ h.cfg pSw SW.BUF_XT_PORT_MAX < h.xtPortCells port + t.frame.cells then h.dropXt port
  else h.setPort port (fun p => p.push t.frame.cls transit t)

/-- The next sequence number of a class (R153). -/
def Hub.nextSeq (h : Hub) (c : Cls) : Nat := if c = .express then h.topo.seqX else h.topo.seqT

/-- The sequence counter of a class after one frame (R153). -/
def Hub.bumpSeq (h : Hub) (c : Cls) : Hub :=
  h.setTopo (fun t => if c = .express then { t with seqX := (t.seqX + 1) % 65536 } else { t with seqT := (t.seqT + 1) % 65536 })

/-- An Express or Timed frame of this node as its copy in a direction carries it: both have the class's sequence number (R17, R120, R153). -/
def Hub.ownCopy (h : Hub) (f : Frame) (west : Bool) : Frame :=
  { f with hdr := { f.hdr with dual := true, src := h.nodeId, seq := h.nextSeq f.cls, hops := 0, wrapped := false, dir := west,
                               len := f.payload.length } }

/-- An Express or Timed frame of the time, Track and topology units, sent in both directions (R17). These units have no switch port (R11): their
frames join the ring ports' own queues at once (DEDUCED, log entry 22). A node without an ID sends none (R142). -/
def Hub.originate (h : Hub) (f : Frame) : Hub :=
  if h.nodeId = 0 then h
  else
    let g := (h.bumpSeq f.cls).sendOn 0 false { frame := h.ownCopy f false }
    g.sendOn 1 false { frame := h.ownCopy f true }

/-- The header of a link frame of this node (R120, R134, R147). -/
def Hub.linkHeader (h : Hub) (type len port : Nat) : Header :=
  { type := type, ten := 0xF, dst := 0, src := h.nodeId, len := len, dir := port == 1 }

/-- A link frame queued on a port. -/
def Hub.sendLink (h : Hub) (port type : Nat) (payload : List Byte) : Hub :=
  h.setPort port (fun p => p.push .link false
    { frame := { cls := .link, hdr := h.linkHeader type payload.length port, payload := payload } })

/-! ### Announcements (R149, R150) -/

/-- The generation of a port (R149). -/
def Hub.portGen (h : Hub) (port : Nat) : Nat := if port = 0 then h.topo.genE else h.topo.genW

/-- The generation of a port after a change of its openness, a BREAK or a HEAL (R149). -/
def Hub.bumpGen (h : Hub) (port : Nat) : Hub :=
  h.setTopo (fun t => if port = 0 then { t with genE := (t.genE + 1) % 65536 } else { t with genW := (t.genW + 1) % 65536 })

/-- The payload of an announcement (R149). -/
def Hub.announcement (h : Hub) (event port peer time : Nat) : List Byte :=
  leBytes 16 h.uid ++ leBytes 2 (h.get pTopo TOPO.INCARN_INC) ++ leBytes 1 event
    ++ leBytes 1 (port * 128 + flag h.idFixed * 64 + flag (h.portOpen 0) * 8 + flag (h.portOpen 1) * 4)
    ++ leBytes 2 (h.get pSys SYS.MODE_CUR) ++ leBytes 2 h.topo.genE ++ leBytes 2 h.topo.genW
    ++ leBytes 2 peer ++ leBytes 8 time ++ leBytes 4 0

/-- An announcement sent (R149): events 1 JOIN, 2 PRESENT, 3 LEAVE, 4 BREAK, 5 HEAL. -/
def Hub.announce (h : Hub) (event port peer time : Nat) : Hub :=
  h.originate { cls := .express, hdr := { type := 0x10, dst := 4095, ten := 0xF }, payload := h.announcement event port peer time }

/-! ### Duplicate-discard windows (R154 to R156) -/

/-- The key of a window. -/
def windowKey (src : Nat) (c : Cls) (port : Nat) : Nat := src * 4 + (if c = .timed then 2 else 0) + port

/-- Every window of a port emptied (R156). -/
def Hub.emptyPortWindows (h : Hub) (port : Nat) : Hub :=
  h.setTopo (fun t => { t with windows := t.windows.filter (fun e => e.1 % 2 != port) })

/-- Every window of an origin emptied (R151, R156). -/
def Hub.emptyOriginWindows (h : Hub) (src : Nat) : Hub :=
  h.setTopo (fun t => { t with windows := t.windows.filter (fun e => e.1 / 4 != src) })

/-! ### Bulk queues (R283, R295) -/

/-- The switch core's state changed. -/
def Hub.setSw (h : Hub) (f : SwState → SwState) : Hub := { h with sw := f h.sw }

/-- The number of a Bulk queue: egress port × 16 + queue. -/
def queueKey (egress queue : Nat) : Nat := egress * 16 + queue

/-- The frames of a Bulk queue, oldest first. -/
def Hub.queue (h : Hub) (key : Nat) : List QFrame := Map.getD h.sw.queues key []

/-- A Bulk queue set. -/
def Hub.setQueue (h : Hub) (key : Nat) (q : List QFrame) : Hub := h.setSw (fun s => { s with queues := Map.put s.queues key [] q })

/-! ### Members and reach (R151, R158) -/

/-- The break records of a port. -/
def Hub.records (h : Hub) (port : Nat) : List BreakRec := if port = 0 then h.topo.recE else h.topo.recW

/-- The break records of a port set, with the interrupt of R167 where one is created or removed. -/
def Hub.setRecords (h : Hub) (port : Nat) (rs : List BreakRec) : Hub :=
  let old := (h.records port).map BreakRec.sender
  let h := h.setTopo (fun t => if port = 0 then { t with recE := rs } else { t with recW := rs })
  if rs.map BreakRec.sender = old then h else h.irq pTopo 0

/-- The lowest HOPS + 1 over records. -/
def lowestReach (rs : List BreakRec) : Nat := rs.foldl (fun m r => min m (r.hops + 1)) 4095

/-- LIMIT_E or LIMIT_W: 0 while the port is not open, 4,095 when unbounded (R158). -/
def Hub.limit (h : Hub) (port : Nat) : Nat := if h.portOpen port then lowestReach (h.records port) else 0

/-- Whether a limit is unbounded. -/
def Hub.unbounded (h : Hub) (port : Nat) : Bool := h.portOpen port && h.records port == []

/-- Whether a member is reachable in a direction (R158). -/
def Hub.reaches (h : Hub) (m : Member) (port : Nat) : Bool :=
  match (if port = 0 then m.hopsE else m.hopsW) with
  | some n => decide (n + 1 ≤ h.limit port)
  | none => false

/-- The arc size of R158. -/
def Hub.arcSize (h : Hub) : Nat :=
  if h.unbounded 0 || h.unbounded 1 then
    1 + (h.topo.members.filter (fun e => h.reaches e.2 0 || h.reaches e.2 1)).length
  else min 4096 (h.limit 0 + h.limit 1 + 1)

/-- The member entry of a node. -/
def Hub.member (h : Hub) (id : Nat) : Option Member := Map.find h.topo.members id

/-- A member entry removed: its windows are emptied and its records go (R151, R156, R158). -/
def Hub.removeMember (h : Hub) (id : Nat) : Hub :=
  match h.member id with
  | none => h
  | some _ =>
    let h := (h.setTopo (fun t =>
      { t with members := Map.erase t.members id, heals := t.heals.filter (fun r => r.sender != id) })).irq pTopo 0
    let h := h.emptyOriginWindows id
    (h.setRecords 0 (h.topo.recE.filter (fun r => r.sender != id))).setRecords 1 (h.topo.recW.filter (fun r => r.sender != id))

/-! ### Wrap (R159) -/

/-- A Bulk frame wrapped: WRAPPED is set, DIR and HOPS stay (R159). -/
def QFrame.wrap (q : QFrame) : QFrame := { q with turned := true, frame := { q.frame with hdr := { q.frame.hdr with wrapped := true } } }

/-- What becomes of a Bulk frame queued for a port that is wrapped: an unwrapped unicast frame turns back, others end here (R152, R159). -/
def turnsBack (q : QFrame) : Bool := !q.frame.hdr.wrapped && !q.frame.hdr.group && q.frame.hdr.dst != 4095

/-- A flow's frames are held before they leave on a new direction (R161). -/
def Hub.holdFlow (h : Hub) (flow : Nat) : Hub :=
  h.setTopo (fun t => { t with heldFlows := t.heldFlows.filter (fun f => f != flow) ++ [flow] })

/-! ### Steering (R160, R161) -/

/-- The ring ports that a frame of this node leaves on, given its pinned direction, and how R160 counts it: 0 not, 1 STEERED, 2 NO_ROUTE. -/
def Hub.steer (h : Hub) (x : Header) (west : Bool) : List Nat × Nat :=
  let pinned := flag west
  if x.group ∨ x.dst = 4095 then (if h.unbounded 0 && h.unbounded 1 then ([pinned], 0) else ([0, 1], 0))
  else
    match h.member x.dst with
    | none => ([pinned], 0)
    | some m =>
      if h.reaches m pinned then ([pinned], 0)
      else if h.reaches m (other pinned) then ([other pinned], 1)
      else ([], 2)

/-- A flow leaves on a direction: where it left on the other before, it is held (R161). -/
def Hub.noteDirection (h : Hub) (flow port : Nat) : Hub :=
  let g := h.setTopo (fun t => { t with flowDir := Map.set t.flowDir flow port })
  match Map.find h.topo.flowDir flow with
  | some d => if d = port then h else g.holdFlow flow
  | none => g

/-- The frames of a ring port's Bulk queue that this node originated and that have not been wrapped. -/
def Hub.isOwnBulk (h : Hub) (q : QFrame) : Bool := q.frame.hdr.src == h.nodeId && !q.frame.hdr.wrapped && h.nodeId != 0

/-- A Bulk frame put into a queue. -/
def Hub.append (h : Hub) (key : Nat) (q : QFrame) : Hub := h.setQueue key (h.queue key ++ [q])

/-- A Bulk frame put into a ring port's queue; where the port is not open it turns back or ends (R152, R159). -/
def Hub.appendRing (h : Hub) (port queue : Nat) (q : QFrame) : Hub :=
  if h.portOpen port then h.append (queueKey port queue) q
  else if !turnsBack q then h.inc pTopo (if q.frame.hdr.wrapped then TOPO.WRAP_DROP_COUNT else TOPO.END_DROP_COUNT)
  else if h.portOpen (other port) then h.append (queueKey (other port) queue) q.wrap
  else h.inc pTopo TOPO.WRAP_DROP_COUNT

/-- A frame of this node as it leaves on a ring port. -/
def QFrame.toward (q : QFrame) (port : Nat) : QFrame := { q with frame := { q.frame with hdr := { q.frame.hdr with dir := port == 1 } } }

/-- One Bulk frame of this node steered anew (R160), where it has its place on `port` by `stay`. A group or broadcast frame leaves both ways once a
limit is bounded, and its copy off the pinned direction goes once both are unbounded again. -/
def Hub.resteerFrame (h : Hub) (port queue : Nat) (q : QFrame) (stay : Hub → QFrame → Hub) : Hub :=
  let x := q.frame.hdr
  let west := match Map.find h.sw.pins x.flow with | some p => p.west | none => port == 1
  match h.steer x west with
  | ([], _) => h.inc pTopo TOPO.NO_ROUTE_COUNT
  | ([p], n) =>
    if p = port then stay h { q with twin := false }
    else if q.twin then h
    else ((if n = 1 then h.inc pTopo TOPO.STEERED_COUNT else h).noteDirection x.flow p).appendRing p queue (q.toward p)
  | (_, _) =>
    if q.twin then stay h q
    else (stay h { q with twin := true }).appendRing (other port) queue { q.toward (other port) with twin := true, slots := [] }

/-- The waiting Bulk frames of this node steered anew after a change of LIMIT_E or LIMIT_W (R160): they leave their queues and enter anew; one whose
direction stays keeps its place, also on a port that is only settling (R137). -/
def Hub.resteer (h : Hub) : Hub :=
  let own := (h.sw.queues.filter (fun (e : Nat × List QFrame) => decide (e.1 < 32))).flatMap
    (fun (e : Nat × List QFrame) => (e.2.filter h.isOwnBulk).map (fun q => (e.1, q)))
  let rest (g : Hub) : Hub := (List.range 32).foldl (fun g key => g.setQueue key ((g.queue key).filter (fun q => !g.isOwnBulk q))) g
  if own = [] then h else own.foldl (fun g e => g.resteerFrame (e.1 / 16) (e.1 % 16) e.2 (fun g q => g.append e.1 q)) (rest h)

/-- A change of reach: what waits is steered anew where a limit has changed. -/
def Hub.resteerIf (h old : Hub) : Hub :=
  if h.limit 0 = old.limit 0 ∧ h.limit 1 = old.limit 1 ∧ h.unbounded 0 = old.unbounded 0 ∧ h.unbounded 1 = old.unbounded 1 then h
  else h.resteer

/-- One Bulk queue of a wrapped port moved to the other port's scheduler, with what ends here counted: where the other port is not open either,
a frame that has turned back ends there (R152, R165). -/
def Hub.wrapQueue (h : Hub) (port queue : Nat) : Hub :=
  let from_ := port * 16 + queue
  let to_ := other port * 16 + queue
  let qs := Map.getD h.sw.queues from_ []
  let back := qs.filter (fun q => turnsBack q && h.portOpen (other port))
  let twice := qs.filter (fun q => q.frame.hdr.wrapped || (turnsBack q && !h.portOpen (other port)))
  let ends := qs.filter (fun q => !q.frame.hdr.wrapped && !turnsBack q)
  let h := { h with sw := { h.sw with
    queues := Map.put (Map.put h.sw.queues to_ [] (Map.getD h.sw.queues to_ [] ++ back.map QFrame.wrap)) from_ [] [] } }
  (h.addTo pTopo TOPO.WRAP_DROP_COUNT twice.length).addTo pTopo TOPO.END_DROP_COUNT ends.length

/-- The topology unit wraps a port: all 16 Bulk queues move to the other port (R159). -/
def Hub.wrap (h : Hub) (port : Nat) : Hub := (List.range 16).foldl (fun g q => g.wrapQueue port q) h

/-- STAT.HEAL_PEND: a HEAL of this node awaits its T_h (R167). -/
def Hub.noteHeal (h : Hub) : Hub := h.put pTopo TOPO.STAT_HEAL_PEND (flag (h.topo.healAt != [] && h.nodeId != 0))

/-- A port ceases to be open: BREAK is sent for it and a pending heal is cancelled (R150, R162). -/
def Hub.breakPort (h : Hub) (port : Nat) : Hub :=
  let h := (h.put pTopo (if port = 0 then TOPO.STAT_E_OPEN else TOPO.STAT_W_OPEN) 0).setTopo
    (fun t => { t with healAt := Map.erase t.healAt port })
  let h := (h.bumpGen port).noteHeal
  h.announce 4 port (h.port port).peerSrc h.now

/-! ### Link states (R133) -/

/-- Whether a port's management pins show a module (R138). -/
def Hub.modulePresent (h : Hub) (port : Nat) : Bool :=
  h.cfgOn (pRport port) RPORT.CFG_SFP_MGMT && h.on (pRport port) RPORT.STAT_SFP_PRESENT

/-- The nominal rate that a module reports in byte 12 of its A0h page, in units of 100 MBd; 0 where there is none (R135). -/
def Hub.moduleRate (h : Hub) (port : Nat) : Nat := (Mem.read (h.port port).a0 12).toNat

/-- A rate setting in units of 100 MBd, rounded down. -/
def rateUnits (r : Nat) : Nat := if r = 1 then 103 else if r = 2 then 31 else 12

/-- Whether a module's nominal rate rules a rate out (R135). -/
def Hub.rateSkipped (h : Hub) (port r : Nat) : Bool :=
  h.modulePresent port && h.moduleRate port != 0 && decide (h.moduleRate port < rateUnits r)

/-- The rate that a port tries first: the fixed rate, or the first of the AUTO order that the module allows (R135). -/
def Hub.firstRate (h : Hub) (port : Nat) : Nat :=
  let r := h.cfg (pRport port) RPORT.CFG_RATE
  if r = 0 then ([1, 2, 3].find? (fun n => !h.rateSkipped port n)).getD 1 else r

/-- The dwell of a port under AUTO in units of 100 µs (R135, AUTO_DWELL). -/
def Hub.dwell (h : Hub) (port : Nat) : Nat := 10 * (h.port port).dwell.getD (16 + h.uid % 16)

/-- The level of a port's TX_DIS pin: high in OFF and DOWN, while the transmitter is held, and while the port is fenced (R98, R138). -/
def Hub.txDisable (h : Hub) (port : Nat) : Bool :=
  h.link port == 0 || h.link port == 6 || h.pinsHeld .ring || h.fenced (pRport port)

/-- The level of a port's RS pin: high at 10.3125 Gbaud; not driven with SFP_MGMT = 0 (R138). -/
def Hub.rateSelect (h : Hub) (port : Nat) : Option Bool :=
  if h.cfgOn (pRport port) RPORT.CFG_SFP_MGMT then some (h.get (pRport port) RPORT.STAT_RATE_EFF == 1) else none

/-- STAT.RATE_WARN: a fixed rate above the module's nominal rate. -/
def Hub.rateWarn (h : Hub) (port : Nat) : Hub :=
  let r := h.cfg (pRport port) RPORT.CFG_RATE
  h.put (pRport port) RPORT.STAT_RATE_WARN (flag (r != 0 && h.rateSkipped port r))

/-- The registers that show a port's delay (PD_E, PD_W). -/
def Hub.putDelay (h : Hub) (port : Nat) (valid : Bool) (mean : Nat) : Hub :=
  if port = 0 then (h.put pTime TIME.PD_E_VALID (flag valid)).put pTime TIME.PD_E_MEAN mean
  else (h.put pTime TIME.PD_W_VALID (flag valid)).put pTime TIME.PD_W_MEAN mean

/-- Entry to DOWN clears a port's delay filter (R178). -/
def Hub.clearDelay (h : Hub) (port : Nat) : Hub :=
  (h.setPort port (fun s => { s with pd := { nextId := s.pd.nextId, waiting := s.pd.waiting } })).putDelay port false 0

/-- Entry to UP: the delay is valid again once 16 values have been accepted (R178). -/
def Hub.restartDelay (h : Hub) (port : Nat) : Hub :=
  let h := h.setPort port (fun s => { s with pd := { s.pd with accepted := 0 } })
  if port = 0 then h.put pTime TIME.PD_E_VALID 0 else h.put pTime TIME.PD_W_VALID 0

/-- A Bulk frame being received on a port fails: the cells reserved for it are freed, and a frame that waits for its decision is not queued (R288). -/
def Hub.abandonBulk (h : Hub) (port : Nat) : Hub :=
  { h with sw := { h.sw with
    bulk := h.sw.bulk.map (fun a => if a.ingress = port ∧ a.part = .header then { a with part := .bad } else a)
    opening := h.sw.opening.filter (fun e => e.2.ingress != port) } }

/-- The Bulk frame that is open on a port discarded (R129). -/
def Hub.dropOpen (h : Hub) (port : Nat) : Hub := (h.setPort port (fun p => { p with rxOpen := none })).abandonBulk port

/-- A heal that a port awaits is no longer due: the port left UP, or its peer leaves (R162, R165). -/
def Hub.cancelOwnHeal (h : Hub) (port : Nat) : Hub := (h.setTopo (fun t => { t with healAt := Map.erase t.healAt port })).noteHeal

/-- A port begins a pass of the AUTO order, or takes its fixed rate (R135). -/
def Hub.beginPass (h : Hub) (port : Nat) : Hub :=
  (h.put (pRport port) RPORT.STAT_RATE_EFF (h.firstRate port)).setPort port (fun s => { s with pass := true })

/-- The status bits that a port's new state leaves: no refusal outside REFUSED, no locks without a signal (R133, R141). -/
def Hub.linkStatus (h : Hub) (port old new : Nat) : Hub :=
  let p := pRport port
  let h := if old = 7 then h.put p RPORT.STAT_REFUSE 0 else h
  if new = 0 ∨ new = 1 then ((h.put p RPORT.STAT_CDR_LOCK 0).put p RPORT.STAT_BLOCK_LOCK 0).put p RPORT.STAT_HI_BER 0 else h

/-- What follows from a port's entering a state, beyond the state itself. The manual gives none of these: when a port leaves UP, a Bulk frame of which
a part has been sent is lost uncounted, and so is one that is open in reception, which joins no count of R126 or R129; and a port that faces a
leaving node parks as it enters WAIT_SIGNAL (DESIGN CHOICE, log entries 18 and 55). -/
def Hub.enterLink (h : Hub) (port old new : Nat) : Hub :=
  let was := h
  let p := pRport port
  let h := if new = 4 then h.inc p RPORT.LINK_CNT_UPS else h
  let h := if new = 5 then h.inc p RPORT.LOCK_LOSS_COUNT else h
  let h := if new = 6 then ((h.inc p RPORT.LINK_CNT_DOWNS).emptyPortWindows port).clearDelay port else h
  let h := if new = 4 then h.restartDelay port else h
  let h := h.linkStatus port old new
  let h := if new = 0 then h.put p RPORT.STAT_RATE_EFF 0 else h
  let h := if new = 2 then h.setPort port (fun s => { s with pass := false }) else h
  let h := if new = 3 then h.setPort port (fun s =>
      { s with hellos := 0, helloAt := if old = 7 then s.helloAt else none, peerKa := false, peerLeaving := false, seed := none }) else h
  let h := if old = 4 then ((h.dropOpen port).setPort port (fun s => { s with txBulk := none })).cancelOwnHeal port else h
  let h := if new = 1 ∧ (h.port port).peerLeaving ∧ h.cfgOn pTopo TOPO.CFG_PARK_AUTO then h.setPark port true else h
  let h := if (old = 4 ∧ h.portOpen port) ∨ new = 6 then h.breakPort port else h
  (if (old = 4 ∨ old = 5) ∧ (new = 6 ∨ new = 7 ∨ new = 0) then h.wrap port else h).resteerIf was

/-- A port changes its link state (R133); PG_IRQ_RAW bit 0 shows every change. Frames queued for a port that leaves UP are
discarded under R137. -/
def Hub.setLink (h : Hub) (port new : Nat) : Hub :=
  let old := h.link port
  if old = new then h
  else
    let p := pRport port
    let s := h.port port
    let lost := s.transitX.length + s.ownX.length + s.transitT.length + s.ownT.length
    let h := if old = 4 then
        (h.addTo p RPORT.SETTLE_DROP_COUNT lost).setPort port
          (fun s => { s with transitX := [], ownX := [], transitT := [], ownT := [] })
      else h
    let h := if new = 5 ∨ new = 4 then h else h.setPort port (fun s => { s with links := [] })
    (((h.put p RPORT.STAT_STATE new).irq p 0).enterLink port old new)

/-- Whether a port may leave OFF: forwarding permitted, EN committed, TX_DIS clear, neither the port nor the topology unit fenced (R16, R133, R166). -/
def Hub.portPermitted (h : Hub) (port : Nat) : Bool :=
  h.mode.forwards && h.active (pRport port) && !h.cfgOn (pRport port) RPORT.CFG_TX_DIS && !h.fenced pTopo

/-- A port brought into line with what is permitted: OFF where it is not, WAIT_SIGNAL from OFF where it is (R133). -/
def Hub.alignPort (h : Hub) (port : Nat) : Hub :=
  if !h.portPermitted port then h.setLink port 0
  else if h.link port = 0 then (h.setLink port 1).beginPass port
  else h

/-- Both ports brought into line with what is permitted. -/
def Hub.alignPorts (h : Hub) : Hub := (h.alignPort 0).alignPort 1

/-- Loss of signal, CDR lock or block lock on a port, by its state (R133). In LOCKING, HELLO and REFUSED the port waits for a signal again: R133's
table gives no row for a port there whose SerDes loses its supply or reference (R99, R106; DESIGN CHOICE, log entry 55). -/
def Hub.portSignalLost (h : Hub) (port : Nat) : Hub :=
  let h := ((h.put (pRport port) RPORT.STAT_CDR_LOCK 0).put (pRport port) RPORT.STAT_BLOCK_LOCK 0)
  match h.link port with
  | 4 => h.setLink port 5
  | 2 => h.setLink port 1
  | 3 => h.setLink port 1
  | 7 => h.setLink port 1
  | _ => h

/-! ### This node's ID (R142 to R146) -/

/-- This node's ID and how it is held, with the interrupt of R167 where the ID changes. -/
def Hub.setId (h : Hub) (id how : Nat) : Hub := 
  ((h.putIrq pTopo TOPO.STAT_NODE_ID_EFF id 1).put pTopo TOPO.STAT_ID_STATE how).put pTopo TOPO.STAT_SEEDED 0

/-- The node takes an ID: a new incarnation, both sequence counters at 0, and JOIN (R150, R151, R153). -/
def Hub.takeId (h : Hub) (id how : Nat) : Hub :=
  let h := (h.setId id how).put pTopo TOPO.INCARN_INC h.time.c
  (h.setTopo (fun t => { t with seqX := 0, seqT := 0 })).announce 1 0 0 0

/-- The node withdraws: LEAVE under the old ID, then no ID (R146). -/
def Hub.withdraw (h : Hub) : Hub := (h.announce 3 0 0 0).setId 0 3

/-- What a commit of ID_MODE and NODE_ID does at T (R142, R146). `oldFixed` and `oldId` are the committed values before it. -/
def Hub.commitId (h : Hub) (oldFixed : Bool) (oldId : Nat) : Hub :=
  let want := h.cfg pTopo TOPO.CFG_NODE_ID
  if h.idFixed then
    if !oldFixed ∧ h.nodeId ≠ 0 ∧ h.nodeId = want then h.put pTopo TOPO.STAT_ID_STATE 2
    else if !oldFixed ∨ oldId ≠ want then (h.announce 3 0 0 0).takeId want 2
    else h
  else if oldFixed then h.put pTopo TOPO.STAT_ID_STATE (if h.nodeId = 0 then 0 else 1)
  else h

/-! ### Keep-alives and seeds (R145, R147) -/

/-- Whether the node is in position mode without an ID. -/
def Hub.numberless (h : Hub) : Bool := h.nodeId == 0 && !h.idFixed

/-- The lower of two seeds: by unit ID, then by count. -/
def lowerSeed (a b : Nat × Nat) : Nat × Nat :=
  if a.1 < b.1 then a else if b.1 < a.1 then b else if a.2 ≤ b.2 then a else b

/-- The seed that a port contributes: what it received within the last 100 µs while UP, its count below 4,095, raised by one (R145). -/
def Hub.portSeed (h : Hub) (port : Nat) : Option (Nat × Nat) :=
  match (h.port port).seed with
  | some (u, n, c) => if h.link port = 4 ∧ n < 4095 ∧ h.clock ≤ c + 50000 then some (u, n + 1) else none
  | none => none

/-- The seed of a keep-alive: the lowest candidate, or all ones and 0xFFFF (R145). -/
def Hub.seed (h : Hub) : Nat × Nat :=
  let own := if h.numberless then [(h.uid, 0)] else []
  match own ++ (h.portSeed 0).toList ++ (h.portSeed 1).toList with
  | [] => (2 ^ 128 - 1, 0xFFFF)
  | a :: r => r.foldl lowerSeed a

/-- The payload of a keep-alive (R147). -/
def Hub.keepAlive (h : Hub) : List Byte :=
  leBytes 1 (flag h.topo.leaving * 128 + flag h.idFixed * 64 + h.get pSys SYS.MODE_CUR) ++ leBytes 1 0
    ++ leBytes 2 (h.get pTopo TOPO.INCARN_INC) ++ leBytes 2 h.seed.2 ++ leBytes 16 h.seed.1 ++ leBytes 2 0

/-- A keep-alive queued on a port, the seed that it carries being noted (R148). -/
def Hub.sendKeepAlive (h : Hub) (port : Nat) : Hub :=
  (h.sendLink port 0x31 h.keepAlive).setPort port (fun p => { p with sentSeed := some h.seed })

end Sys2Proof.Machine
end

