-- ==== Sys2Proof/Machine/TimeOps.lean ====
section
/-!
DEFINITION. The time unit's shared operations: stamps, the state machine of the main path, its rate, the fall-back path (R169 to R190).
Where the manual is open: DEDUCED, log entry 19; DESIGN CHOICE, log entry 56.
-/
namespace Sys2Proof.Machine

open Reg

/-- The time unit's state changed. -/
def Hub.setTimeSt (h : Hub) (f : TimeState → TimeState) : Hub := { h with time := f h.time }

/-! ### Stamps (R175, R176) -/

/-- The calibration fuse words 9 to 23 (R552). -/
def Hub.calibrationWords (h : Hub) : List Nat := (List.range 15).map (fun i => h.fuse (9 + i))

/-- The transmit or receive latency of a port at its rate in effect, in ps (R175, R176). -/
def Hub.latency (h : Hub) (port : Nat) (tx : Bool) : Int :=
  let i := port * 3 + h.get (pRport port) RPORT.STAT_RATE_EFF - 1
  if h.cfgOn pTime (TIME.ASYM_USE i) then
    toSigned 15 (h.cfg pTime (if tx then TIME.ASYM_TX_LAT i else TIME.ASYM_RX_LAT i))
  else Config.calibration h.calibrationWords (2 * i + (if tx then 0 else 1))

/-- The temperature coefficient of a direction, in 0.1 ps/°C (R175, R176). -/
def Hub.tempCoef (h : Hub) (tx : Bool) : Int :=
  if h.cfgOn pTime TIME.TEMP_COEF_USE then toSigned 8 (h.cfg pTime (if tx then TIME.TEMP_COEF_TX_TC else TIME.TEMP_COEF_RX_TC))
  else Config.calibration h.calibrationWords (if tx then 12 else 13)

/-- A delay in 0.1 ps as 2^-16 ticks. -/
def tenthsToFine (x : Int) : Int := x * 65536 / 20000

/-- Ring time at a place on C, given in eighths of a tick, in 2^-16 tick and to an eighth of a tick (R169, R172). -/
def Hub.timeAt (h : Hub) (c8 : Nat) : Int :=
  let main : Int := (h.time.off * 8 + (c8 * h.time.rate : Nat)) / 2 ^ 32
  let fb : Int := ((h.time.fb : Int) + ((c8 : Int) - 8 * (h.time.c : Int)) * (h.get pTime TIME.FB_INC_INC : Int) / 8) / 2 ^ 22
  (if h.mainInUse then main else fb) * 2 ^ 13

/-- Time in 2^-16 tick as a signed value of the 64-bit count of ticks: sums and differences of ring times wrap with it (R169). -/
def wrap80 (x : Int) : Int := toSigned 80 (ofSigned 80 x)

/-- Main-path ring time at a place on C, whether or not the path is in use. -/
def Hub.mainAt (h : Hub) (c8 : Nat) : Int := (h.time.off * 8 + (c8 * h.time.rate : Nat)) / 2 ^ 32 * 2 ^ 13

/-- What the reference plane adds to a transmit stamp or takes from a receive stamp, in 2^-16 tick, with the junction temperature sampled every
1 ms (R175). -/
def Hub.ballShift (h : Hub) (port : Nat) (tx : Bool) : Int :=
  let tj8 := toSigned 16 h.time.tj
  let d := tenthsToFine (h.latency port tx * 10 + h.tempCoef tx * (tj8 - 200) / 8)
  if tx then d else -d

/-- A ball-referenced stamp of a port, in 2^-16 tick of ring time (R175). -/
def Hub.stamp (h : Hub) (port : Nat) (tx : Bool) (c8 : Nat) : Int := h.timeAt c8 + h.ballShift port tx

/-- The one-way delay of the receive direction of a port, where it is valid, in 2^-16 tick (R178, R179). -/
def Hub.dIn (h : Hub) (port : Nat) : Option Int :=
  let p := (h.port port).pd
  if p.accepted < 16 ∨ p.values = [] then none
  else some (p.values.foldl (fun a d => a + d) 0 / p.values.length
    + tenthsToFine (toSigned 16 (h.cfg pTime (if port = 0 then TIME.LINK_ASYM_EAST else TIME.LINK_ASYM_WEST)) * 10))

/-- A signed number as a register of `w` bits, saturating. -/
def satSigned (w : Nat) (x : Int) : Nat :=
  let top : Int := 2 ^ (w - 1)
  ofSigned w (if top ≤ x then top - 1 else if x < -top then -top else x)

/-! ### Rate and fall-back (R170, R172, R173) -/

/-- 200 ppm of the nominal rate. -/
def ppm200 : Int := 858993

/-- A rate offset held within a limit. -/
def clampTo (lim x : Int) : Int := if lim < x then lim else if x < -lim then -lim else x

/-- RATE set together with OFF, so that ring time is continuous now (R170). -/
def Hub.setRate (h : Hub) (new : Nat) : Hub :=
  let h := h.setTimeSt (fun t => { t with off := t.off + (t.c : Int) * ((t.rate : Int) - new), rate := new })
  (h.put pTime TIME.RATE_LO_FRAC (new % 2 ^ 32)).put pTime TIME.RATE_HI_INT (new / 2 ^ 32)

/-- The fall-back value loaded, in 2^-24 ns; a change of more than a tick is counted (R173). -/
def Hub.fbLoad (h : Hub) (v : Nat) : Hub :=
  let v := v % 2 ^ 88
  let d := (toSigned 88 (ofSigned 88 (Int.ofNat v - Int.ofNat h.time.fb))).natAbs
  let h := if 2 ^ 25 < d then h.inc pTime TIME.FB_LOADS_COUNT else h
  h.setTimeSt (fun t => { t with fb := v })

/-- The fall-back value copied from main-path ring time (R173). -/
def Hub.fbCopy (h : Hub) : Hub := h.fbLoad (h.main32 / 2 ^ 7)

/-! ### The state machine (R183, R184, R187) -/

/-- The state of the main path (TIME.STAT.STATE). -/
def Hub.timeState (h : Hub) : Nat := h.get pTime TIME.STAT_STATE

/-- The main time path is valid (R184). -/
def Hub.mainValid (h : Hub) : Bool :=
  let s := h.timeState
  s == 2 || s == 3 || ((s == 4 || s == 5) && h.time.leftAt.isSome && !h.time.holdExpired)

/-- The flags of TIME.STAT that follow from the state. -/
def Hub.noteTime (h : Hub) : Hub :=
  ((h.put pTime TIME.STAT_VALID (flag h.mainValid)).put pTime TIME.STAT_FB_USE (flag (!h.mainInUse))).put
    pTime TIME.STAT_IS_MASTER (flag (h.timeState == 3))

/-- The master in effect: its node ID, PRIO and unit ID; PG_IRQ_RAW bit 1 where another takes its place, a new PRIO of the same one being no change
of master (R187). -/
def Hub.setMaster (h : Hub) (id : Nat) (key : Option (Nat × Nat)) : Hub :=
  let k := key.getD (0, 0)
  let same := h.time.master.map (fun m => m.2) == key.map (fun m => m.2)
  let h := h.setTimeSt (fun t => { t with master := key })
  let h := (h.put pTime TIME.STAT_MASTER_ID id).put pTime TIME.STAT_MASTER_PRIO k.1
  let h := (List.range 4).foldl (fun g i => g.put pTime (TIME.MASTER_UID_UID i) (slice k.2 (32 * i) 32)) h
  if same then h else h.irq pTime 1

/-- A commit of PRIO at the master: its own key follows (R180, R186, R187). -/
def Hub.commitPrio (h : Hub) : Hub :=
  if h.timeState = 3 then h.setMaster (h.get pTime TIME.STAT_MASTER_ID) (some (h.cfg pTime TIME.CFG_PRIO, h.uid)) else h

/-- What a new state of the main path brings with it: the rate held or nominal, SYNC_LOSS, the master forgotten (R183, R195). HOLDOVER goes on
showing the former master, this node itself where it was the master (DESIGN CHOICE, log entry 56). -/
def Hub.enterTime (h : Hub) (new : Nat) : Hub :=
  match new with
  | 0 => (((h.setTimeSt (fun t => { t with rateInt := 2 ^ 32 })).setRate (2 ^ 32)).setMaster 0 none)
  | 3 => h.setRate h.time.rateInt
  | 4 => (h.setRate h.time.rateInt).note pTime 4
  | 6 => h.setMaster 0 none
  | 7 => h.setMaster 0 none
  | _ => h

/-- The main path changes its state (R183): the age of R184, the loop figures, and FB_DIFF where the path in use changes (R174). -/
def Hub.setTime (h : Hub) (new : Nat) : Hub :=
  let old := h.timeState
  if old = new then h
  else
    let wasUsed := h.mainInUse
    let fine (s : Nat) : Bool := s == 2 || s == 3
    let h := h.setTimeSt (fun t => { t with
      lockRun := 0, stepRun := 0, bigRun := 0, loopE := (0, 0), loopW := (0, 0),
      leftAt := if fine new then none else if fine old then some h.clock else t.leftAt,
      holdExpired := if fine new ∨ fine old then false else t.holdExpired })
    let h := if old = 3 then (h.put pTime TIME.LOOP_E_E 0).put pTime TIME.LOOP_W_W 0 else h
    let h := (((h.put pTime TIME.STAT_STATE new).irq pTime 0).enterTime new).noteTime
    if h.mainInUse = wasUsed then h
    else
      let diff := toSigned 96 ((h.main32 + 2 ^ 96 - h.time.fb * 2 ^ 7 % 2 ^ 96) % 2 ^ 96) / 2 ^ 24
      h.put pTime TIME.FB_DIFF_DIFF (satSigned 32 diff)

/-- The modes in which the main path is OFF (R183). -/
def timeOff : Mode → Bool
  | .shelf => true | .waking => true | .cellar => true | .test => true
  | _ => false

/-- The main path brought into line with the fence, the mode and EN (R183). Where both rows for any state hold, FENCED comes before OFF
(DESIGN CHOICE, log entry 56). -/
def Hub.alignTime (h : Hub) : Hub :=
  if h.fenced pTime then h.setTime 6
  else if timeOff h.mode ∨ h.cfgOn pTime PG.CTRL_EN = false then h.setTime 7
  else if h.timeState = 7 then (if h.mode = .safeStop then h else h.setTime 0)
  else if h.timeState = 6 then h.setTime 0
  else h

/-- The main path at a change of mode: entry to Islanded moves LOCKED and MASTER to HOLDOVER (R183). -/
def Hub.timeMode (h : Hub) : Hub :=
  let h := h.alignTime
  if h.mode = .islanded ∧ (h.timeState = 2 ∨ h.timeState = 3) then h.setTime 4 else h

/-- The core PLLs hold their frequency: the 25 MHz reference is lost and they have not yet switched over (R106). -/
def Hub.pllHeld (h : Hub) : Bool := !h.on pSys SYS.CLK_STAT_REF25 && !h.on pSys SYS.CLK_STAT_REF_SRC

/-- The order of master keys: the lower is the better (R186). -/
def betterKey (a b : Nat × Nat) : Bool := decide (a.1 < b.1) || (decide (a.1 = b.1) && decide (a.2 < b.2))

/-- This node's own key (R186). -/
def Hub.ownKey (h : Hub) : Nat × Nat := (h.cfg pTime TIME.CFG_PRIO, h.uid)

/-- Whether this node is a candidate for master (R186). -/
def Hub.timeCandidate (h : Hub) : Bool :=
  h.cfg pTime TIME.CFG_PRIO != 0 &&
    (match h.mode with
     | .armed => true | .running => true | .degraded => true | .maintenance => true | .safeStop => true
     | _ => false)

/-- The time unit as a soft reset leaves it: the counter, the conversion and the state from their beginnings; the fall-back path runs on (R61, R169, R195). -/
def Hub.resetTime (h : Hub) : Hub :=
  let h := { h with time := { fb := h.time.fb, tj := h.time.tj } }
  [0, 1].foldl (fun g p => g.setPort p (fun s => { s with pd := {}, helloAt := none, seed := none })) h

/-! ### Loop figures (R189) -/

/-- The master time that a sync frame carries, at its receive stamp, in 2^-16 tick (R182). -/
def syncTime (f : Frame) (d : Int) : Int :=
  (f.field 0 8 : Int) * 65536 + (f.field 8 1 % 8 : Nat) * 8192 + toSigned 64 (f.field 12 8) + d

/-- An average that is published after 64 values: the value, if complete, and the running sum and count. -/
def average64 (a : Int × Nat) (x : Int) : Option Int × (Int × Nat) :=
  if 63 ≤ a.2 then (some ((a.1 + x) / 64), (0, 0)) else (none, (a.1 + x, a.2 + 1))

/-- The master stamps the return of its own sync frame: on West into LOOP_E, on East into LOOP_W (R189). -/
def Hub.loopReturn (h : Hub) (port stamp : Nat) (f : Frame) : Hub :=
  if f.hdr.type = 3 ∧ f.cls = .timed ∧ f.lenOk ∧ h.timeState = 3 then
    let x := wrap80 (syncTime f ((h.dIn port).getD 0) - h.stamp port false stamp)
    if port = 1 then
      let r := average64 h.time.loopE x
      let h := h.setTimeSt (fun t => { t with loopE := r.2 })
      match r.1 with
      | some v => h.put pTime TIME.LOOP_E_E (satSigned 32 (v / 256))
      | none => h
    else
      let r := average64 h.time.loopW x
      let h := h.setTimeSt (fun t => { t with loopW := r.2 })
      match r.1 with
      | some v => h.put pTime TIME.LOOP_W_W (satSigned 32 (v / 256))
      | none => h
  else h

end Sys2Proof.Machine
end

