-- ==== Sys2Proof/Machine/ChanOps.lean ====
section
/-!
DEFINITION. The channel cells' shared operations: the pin matrix, safe values, output events, the timed-action queue and the positional actions held in queues and slots (R21 to R23, R327 to R353).
Where the manual is open: DEDUCED, log entry 38.
-/
namespace Sys2Proof.Machine

open Reg

/-! ### Channels -/

/-- A channel cell's own state. -/
def Hub.ch (h : Hub) (c : Nat) : ChState := Map.getD h.chans c {}

/-- A channel cell's own state changed. -/
def Hub.setCh (h : Hub) (c : Nat) (f : ChState → ChState) : Hub := { h with chans := Map.put h.chans c {} (f (h.ch c)) }

/-- The committed mode of a channel (R333): 0 INPUT, 1 OUTPUT, 2 PWM, 3 QUAD, 4 UNIT. -/
def Hub.chMode (h : Hub) (c : Nat) : Nat := h.cfg (pCh c) CH.CFG_MODE

/-- The class in effect of a bank; 0 for none (R327, R328). -/
def Hub.bankClass (h : Hub) (k : Nat) : Nat := h.get (pBank k) BANK.STAT_VCLASS

/-- Whether a bank is present and has a class, so that its levels are read (R633). -/
def Hub.bankReads (h : Hub) (k : Nat) : Bool := h.on (pBank k) BANK.STAT_VOK && h.bankClass k != 0

/-- Whether a channel's pin is driven or pulled as its cell asks: its bank and the core supplies are present, the bank has a class, and the hub
is not in Shelf; it is high-impedance with its pull off otherwise (R98, R328). -/
def Hub.pinPowered (h : Hub) (c : Nat) : Bool := !h.pinsHeld (.bank (c / 8)) && h.bankReads (c / 8)

/-- Whether the levels of a channel follow its pin: from Cellar on, its bank present with a class and not under test (R588, R633). -/
def Hub.levelsFollow (h : Hub) (c : Nat) : Bool := h.mode.fromCellar && h.bankReads (c / 8) && !h.underTest (pCh c)

/-- Whether edges of a channel are counted, captured and reacted to: its levels follow and its bank is not fenced (R331, R333). -/
def Hub.inputRuns (h : Hub) (c : Nat) : Bool := h.levelsFollow c && !h.fenced (pCh c)

/-! ### The pin matrix (R351) -/

/-- The number of the signal that a pin field of a page names: UART TX, RX, DE, RTS, CTS; SPI SCK, MOSI, MISO, then CS0 to CS3;
I2C SCL, SDA; PRS PIN0 to PIN7. -/
def pinSignal (page off lo : Nat) : Option Nat :=
  match kindOf page with
  | some .uart => if off = 0x060 then some (3 - lo / 8) else if off = 0x064 ∧ lo = 0 then some 4 else none
  | some .spi => if off = 0x060 ∧ 8 ≤ lo then some (3 - lo / 8) else if off = 0x064 then some 3 else none
  | some .i2c => if off = 0x060 then some (1 - lo / 8) else none
  | some .prs => if off = 0x044 then some (lo / 8) else if off = 0x048 then some (4 + lo / 8) else none
  | _ => none

/-- The claims that one committed field makes: channel, page, signal. A field of SPI chip selects holds four pin fields. -/
def claimsOf (e : Key × Nat) : List (Nat × Nat × Nat) :=
  match pinSignal e.1.page e.1.off e.1.lo with
  | none => []
  | some s =>
    let one (v s : Nat) : List (Nat × Nat × Nat) := if 128 ≤ v then [(v % 128, e.1.page, s)] else []
    if kindOf e.1.page = some .spi ∧ s = 3 ∧ e.1.off = 0x064 then
      (List.range 4).flatMap (fun i => one (slice e.2 (8 * i) 8) (3 + i))
    else one e.2 s

/-- Every claim of a configuration (R351). -/
def claimTable (r : RegFile) : List (Nat × Nat × Nat) := r.flatMap claimsOf

/-- The page and the signal that hold a channel (R351). -/
def Hub.claim (h : Hub) (c : Nat) : Option (Nat × Nat) :=
  ((claimTable h.committed).find? (fun e => e.1 == c)).map (fun e => e.2)

/-- The channel that a signal of a page claims. -/
def Hub.pinOf (h : Hub) (page signal : Nat) : Option Nat :=
  ((claimTable h.committed).find? (fun e => e.2.1 == page && e.2.2 == signal)).map (fun e => e.1)

/-! ### Safe values (R22, R62, R63) -/

/-- Whether a bank is shed (R332). -/
def Hub.bankShed (h : Hub) (k : Nat) : Bool := h.on (pBank k) BANK.STAT_SHED_ACT

/-- Whether a condition of R22 holds a channel at its safe value: the mode, a fence of its bank, shedding, a stale policy. -/
def Hub.safeCond (h : Hub) (c : Nat) : Bool :=
  !h.driving || h.fenced (pCh c) || h.bankShed (c / 8) || (h.ch c).policies != []

/-- Whether a channel drives its safe value: a condition holds, or none has been followed by an event (R22). -/
def Hub.safeNow (h : Hub) (c : Nat) : Bool := h.safeCond c || (h.ch c).waiting

/-- The onset of a safe-value condition: the safe value stays until the next event, and a pending end is cancelled (R22, R348). -/
def Hub.safeOnset (h : Hub) (c : Nat) : Hub := h.setCh c (fun s => { s with waiting := true, ending := none })

/-- The onset of a condition on every channel (R22). -/
def Hub.safeOnsetAll (h : Hub) : Hub := h.chans.foldl (fun g e => g.safeOnset e.1) h

/-- A stale policy (a Track, or 16 for an Atrium slot) takes hold of a channel's output (R218, R245). -/
def Hub.policyOn (h : Hub) (c who : Nat) : Hub :=
  (h.setCh c (fun s => { s with policies := if s.policies.contains who then s.policies else s.policies ++ [who] })).safeOnset c

/-- A stale policy lets go of every output that it holds. -/
def Hub.policyOff (h : Hub) (who : Nat) : Hub :=
  h.chans.foldl (fun g e => g.setCh e.1 (fun s => { s with policies := s.policies.filter (fun p => p != who) })) h

/-! ### Output events (R21) -/

/-- The pending end that falls due on this very tick: its source and its level (R348). -/
def ChState.endsNow (s : ChState) (now : Nat) : Option (Nat × Bool) :=
  match s.ending with
  | some (who, l, i) => if i % 2 ^ 64 = now % 2 ^ 64 then some (who, l) else none
  | none => none

/-- An event of a source on a channel's output: nothing while a condition of R22 holds; discarded where a higher source has acted on
this tick, or a higher source's pending end falls due on it; taken from the level before the tick where a lower one has; after an end of the
same source that falls due on it. `take` changes the cell from that level (R21, R348). -/
def Hub.event (h : Hub) (c src : Nat) (ending : Option (Nat × Bool × Nat)) (take : ChState → ChState) : Hub :=
  let s := h.ch c
  let end_ := s.endsNow h.now
  if h.safeCond c || (match end_ with
    | some (who, _) => decide (who < src)
    | none => false) then h
  else
    let from_ := match end_ with
      | some (who, l) => if who = src then { s with level := l } else s
      | none => s
    let go (base : Bool) (x : ChState) : Hub :=
      h.setCh c (fun _ => { take x with waiting := false, ending := ending, lastEvent := some (h.now, src, base) })
    match s.lastEvent with
    | none => go s.level from_
    | some (t, who, base) =>
      if t ≠ h.now then go s.level from_
      else if who < src then h
      else if who = src then go base from_
      else go base { s with level := base }

/-- An event that sets the output's level (R21, R341). -/
def Hub.levelEvent (h : Hub) (c src : Nat) (f : Bool → Bool) (ending : Option (Nat × Bool × Nat)) : Hub :=
  h.event c src ending (fun s => { s with level := f s.level })

/-- The length of a PWM period in units of 4 ns, and the number of the period at the present ring time (R344). -/
def Hub.pwmUnits (h : Hub) (c : Nat) : Nat := h.cfg (pCh c) CH.PWM_PERIOD * 2 ^ h.cfg (pCh c) CH.PWM_PRE
def Hub.pwmNumber (h : Hub) (c : Nat) : Nat := h.now / (2 * h.pwmUnits c)

/-- The waveform of a PWM output at the present ring time (R344). -/
def Hub.pwmLevel (h : Hub) (c : Nat) : Bool :=
  let period := h.pwmUnits c
  let duty := (h.ch c).duty
  duty == 0xFFFF || decide (h.now / 2 % period < duty * period / 65536)

/-- An event that sets the PWM duty from the next period on (R344). -/
def Hub.dutyEvent (h : Hub) (c src d : Nat) : Hub := h.event c src none (fun s => { s with nextDuty := some (d, h.pwmNumber c) })

/-- A pulse's pending end, `us` microseconds from now (R348). -/
def Hub.pulseEnd (h : Hub) (src : Nat) (level : Bool) (us : Nat) : Option (Nat × Bool × Nat) :=
  some (src, !level, (h.now + 500 * us) % 2 ^ 64)

/-! ### The timed-action queue (R345 to R349) -/

/-- The entry's operation, level, track, profile, policy, value (R345). -/
def QEntry.op (e : QEntry) : Nat := slice e.qe0 28 3
def QEntry.lvl (e : QEntry) : Bool := bitOf e.qe0 27
def QEntry.value (e : QEntry) : Nat := slice e.qe0 0 16

/-- The instant of an entry: that of its words, or F of a positional one. -/
def QEntry.instant (e : QEntry) : Option Nat :=
  match e.pos with
  | none => some (e.qe1 + 2 ^ 32 * e.qe2)
  | some b => b.fire

/-- An instant that is now or has passed, modulo 2^64 ticks (R347). -/
def due (now i : Nat) : Bool := decide (2 ^ 63 ≤ (i + 2 ^ 64 - now % 2 ^ 64) % 2 ^ 64) || i % 2 ^ 64 == now % 2 ^ 64

/-- An instant that has passed. -/
def passed (now i : Nat) : Bool := decide (2 ^ 63 ≤ (i + 2 ^ 64 - now % 2 ^ 64) % 2 ^ 64)

/-- An entry taken out of its queue; PG_IRQ_RAW bit 3 when the queue becomes empty (R356). -/
def Hub.takeEntry (h : Hub) (c number : Nat) : Hub :=
  let q := (h.ch c).queue
  let r := q.filter (fun e => e.number != number)
  let h := h.setCh c (fun s => { s with queue := r })
  if r = [] ∧ q ≠ [] then h.irq (pCh c) 3 else h

/-- An entry that leaves the queue without firing (R349). -/
def Hub.dropEntry (h : Hub) (c number : Nat) (byCommit : Bool) : Hub :=
  let h := (h.takeEntry c number).inc (pCh c) CH.Q_DROP_COUNT
  if byCommit then h.inc pSys SYS.COMMIT_DROPS_DROPS else h

/-- Every entry of a channel's queue discarded (R349). -/
def Hub.flushQueue (h : Hub) (c : Nat) (byCommit : Bool) : Hub :=
  (h.ch c).queue.foldl (fun g e => g.dropEntry c e.number byCommit) h

/-! ### Action slots (R410 to R412) -/

/-- The fired and dropped flags of an engine. -/
def Hub.flagsOf (h : Hub) (e : Nat) : Nat × Nat := Map.getD h.slotFlags e (0, 0)

/-- The fired and dropped flags of an engine set. -/
def Hub.setFlags (h : Hub) (e : Nat) (f : Nat × Nat) : Hub := { h with slotFlags := Map.put h.slotFlags e (0, 0) f }

/-- A slot disarmed. -/
def Hub.freeSlot (h : Hub) (e s : Nat) : Hub := { h with slots := Map.erase h.slots (e * 16 + s) }

/-- A slot whose action is discarded without firing: its dropped flag is set (R411). -/
def Hub.dropSlot (h : Hub) (e s : Nat) (byCommit : Bool) : Hub :=
  let f := h.flagsOf e
  let h := ((h.freeSlot e s).setFlags e (f.1, withBit f.2 s)).inc (pPrs e) PRS.ACT_DROP_COUNT
  if byCommit then h.inc pSys SYS.COMMIT_DROPS_DROPS else h

/-! ### Positional actions (R211, R212): those of channel c have owner c, those of engine e have owner 128 + e -/

/-- Every positional action: owner, number in the queue or slot, binding. -/
def Hub.binds (h : Hub) : List (Nat × Nat × PosBind) :=
  h.chans.flatMap (fun e => e.2.queue.filterMap (fun q => q.pos.map (fun b => (e.1, q.number, b))))
    ++ h.slots.filterMap (fun e => e.2.pos.map (fun b => (128 + e.1 / 16, e.1 % 16, b)))

/-- The positional actions of a Track. -/
def Hub.bindsOf (h : Hub) (k : Nat) : List (Nat × Nat × PosBind) := h.binds.filter (fun e => e.2.2.track == k)

/-- A positional action's binding changed. -/
def Hub.setBind (h : Hub) (owner number : Nat) (f : PosBind → PosBind) : Hub :=
  if owner < 128 then
    h.setCh owner (fun s => { s with queue := s.queue.map (fun q => if q.number = number then { q with pos := q.pos.map f } else q) })
  else
    let key := (owner - 128) * 16 + number
    match Map.find h.slots key with
    | none => h
    | some s => { h with slots := Map.set h.slots key { s with pos := s.pos.map f } }

/-- A positional action discarded without firing. -/
def Hub.dropAct (h : Hub) (owner number : Nat) (byCommit : Bool) : Hub :=
  if owner < 128 then h.dropEntry owner number byCommit else h.dropSlot (owner - 128) number byCommit

/-- The channels that an action would drive: its own, or those of the pins in a slot's mask (R218, R411). -/
def Hub.actChannels (h : Hub) (owner number : Nat) : List Nat :=
  if owner < 128 then [owner]
  else
    match Map.find h.slots ((owner - 128) * 16 + number) with
    | none => []
    | some s => (List.range 8).filterMap (fun i => if bitOf s.mask i then h.pinOf (pPrs (owner - 128)) i else none)

/-! ### Banks (R327 to R332, R633) -/

/-- The window of a class in mV (R327). -/
def classWindow : Nat → Nat × Nat
  | 1 => (1710, 1890)
  | 2 => (2375, 2625)
  | 3 => (3135, 3465)
  | 4 => (4750, 5250)
  | _ => (1, 0)

/-- Whether a class's window contains a voltage. -/
def inWindow (c mv : Nat) : Bool := decide ((classWindow c).1 ≤ mv) && decide (mv ≤ (classWindow c).2)

/-- The class whose window contains a voltage; 0 for none (R328). -/
def classOf (mv : Nat) : Nat :=
  if inWindow 1 mv then 1 else if inWindow 2 mv then 2 else if inWindow 3 mv then 3 else if inWindow 4 mv then 4 else 0

/-- A channel's raw and filtered levels put to the pin's level without an edge: 0 while its bank is absent or has no class (R334, R633).
The same is done when the input side starts, on entry to the first mode from Cellar on and after a test, where the manual states no level
(DESIGN CHOICE, log entry 38). -/
def Hub.levelSync (h : Hub) (c : Nat) : Hub :=
  let up := h.levelsFollow c
  h.setCh c (fun s =>
    let l := up && (s.ball != h.cfgOn (pCh c) CH.CFG_INV_IN)
    { s with raw := l, filt := l, measuring := none })

/-- The eight channels of a bank. -/
def bankChannels (k : Nat) : List Nat := (List.range 8).map (fun i => 8 * k + i)

/-- The levels of a bank's channels put to their pins' (R633). -/
def Hub.bankSync (h : Hub) (k : Nat) : Hub := (bankChannels k).foldl (fun g c => g.levelSync c) h

/-- The levels of every channel put to their pins', where the input side of some starts or stops. -/
def Hub.syncAll (h : Hub) : Hub := (List.range 16).foldl (fun g k => g.bankSync k) h

/-- A bank's presence and class; PG_IRQ_RAW bit 0 on a change, and the levels follow without an edge (R328, R359, R633). Pins that are powered again
start at their safe values (R98). -/
def Hub.setBank (h : Hub) (k : Nat) (vok : Bool) (cls : Nat) : Hub :=
  let p := pBank k
  if h.on p BANK.STAT_VOK = vok ∧ h.bankClass k = cls then h
  else
    let g := (((h.put p BANK.STAT_VOK (flag vok)).put p BANK.STAT_VCLASS cls).irq p 0).bankSync k
    if g.bankReads k && !h.bankReads k then (bankChannels k).foldl (fun g c => g.safeOnset c) g else g

/-- The class that a bank takes when its supply or a reset lets it choose: the committed one, or the measured one under AUTO;
a voltage outside the window raises SUPPLY_RANGE (R328, R330). -/
def Hub.chooseClass (h : Hub) (k : Nat) : Hub :=
  let p := pBank k
  let mv := h.get p BANK.STAT_VMEAS
  let sel := h.cfg p BANK.CFG_VSEL
  let h := h.setBank k true (if sel = 0 then classOf mv else sel)
  if (if sel = 0 then classOf mv = 0 else !inWindow sel mv) then h.note p 1 else h

/-- The voltage of a bank's supply, as the monitor sees it. -/
def Hub.setBankMv (h : Hub) (k mv : Nat) : Hub := { h with sys := { h.sys with bankMv := Map.put h.sys.bankMv k 0 mv } }

/-- The monitor measures a bank's supply (R328, R329). -/
def Hub.measureBank (h : Hub) (k : Nat) : Hub := h.put (pBank k) BANK.STAT_VMEAS (Map.getD h.sys.bankMv k 0)

/-- VDD_BANK[k] becomes present at a measured voltage (R327, R328). -/
def Hub.bankCame (h : Hub) (k mv : Nat) : Hub := ((h.setBankMv k mv).measureBank k).chooseClass k

/-- VDD_BANK[k] is lost: no class under AUTO, its levels read 0, and from Cellar on SUPPLY_LOST (R99, R328, R329, R633). -/
def Hub.bankWent (h : Hub) (k : Nat) : Hub :=
  let h := h.setBank k false (h.cfg (pBank k) BANK.CFG_VSEL)
  if h.mode.fromCellar then h.note (pBank k) 0 else h

/-- A commit's effect on a bank: an explicit class at once; under AUTO a bank without a class measures again, and one without a supply has none (R328). -/
def Hub.bankCommit (h : Hub) (k : Nat) : Hub :=
  let vok := h.on (pBank k) BANK.STAT_VOK
  if h.cfg (pBank k) BANK.CFG_VSEL ≠ 0 ∨ vok = false then h.setBank k vok (h.cfg (pBank k) BANK.CFG_VSEL)
  else if h.bankClass k = 0 then (h.measureBank k).chooseClass k
  else h

/-- A bank's shedding starts or ends; at its start the safe values come on (R22, R332, R359). -/
def Hub.setShed (h : Hub) (k : Nat) (b : Bool) : Hub :=
  if h.bankShed k = b then h
  else
    let h := (h.put (pBank k) BANK.STAT_SHED_ACT (flag b)).irq (pBank k) 1
    if b then (bankChannels k).foldl (fun g c => g.safeOnset c) h else h

/-- The banks that a shed level holds (R332). -/
def Hub.alignShed (h : Hub) (level : Nat) : Hub :=
  (List.range 16).foldl (fun g k =>
    let place := g.cfg (pBank k) BANK.CFG_SHED
    g.setShed k (decide (1 ≤ place) && decide (place ≤ level))) h

/-! ### Fences, resets and commits of a channel (R56, R331, R334, R348 to R350) -/

/-- A fence of a channel's bank: its queue and pending end go, and its safe value comes on (R331). -/
def Hub.fenceChannel (h : Hub) (c : Nat) : Hub := (h.flushQueue c false).safeOnset c

/-- A soft reset of a CH page: queue, FIFO and counts go uncounted, the reaction is armed; the pin, its filter and a safe value that
waits stay (R61, R349, R350). -/
def Hub.resetChannel (h : Hub) (c : Nat) : Hub :=
  let h := h.setCh c (fun s =>
    { ball := s.ball, raw := s.raw, filt := s.filt, measuring := s.measuring, pushes := s.pushes, waiting := s.waiting, policies := s.policies
      armed := h.cfgOn (pCh c) CH.REACT_EN })
  if h.chMode c = 3 then (h.put (pCh (c - c % 2)) CH.CNT_COUNT 0).put (pCh (c - c % 2 + 1)) CH.CNT_COUNT 0 else h

/-- A commit's effect on a channel, `old` being the committed values before it: entries whose channel's mode or claim changed go, and so
do those whose Track is no longer followed; INV_IN, a change of mode and a change of REACT act (R56, R334, R348 to R350). A pair that enters QUAD
starts from the count of its A channel (the manual does not say from which: DESIGN CHOICE, log entry 38). -/
def Hub.commitChannel (h old : Hub) (c : Nat) : Hub :=
  let p := pCh c
  let moved := h.chMode c != old.chMode c || h.claim c != old.claim c
  let gone := (h.ch c).queue.filter (fun e => moved ||
    (match e.pos with
     | some b => !h.cfgOn (pTrk b.track) PG.CTRL_EN
     | none => false))
  let h := gone.foldl (fun g e => g.dropEntry c e.number true) h
  let h := if h.chMode c = old.chMode c then h else h.setCh c (fun s => { s with ending := none, nextDuty := none })
  let h := if h.cfgOn p CH.CFG_INV_IN = old.cfgOn p CH.CFG_INV_IN then h else h.levelSync c
  let h := if h.chMode c = 3 ∧ old.chMode c ≠ 3 ∧ c % 2 = 1 then h.put p CH.CNT_COUNT (h.get (pCh (c - 1)) CH.CNT_COUNT) else h
  let same := [CH.REACT_EN, CH.REACT_ONCE, CH.REACT_ACT, CH.REACT_EDGE, CH.REACT_SRC, CH.REACT_WIDTH].all
    (fun f => h.cfg p f == old.cfg p f)
  if same then h else h.setCh c (fun s => { s with armed := h.cfgOn p CH.REACT_EN })

end Sys2Proof.Machine
end

