-- ==== Sys2Proof/Machine/TrackOps.lean ====
section
/-!
DEFINITION. The Track unit's shared operations: extrapolation, leads, conversion, the state machine and the stale policies (R198 to R225).
Where the manual is open: DEDUCED, log entry 20.
-/
namespace Sys2Proof.Machine

open Reg

/-- A Track's own state. -/
def Hub.track (h : Hub) (k : Nat) : TrackState := Map.getD h.tracks k {}

/-- A Track's own state changed. -/
def Hub.setTrack (h : Hub) (k : Nat) (f : TrackState → TrackState) : Hub := { h with tracks := Map.put h.tracks k {} (f (h.track k)) }

/-- Whether a Track is followed (R198). -/
def Hub.followed (h : Hub) (k : Nat) : Bool := h.cfgOn (pTrk k) PG.CTRL_EN

/-- Whether this node is a Track's source (R198). -/
def Hub.isSource (h : Hub) (k : Nat) : Bool := h.cfg (pTrk k) TRK.CFG_ROLE == 1

/-- The state of a Track (R207): 0 OFF, 1 ACQUIRE, 2 LIVE, 3 STALE, 4 FENCED. -/
def Hub.trackState (h : Hub) (k : Nat) : Nat := h.get (pTrk k) TRK.STAT_STATE

/-- The followed Tracks in ascending order: contexts 0 to 3 (R199). -/
def Hub.contexts (h : Hub) : List Nat := ((List.range 16).filter (fun k => h.followed k)).take 4

/-- The Tracks that hold a context and are not LIVE, one bit a context (R81). -/
def Hub.tracksUnlocked (h : Hub) : Nat :=
  ((h.contexts.zip (List.range 4)).filter (fun e => h.trackState e.1 != 2)).foldl (fun a e => a + 2 ^ e.2) 0

/-- The difference of two ring times in ticks, as a signed number. -/
def tickDiff (a b : Nat) : Int := toSigned 64 ((a % 2 ^ 64 + 2 ^ 64 - b % 2 ^ 64) % 2 ^ 64)

/-- The age of a Track in ticks; none while it is unbounded (R207). -/
def Hub.trackAge (h : Hub) (k : Nat) : Option Int := (h.track k).newest.map (fun s => tickDiff h.now s.ts)

/-- AGE_LIM and AGE_LIM2 in ticks. -/
def Hub.ageLim (h : Hub) (k : Nat) : Int := 50000 * h.cfg (pTrk k) TRK.LIMITS_AGE_LIM
def Hub.ageLim2 (h : Hub) (k : Nat) : Int := 50000 * h.cfg (pTrk k) TRK.LIMITS_AGE_LIM2

/-! ### Extrapolation (R209): intervals in 2^-19 tick, that is 2^-16 of an eighth -/

/-- Intervals of this unit in a second. -/
def unitsPerSec : Int := 500000000 * 524288

/-- An interval held within ±H. -/
def limitTo (lim x : Int) : Int := if lim < x then lim else if x < -lim then -lim else x

/-- H of R209 in interval units. -/
def Hub.horizon (h : Hub) (k : Nat) : Int := 500000 * 524288 * h.cfg (pTrk k) TRK.CONV_ACC_HOR

/-- The travel since TS at an interval Δ, in 2^-16 count, as the numerator over 2 · unitsPerSec². -/
def travel (s : Sample) (hor d : Int) : Int :=
  let dc := limitTo hor d
  512 * s.vel * d * unitsPerSec + 256 * s.acc * (2 * dc * d - dc * dc)

/-- The denominator of a travel. -/
def travelDen : Int := 2 * unitsPerSec * unitsPerSec

/-- p(t) at an interval Δ from TS, in 2^-16 count, modulo 2^48 (R209). -/
def positionAt (s : Sample) (hor d : Int) : Nat := ofSigned 48 ((s.pos : Int) + travel s hor d / travelDen)

/-- v(t) at an interval Δ from TS, in 1/256 count/s (R209). -/
def velocityAt (s : Sample) (hor d : Int) : Int := s.vel + s.acc * limitTo hor d / unitsPerSec

/-- The interval from a sample's TS to a ring time given in eighths of a tick, modulo 2^64 ticks. -/
def sinceSample (s : Sample) (t8 : Nat) : Int :=
  (toSigned 67 ((t8 % 2 ^ 67 + 2 ^ 67 - (s.ts * 8 + s.sub) % 2 ^ 67) % 2 ^ 67)) * 65536

/-- The interval from a sample's TS to the present ring time, in whole ticks. -/
def Hub.sinceTs (h : Hub) (s : Sample) : Int := sinceSample s (h.now * 8)

/-- The signed difference of two positions in 2^-16 count (R209). -/
def posDiff (a b : Nat) : Int := toSigned 48 ((a % 2 ^ 48 + 2 ^ 48 - b % 2 ^ 48) % 2 ^ 48)

/-- p(t) now; none while the Track has accepted no sample. -/
def Hub.trackPos (h : Hub) (k : Nat) : Option Nat :=
  (h.track k).newest.map (fun s => positionAt s (h.horizon k) (h.sinceTs s))

/-- The ring time in eighths of a tick, modulo 2^67, that a stamp's 64 bits stand for: the one nearest to the present. -/
def Hub.stampTime (h : Hub) (stamp : Nat) : Nat :=
  (((h.now8 : Int) + toSigned 64 ((stamp % 2 ^ 64 + 2 ^ 64 - h.now8 % 2 ^ 64) % 2 ^ 64)) % (2 ^ 67 : Nat)).toNat

/-- The position of a Track at a capture stamp, from the newest sample; none while it has accepted none (R210). -/
def Hub.positionAtStamp (h : Hub) (k stamp : Nat) : Option Nat :=
  (h.track k).newest.map (fun s => positionAt s (h.horizon k) (sinceSample s (h.stampTime stamp)))

/-- The age of a Track in 100 µs, saturating at 255; an unbounded age saturates (R207, R357). -/
def Hub.ageByte (h : Hub) (k : Nat) : Nat :=
  match h.trackAge k with
  | some a => min 255 (a.toNat / 50000)
  | none => 255

/-- What a capture records of a Track at its stamp: position, state and age (R210, R357). -/
def Hub.captureTrack (h : Hub) (k stamp : Nat) : Option Nat × Nat × Nat := (h.positionAtStamp k stamp, h.trackState k, h.ageByte k)

/-- A raw edge that the synchroniser shows now: stamped with the ring time of the path in use less the 16 ns of the input path, and with what the
followed Tracks hold at that moment (R174, R210, R335). -/
def Hub.rawEdge (h : Hub) : RawEdge :=
  { stamp := h.inputStamp 0, fb := h.onFallBack, at_ := h.clock
    tracks := h.contexts.map (fun k => (k, h.captureTrack k (h.inputStamp 0))) }

/-- What a raw edge recorded of a Track; one that was not followed is OFF, its age saturated. -/
def RawEdge.sight (x : RawEdge) (k : Nat) : Option Nat × Nat × Nat := Map.getD x.tracks k (none, 0, 255)

/-! ### Leads (R213) -/

/-- A speed point in 1/256 count/s and its lead in µs. -/
def Hub.leadPoint (h : Hub) (k q i : Nat) : Int × Int :=
  (2048 * h.cfg (pTrk k) (TRK.LEAD_TAB_SPEED (8 * q + i)), toSigned 16 (h.cfg (pTrk k) (TRK.LEAD_TAB_LEAD (8 * q + i))))

/-- The points of a profile that are used. -/
def Hub.leadPoints (h : Hub) (k q : Nat) : List (Int × Int) :=
  (List.range (h.cfg (pTrk k) (TRK.PROF_CFG_NPTS q))).map (fun i => h.leadPoint k q i)

/-- The nearest integer to a quotient, ties upward. -/
def nearest (n d : Int) : Int := (2 * n + d) / (2 * d)

/-- The speed lead in ticks at a velocity, interpolated in the points (R213). -/
def speedLead (v : Int) : List (Int × Int) → Int
  | [] => 0
  | [a] => a.2 * 500
  | a :: b :: r =>
    if v ≤ a.1 then a.2 * 500
    else if v ≤ b.1 ∧ a.1 < b.1 then nearest (500 * (a.2 * (b.1 - a.1) + (b.2 - a.2) * (v - a.1))) (b.1 - a.1)
    else speedLead v (b :: r)

/-- L(v) of a profile in ticks (R213). -/
def Hub.lead (h : Hub) (k q : Nat) (v : Int) : Int := (h.cfg (pTrk k) (TRK.LEAD_TIME_TICKS q) : Int) + speedLead v (h.leadPoints k q)

/-! ### Conversion (R214) -/

/-- Newton steps from an interval until the residual is below 2^-16 count; none where the velocity is not positive or `fuel` runs out. -/
def newton (s : Sample) (hor d : Int) : Nat → Int → Option Int
  | 0, _ => none
  | fuel + 1, t =>
    let g := travel s hor t - d * travelDen
    if g.natAbs < travelDen.natAbs then some t
    else
      let v := 512 * (s.vel * unitsPerSec + s.acc * limitTo hor t)
      if v ≤ 0 then none else newton s hor d fuel (t - g / v)

/-- The interval at which the velocity falls to MIN_V (in 1/256 count/s), if it does within the horizon. -/
def fallTime (s : Sample) (hor minV : Int) : Option Int :=
  if s.acc < 0 then
    let t := (s.vel - minV) * unitsPerSec / (-s.acc)
    if t ≤ hor then some t else none
  else none

/-- Whether the velocity falls to MIN_V before the distance d is covered (R214). -/
def fallsShort (s : Sample) (hor minV d : Int) : Bool :=
  match fallTime s hor minV with
  | none => false
  | some t => decide (travel s hor t < d * travelDen)

/-- Δh of a conversion (R214): the least interval from TS at which the position is the target, 0 where the target lies behind P;
none where the conversion is halted. `tc` is the interval from TS to the conversion. -/
def hitTime (s : Sample) (hor minV : Int) (target : Nat) (tc : Int) : Option Int :=
  let v := velocityAt s hor tc
  let d := posDiff target s.pos
  if v ≤ minV then none
  else if d ≤ 0 then some 0
  else if fallsShort s hor minV d then none
  else
    let start := tc + posDiff target (positionAt s hor tc) * unitsPerSec / (256 * v)
    (newton s hor d 64 start).map (fun t => max 0 t)

/-- A conversion now: F, the velocity at the hit and the lead; none where it is halted (R214). -/
def Hub.convert (h : Hub) (s : Sample) (b : PosBind) : Option (Nat × Int × Int) :=
  let k := b.track
  let hor := h.horizon k
  (hitTime s hor (256 * h.cfg (pTrk k) TRK.CONV_MIN_V) b.target (h.sinceTs s)).map (fun t =>
    let v := velocityAt s hor t
    let l := h.lead k b.prof v
    (ofSigned 64 (nearest (((s.ts * 8 + s.sub : Nat) : Int) * 65536 + t - l * 524288) 524288), v, l))

/-- Whether an instant lies less than 1 µs ahead, or is now. -/
def imminent (now i : Nat) : Bool := let d := tickDiff i now; decide (0 ≤ d) && decide (d < 500)

/-- Whether a firing instant is set and imminent. -/
def imminentFire (now : Nat) : Option Nat → Bool
  | some f => imminent now f
  | none => false

/-- A positional action converted with a sample: applied, or counted and not applied where the F it would replace
lies less than 1 µs ahead, whatever it yields (R20, R214). -/
def Hub.convertAct (h : Hub) (s : Sample) (owner number : Nat) (b : PosBind) : Hub :=
  let p := pTrk b.track
  let h := h.setBind owner number (fun x => { x with new := false })
  let near := imminentFire h.now b.fire
  match h.convert s b with
  | none =>
    if near then h.inc p TRK.CONV_KEPT_COUNT
    else (h.inc p TRK.HALTED_COUNT).setBind owner number (fun x => { x with fire := none })
  | some (f, v, l) =>
    if near then h.inc p TRK.CONV_KEPT_COUNT
    else h.setBind owner number (fun x => { x with fire := some f, vh := v, lead := l })

/-! ### Stale policies (R218, R219) -/

/-- Whether a Track's age exceeds AGE_LIM2; an unbounded age does. -/
def Hub.beyondLim2 (h : Hub) (k : Nat) : Bool :=
  match h.trackAge k with
  | none => true
  | some a => decide (h.ageLim2 k < a)

/-- A pending action on a Track that is not LIVE follows its policy (R218). -/
def Hub.stalePolicy (h : Hub) (owner number : Nat) (b : PosBind) : Hub :=
  let p := pTrk b.track
  match b.policy with
  | 1 => if h.beyondLim2 b.track then (h.dropAct owner number false).inc p TRK.POL_DROP_COUNT else h
  | 2 =>
    let cs := h.actChannels owner number
    let h := (h.dropAct owner number false).inc p TRK.POL_SAFE_COUNT
    cs.foldl (fun g c => g.policyOn c b.track) h
  | _ => (h.dropAct owner number false).inc p TRK.POL_DROP_COUNT

/-- At the edge on which a Track leaves LIVE: an action whose F is less than 1 µs ahead fires at F, every other follows its policy (R218). -/
def Hub.leaveLive (h : Hub) (k : Nat) : Hub :=
  (h.bindsOf k).foldl (fun g e =>
    if imminentFire h.now e.2.2.fire then g.setBind e.1 e.2.1 (fun b => { b with committed := true }) else g.stalePolicy e.1 e.2.1 e.2.2) h

/-- Every pending action of a Track discarded, each counted by `count`. -/
def Hub.dropTrack (h : Hub) (k : Nat) (byCommit : Bool) (count : Hub → Hub) : Hub :=
  (h.bindsOf k).foldl (fun g e => count (g.dropAct e.1 e.2.1 byCommit)) h

/-! ### The state machine (R207) -/

/-- The lock count shown (STAT.LOCK_CNT). -/
def Hub.setLock (h : Hub) (k n : Nat) : Hub := (h.setTrack k (fun t => { t with lock := n })).put (pTrk k) TRK.STAT_LOCK_CNT (min 15 n)

/-- No conversion pass of a Track waits any more. -/
def Hub.dropPasses (h : Hub) (k : Nat) : Hub := { h with passes := h.passes.filter (fun x => x != k) }

/-- A Track's samples discarded: its age becomes unbounded (R207, R220). -/
def Hub.forgetSamples (h : Hub) (k : Nat) : Hub :=
  (h.setTrack k (fun t => { t with newest := none, inAcquire := false, pass := none, passAgain := false })).dropPasses k

/-- A Track changes its state: PG_IRQ_RAW bit 0; on leaving LIVE the stale policies; on entering it they end; in OFF its actions and
samples go (R56, R207, R218). -/
def Hub.setTrackState (h : Hub) (k new : Nat) : Hub :=
  let old := h.trackState k
  if old = new then h
  else
    let p := pTrk k
    let h := (h.put p TRK.STAT_STATE new).irq p 0
    let h := if old = 2 then h.inc p TRK.STALE_CNT_COUNT else h
    let h := if new = 1 then h.setTrack k (fun t => { t with inAcquire := false, passOld := t.pass.isSome }) else h
    match new with
    | 0 => (((h.dropTrack k true id).policyOff k).setLock k 0).forgetSamples k
    | 2 => h.policyOff k
    | _ => if old = 2 then h.leaveLive k else h

/-- The time that a Track needs is there: for a follower a valid main path, for a source's own context one in use (R206, R207). -/
def Hub.trackTime (h : Hub) (k : Nat) : Bool := if h.isSource k then h.mainInUse else h.mainValid

/-- LIVE at the first edge at which the lock count and the age allow it (R207). -/
def Hub.tryLive (h : Hub) (k : Nat) : Hub :=
  if h.trackState k = 1 ∧ h.cfg pSys SYS.MODE_CFG_LOCK_SAMPLES ≤ (h.track k).lock ∧ h.trackTime k then
    (match h.trackAge k with
     | some a => if a ≤ h.ageLim k then h.setTrackState k 2 else h
     | none => h)
  else h

/-- A Track brought into line with EN and its fence (R207). -/
def Hub.alignTrack (h : Hub) (k : Nat) : Hub :=
  if !h.followed k then h.setTrackState k 0
  else if h.fenced (pTrk k) then h.setTrackState k 4
  else if h.trackState k = 0 then
    (((h.setTrack k (fun t => { t with history := [], encFault := false, preset := false, ssiPreset := none })).setTrack k (fun t =>
      { t with smpCount := 0, ssiCount := 0, ssiLast := 0, ssiReading := false })).setLock k 0).setTrackState k 1
  else if h.trackState k = 4 then (h.setLock k 0).setTrackState k 1
  else h

/-- A LIVE Track whose time is no longer there becomes STALE (R207). -/
def Hub.trackTimeLost (h : Hub) (k : Nat) : Hub := if h.trackState k = 2 ∧ !h.trackTime k then h.setTrackState k 3 else h

/-- Every Track brought into line with the time that it needs; one whose lock is complete enters LIVE at the first edge that allows it (R207). -/
def Hub.tracksTime (h : Hub) : Hub := (h.tracks.map (fun e => e.1)).foldl (fun g k => (g.trackTimeLost k).tryLive k) h

/-- A soft reset of a TRK page: back to ACQUIRE, its samples and a source's history discarded; statistics and pending actions stay, and
the actions follow their policies (R220). -/
def Hub.resetTrack (h : Hub) (k : Nat) (was : Nat) : Hub :=
  let h := (h.setTrack k (fun t => { bins := t.bins, open_ := t.open_, misses := t.misses, srcGen := t.srcGen })).dropPasses k
  let h := if h.followed k then h.put (pTrk k) TRK.STAT_STATE (if h.fenced (pTrk k) then 4 else 1) else h
  if h.followed k then
    (h.bindsOf k).foldl (fun g e => if e.2.2.committed then g else
      if was = 2 ∧ imminentFire h.now e.2.2.fire then
        g.setBind e.1 e.2.1 (fun b => { b with committed := true })
      else g.stalePolicy e.1 e.2.1 e.2.2) h
  else h

/-! ### Drift (R222 to R225) -/

/-- A firing with MEASURE on a profile that measures: a measurement opens, or is counted as an overlap (R222). -/
def Hub.openMeasure (h : Hub) (b : PosBind) : Hub :=
  let p := pTrk b.track
  if !b.measure || !h.cfgOn p (TRK.PROF_CFG_FB_EN b.prof) then h
  else
    match Map.find (h.track b.track).open_ b.prof with
    | some _ => h.inc p TRK.FB_OVERLAP_COUNT
    | none => h.setTrack b.track (fun t => { t with
        open_ := Map.set t.open_ b.prof { fire := b.fire.getD 0, firedAt := h.now, vh := b.vh, lead := b.lead, target := b.target } })

/-- The point nearest to a velocity, ties to the lower (R223). -/
def nearestPoint (v : Int) (ps : List (Int × Int)) : Nat :=
  let best := ps.foldl (fun (a : Nat × Nat × Nat) p =>
    let d := (v - p.1).natAbs
    if a.1 = 0 ∨ d < a.2.2 then (a.1 + 1, a.1, d) else (a.1 + 1, a.2.1, a.2.2)) (0, 0, 0)
  best.2.1

/-- A bin with one more measurement (R224). -/
def addToBin (b : Bin) (dev res : Int) : Bin :=
  let n := b.count
  let sum := b.sum + dev
  let resSum := b.resSum + res
  { count := min (2 ^ 32 - 1) (n + 1)
    mean := if n < 16 then sum / (n + 1) else b.mean + (dev - b.mean) / 16
    res := if n < 16 then resSum / (n + 1) else b.res + (res - b.res) / 16
    min := if n = 0 then dev else min b.min dev
    max := if n = 0 then dev else max b.max dev
    sum := if n < 16 then sum else b.sum
    resSum := if n < 16 then resSum else b.resSum }

/-- A measurement closed by an edge's stamp, in eighths of a tick (R223 to R225). -/
def Hub.closeMeasure (h : Hub) (k q stamp : Nat) (m : Measure) : Hub :=
  let p := pTrk k
  let ofs : Int := toSigned 16 (h.cfg p (TRK.DRIFT_CFG_FB_OFS q)) * 500
  let dev := (toSigned 64 ((stamp % 2 ^ 64 + 2 ^ 64 - m.fire * 8 % 2 ^ 64) % 2 ^ 64)) / 8 - (m.lead + ofs)
  let (x, h) := match h.positionAtStamp k stamp with
    | some x => (x, h)
    | none => h.fresh
  let res := posDiff x m.target
  let i := q * 8 + nearestPoint m.vh (h.leadPoints k q)
  let b := addToBin (Map.getD (h.track k).bins i {}) dev res
  let h := h.setTrack k (fun t => { t with bins := Map.put t.bins i {} b, open_ := Map.erase t.open_ q, misses := Map.erase t.misses q })
  let thr := h.cfg p (TRK.DRIFT_CFG_THR q) * 500
  if 16 ≤ b.count ∧ thr ≠ 0 ∧ thr < b.mean.natAbs then
    ((h.put p TRK.DRIFT_STAT_DRIFT (withBit (h.get p TRK.DRIFT_STAT_DRIFT) q)).irq p 1).note p 2
  else h

/-- Whether a stamp, in eighths of a tick, lies at or after an instant in ticks. -/
def stampedAfter (stamp i : Nat) : Bool := decide (0 ≤ toSigned 64 ((stamp % 2 ^ 64 + 2 ^ 64 - i * 8 % 2 ^ 64) % 2 ^ 64))

/-- FB_WIN of a profile in ticks (R222). -/
def Hub.feedbackWindow (h : Hub) (k q : Nat) : Int := 500000 * h.cfg (pTrk k) (TRK.PROF_CFG_FB_WIN q)

/-- A measurement of a profile closes as a miss; four in a row set MISSING (R222). -/
def Hub.missMeasure (h : Hub) (k q : Nat) : Hub :=
  let p := pTrk k
  let n := Map.getD (h.track k).misses q 0 + 1
  let h := (h.inc p TRK.FB_MISS_COUNT).setTrack k (fun t => { t with open_ := Map.erase t.open_ q, misses := Map.set t.misses q n })
  if 4 ≤ n then h.put p TRK.DRIFT_STAT_MISSING (withBit (h.get p TRK.DRIFT_STAT_MISSING) q) else h

/-- The measurements that wait for an edge of a channel close at the first one after their firing; an edge later than FB_WIN after it closes nothing
but a miss (R222). -/
def Hub.feedback (h : Hub) (c stamp : Nat) (rising : Bool) : Hub :=
  h.tracks.foldl (fun g e =>
    (e.2.open_).foldl (fun g m =>
      let p := pTrk e.1
      if g.cfg p (TRK.PROF_CFG_FB_CH m.1) = c ∧ g.cfgOn p (TRK.PROF_CFG_FB_EDGE m.1) = !rising ∧ stampedAfter stamp m.2.firedAt then
        (if stampedAfter stamp (m.2.firedAt + (g.feedbackWindow e.1 m.1).toNat + 1) then g.missMeasure e.1 m.1 else g.closeMeasure e.1 m.1 stamp m.2)
      else g) g) h

/-! ### Firing (R20, R218) -/

/-- Whether an action may fire off LIVE: committed, or the age at most AGE_LIM2 (R218). -/
def Hub.mayFire (h : Hub) (b : PosBind) : Bool := h.trackState b.track == 2 || b.committed || !h.beyondLim2 b.track

/-- What the Track unit counts and measures when a positional action fires (R20, R218, R222). -/
def Hub.countFire (h : Hub) (b : PosBind) (late : Bool) : Hub :=
  let p := pTrk b.track
  let h := if late then (h.inc p TRK.LATE_COUNT).irq p 2 else h
  let h := if b.committed then h.inc p TRK.STALE_COMMITTED_COUNT
    else if h.trackState b.track = 2 then h
    else h.inc p TRK.POL_EXTRAP_COUNT
  h.openMeasure b

/-- Whether a target is refused at the write: more than LATE_WIN counts behind p(t), or 2^31 counts or more ahead (R212). -/
def Hub.targetRefused (h : Hub) (k target : Nat) : Bool :=
  match h.trackPos k with
  | none => false
  | some p =>
    let d := posDiff target p
    decide (d < -(65536 * (h.cfg (pTrk k) TRK.CONV_LATE_WIN : Int))) || d == -(2 ^ 47)

/-- What becomes of a newly queued action: on a LIVE Track it awaits its conversion, on any other it follows its policy (R212, R218). -/
def Hub.admitAct (h : Hub) (owner number : Nat) (b : PosBind) : Hub :=
  if h.trackState b.track = 2 then h else h.stalePolicy owner number b

end Sys2Proof.Machine
end

