-- ==== Sys2Proof/Machine/AtrOps.lean ====
section
/-!
DEFINITION. The Atrium engine's shared operations: windows, slots, the modes it runs in, its reads and what fences, modes and commits do to it (R230 to R254).
Where the manual is open: DEDUCED, log entry 21.
-/
namespace Sys2Proof.Machine

open Reg

/-- The engine's state changed. -/
def Hub.setAtr (h : Hub) (f : AtrState → AtrState) : Hub := { h with atr := f h.atr }

/-- The counters of the ATR window (R253). -/
def ATRC (i : Nat) : Fld := ⟨0xC00 + 4 * i, 0, 32, .rc, 0⟩

/-- A counter of the ATR window raised by `n`. -/
def Hub.atrCount (h : Hub) (i n : Nat) : Hub := h.addTo pAtr (ATRC i) n

/-- Whether the engine runs: in a mode that has it on, its EN committed (R235). -/
def Hub.atrOn (h : Hub) : Bool := h.mode.fromTransparent && h.cfgOn pAtr PG.CTRL_EN

/-! ### Windows (R240, R248) -/

structure AtrWin where
  first : Nat
  last : Nat
  ofs : Nat
  len : Nat
  dest : Nat
  tag : Nat
  defOk : Bool
deriving DecidableEq, Repr

/-- A field of the page in a configuration. -/
def atrField (r : RegFile) (f : Fld) : Nat := (RegFile.find r ⟨pAtr, f.off, f.lo⟩).getD f.rst

/-- The enabled windows of a configuration, in ascending number. -/
def windowsOf (r : RegFile) : List AtrWin :=
  (List.range 16).filterMap (fun i =>
    if atrField r (ATR.WIN_CTL_EN i) = 0 then none
    else some
      { first := atrField r (ATR.WIN_NODES_FIRST i), last := atrField r (ATR.WIN_NODES_LAST i), ofs := atrField r (ATR.WIN_PART_OFS i)
        len := atrField r (ATR.WIN_PART_LEN i), dest := atrField r (ATR.WIN_DEST_OFS i), tag := atrField r (ATR.WIN_CTL_TAG i)
        defOk := atrField r (ATR.WIN_CTL_DEF_OK i) != 0 })

/-- Whether a window includes a node. -/
def AtrWin.covers (w : AtrWin) (k : Nat) : Bool := decide (w.first ≤ k) && decide (k ≤ w.last)

/-- The bytes that a window takes in the data area. -/
def AtrWin.size (w : AtrWin) : Nat := (w.last + 1 - w.first) * w.len

/-- Whether a window holds an address of the data area. -/
def AtrWin.holds (w : AtrWin) (a : Nat) : Bool := decide (w.dest ≤ a) && decide (a < w.dest + w.size)

/-- The nodes that windows cover, each once. -/
def coveredNodes : List AtrWin → List AtrWin → List Nat
  | _, [] => []
  | seen, w :: ws =>
    (((List.range (w.last + 1 - w.first)).map (fun i => w.first + i)).filter (fun k => !seen.any (fun v => v.covers k)))
      ++ coveredNodes (w :: seen) ws

/-- The committed values of the page that the open epoch lives under (R248). -/
def Hub.atrLayout (h : Hub) : RegFile := if h.atr.sampled then h.atr.layout else h.committed

/-- The windows of the open epoch. -/
def Hub.atrWindows (h : Hub) : List AtrWin := windowsOf h.atrLayout

/-- The node whose slot holds an address of the data area (R245). -/
def nodeAt (ws : List AtrWin) (a : Nat) : Option Nat :=
  (ws.find? (fun w => w.holds a)).map (fun w => w.first + (a - w.dest) / w.len)

/-- S(n) in ticks (R230). -/
def Hub.samplingTick (h : Hub) (n : Nat) : Nat := n * (500 * h.cfg pAtr ATR.CFG_CYCLE) % 2 ^ 64

/-- C(n) in ticks under the values that epoch n closes under (R230, R248). -/
def Hub.closeTick (h : Hub) (n : Nat) : Nat :=
  n * (500 * atrField h.atrLayout ATR.CFG_CYCLE) + 50 * atrField h.atrLayout ATR.CLOSE_OFS

/-- The first epoch that may still be sampled: its S is not before the first instant of a new CYCLE, or the first grid point after a step (R247, R248). -/
def Hub.firstEpoch (h : Hub) : Nat := (h.atr.notBefore + 500 * h.cfg pAtr ATR.CFG_CYCLE - 1) / (500 * h.cfg pAtr ATR.CFG_CYCLE)

/-- The epoch that is open now by ring time: the first whose C lies ahead and that is not skipped (R231, R247). -/
def Hub.epochNow (h : Hub) : Nat :=
  max h.firstEpoch
    (if h.now < 50 * h.cfg pAtr ATR.CLOSE_OFS then 0 else (h.now - 50 * h.cfg pAtr ATR.CLOSE_OFS) / (500 * h.cfg pAtr ATR.CFG_CYCLE) + 1)

/-- The open epoch: the one held, until its C or a step that skips it where it has not been sampled, else the one that ring time gives (R231, R247). -/
def Hub.openEpoch (h : Hub) : Nat :=
  match h.atr.open_ with
  | some n => if h.atr.sampled || (decide (h.now < h.closeTick n) && decide (h.firstEpoch ≤ n)) then n else h.epochNow
  | none => h.epochNow

/-- Whether the sampling instant of epoch n may be the present one: ring time has reached S(n) and not S(n + 1), n lies above the last sampled
epoch, and S(n) is not before a new CYCLE's first instant (R230, R247, R248). -/
def Hub.mayOpen (h : Hub) (n : Nat) : Bool :=
  decide (h.samplingTick n ≤ h.now) && decide (h.now < h.samplingTick n + 500 * h.cfg pAtr ATR.CFG_CYCLE) && decide (h.atr.notBefore ≤ h.samplingTick n)
    && (match h.atr.last with
      | some m => decide (m < n)
      | none => true)

/-- Whether this edge is that of a sampling instant. -/
def Hub.samplesNow (h : Hub) : Bool := h.atr.sampledAt == some h.clock

/-! ### The default slot's limit and STAT.STATE (R73, R235, R236) -/

/-- The largest arc on which a rate lets the default slot be published (R73). -/
def arcLimit : Nat → Nat
  | 1 => 4096
  | 2 => 1116
  | 3 => 446
  | _ => 4096

/-- Whether R73 permits the default slot. -/
def Hub.defaultAllowed (h : Hub) : Bool :=
  let ups := [0, 1].filter (fun i => h.link i == 4)
  ups != [] && ups.all (fun i => decide (h.arcSize ≤ arcLimit (h.get (pRport i) RPORT.STAT_RATE_EFF)))

/-- Whether the mode publishes the default slot. -/
def Hub.defaultMode (h : Hub) : Bool := h.modeEff == .transparent || h.modeEff == .held

/-- STAT.STATE: 0 OFF, 1 WAIT, 2 RUN, 3 FENCED (R253). -/
def Hub.atrState (h : Hub) : Nat :=
  if !h.atrOn then 0
  else if h.fenced pAtr then 3
  else if h.nodeId = 0 ∨ h.mainValid = false ∨ (h.defaultMode ∧ h.defaultAllowed = false) then 1
  else 2

/-! ### What is read (R242 to R244) -/

/-- The epoch descriptor's bytes (R243). -/
def Hub.descriptor (h : Hub) : List Byte :=
  let d := h.atr.desc
  leBytes 8 d.number ++ leBytes 8 d.sampled ++ leBytes 8 d.closed ++ leBytes 2 d.valid ++ leBytes 2 d.covered
    ++ leBytes 1 (flag d.fb + 2 * flag d.own + 4 * flag d.skipped + 8 * flag (h.fenced pAtr)) ++ leBytes 35 0

/-- A byte of the validity bitmap. -/
def Hub.validByte (h : Hub) (i : Nat) : Byte :=
  BitVec.ofNat 8 ((List.range 8).foldl (fun a j => a + (if h.atr.valid.contains (8 * i + j) then 2 ^ j else 0)) 0)

/-- The stale age of a node. -/
def Hub.staleAge (h : Hub) (k : Nat) : Nat := Map.getD h.atr.ages k 255

/-- A byte of the Atrium's local region by its offset; none where the region has none (R243). -/
def Hub.atrByte (h : Hub) (o : Nat) : Option Byte :=
  if o < 0x40 then some (h.descriptor.getD o 0)
  else if 0x200 ≤ o ∧ o < 0x400 then some (h.validByte (o - 0x200))
  else if 0x1000 ≤ o ∧ o < 0x201000 then
    some (if h.atrWindows.any (fun w => w.holds (o - 0x1000)) then Mem.read h.atr.front (o - 0x1000) else 0)
  else if 0x300000 ≤ o ∧ o < 0x300400 then some (Mem.read h.atr.shadow (o - 0x300000))
  else if 0x300400 ≤ o ∧ o < 0x300800 then some (h.atr.lastSlot.getD (o - 0x300400) 0)
  else if 0x310000 ≤ o ∧ o < 0x311000 then some (BitVec.ofNat 8 (h.staleAge (o - 0x310000)))
  else none

/-! ### The close (R231, R241 to R244) -/

/-- The parts of a node's slot that windows take, written into the front banks (R240, R241). -/
def takeSlot (ws : List AtrWin) (front : Map Byte) (k : Nat) (slot : List Byte) : Map Byte :=
  ws.foldl (fun m w =>
    if w.covers k then
      Mem.writeN m (w.dest + (k - w.first) * w.len) ((List.range w.len).map (fun i => slot.getD (w.ofs + i) 0))
    else m) front

/-- The stale ages after a close (R242). -/
def agesAfter (ages : Map Nat) (valid : List Nat) : Map Nat :=
  let older := (ages.map (fun e => (e.1, e.2 + 1))).filter (fun e => decide (e.2 < 255))
  valid.foldl (fun m k => Map.set m k 0) older

/-- Epoch n closes: banks, bitmap, ages and descriptor at one edge (R241, R242). -/
def Hub.closeEpoch (h : Hub) (n : Nat) : Hub :=
  let ws := h.atrWindows
  let covered := coveredNodes [] ws
  let valid := covered.filter (fun k => (Map.find h.atr.back k).isSome)
  let invalid := covered.length - valid.length
  let front := valid.foldl (fun m k => takeSlot ws m k ((Map.getD h.atr.back k ([], false)).1)) h.atr.front
  let t := n * (500 * atrField h.atrLayout ATR.CFG_CYCLE) % 2 ^ 64
  let d : EpochDesc :=
    { number := n, sampled := t, closed := h.now % 2 ^ 64, valid := valid.length, covered := covered.length
      fb := !h.mainInUse, own := valid.contains h.nodeId, skipped := h.atr.skipped }
  let h := h.setAtr (fun a => { a with
    front := front, valid := valid, ages := agesAfter a.ages valid, desc := d, back := [], skipped := false, undriven := true
    sampled := false, open_ := if a.last = none then none else some (n + 1) })
  let h := ((h.atrCount 0 1).atrCount 9 invalid).irq pAtr 0
  let thr := h.cfg pAtr ATR.INV_THR_THR
  let h := if thr ≠ 0 ∧ thr ≤ invalid then h.irq pAtr 1 else h
  let met := decide (0 ≤ tickDiff t h.sys.lastT)
  { h with sys := { h.sys with epochMet := h.sys.epochMet || met, rejoined := h.sys.rejoined || h.atr.joined } }

/-- The open epoch brought up to date before a slot is taken (R231). -/
def Hub.openNow (h : Hub) : Hub :=
  if h.atr.open_ = some h.openEpoch then h
  else h.setAtr (fun a => { a with open_ := some h.openEpoch, back := [], sampled := false })

/-- A sampled epoch that is still open closes, unless the engine is fenced (R231, R247, R249). -/
def Hub.closeOpen (h : Hub) : Hub :=
  match h.atr.open_ with
  | some n => if h.atrOn && !h.fenced pAtr && h.atr.sampled then h.closeEpoch n else h
  | none => h

/-- Ring time may have stepped or changed its path since the hub was `old`: the open epoch closes if its C has been passed, and after time has moved
forward the next sampling instant is the first grid point after the new time (R247). -/
def Hub.atrTime (h old : Hub) : Hub :=
  let h := if old.now < h.now then h.setAtr (fun a => { a with notBefore := h.now + 1 })
    else if h.now < old.now then h.setAtr (fun a => { a with notBefore := min a.notBefore h.now })
    else h
  match h.atr.open_ with
  | some n => if h.closeTick n ≤ h.now then h.closeOpen else h
  | none => h

/-! ### Outputs driven from the copy (R245, R246) -/

/-- The value that an OUT entry takes from the data area. -/
def Hub.outValue (h : Hub) (c : Nat) : Nat :=
  let bit := h.cfg pAtr (ATR.OUT_BIT c)
  if h.cfgOn pAtr (ATR.OUT_PWM c) then Mem.word h.atr.front (bit / 8) 2
  else flag (bitOf (Mem.read h.atr.front (bit / 8)).toNat (bit % 8) != h.cfgOn pAtr (ATR.OUT_INV c))

/-- The safe value of a stale policy, counted in OUT_STALE where outputs are driven. -/
def Hub.outSafe (h : Hub) (c : Nat) : Hub := (if h.driving then h.atrCount 14 1 else h).policyOn c 16

/-- The event of an OUT entry at S(n + 1) (R245). -/
def Hub.driveOutput (h : Hub) (ws : List AtrWin) (c : Nat) : Hub :=
  match nodeAt ws (h.cfg pAtr (ATR.OUT_BIT c) / 8) with
  | none => h
  | some k =>
    if h.atr.valid.contains k then
      let h := h.setCh c (fun s => { s with policies := s.policies.filter (fun p => p != 16) })
      if h.cfgOn pAtr (ATR.OUT_PWM c) then h.dutyEvent c 3 (h.outValue c)
      else h.levelEvent c 3 (fun _ => h.outValue c != 0) none
    else
      match h.cfg pAtr (ATR.OUT_POLICY c) with
      | 0 => h.outSafe c
      | 1 => if h.staleAge k ≤ h.cfg pAtr ATR.CLOSE_STALE_MAX then h else h.outSafe c
      | _ => h

/-- The channels that OUT entries drive. -/
def Hub.atrOutputs (h : Hub) : List Nat := (List.range 128).filter (fun c => h.cfgOn pAtr (ATR.OUT_EN c))

/-- Every OUT entry takes the values of the closed epoch, unless the engine is fenced (R245, R249). -/
def Hub.driveOutputs (h : Hub) : Hub :=
  if h.atr.undriven && !h.fenced pAtr then
    let ws := windowsOf h.atr.layout
    (h.atrOutputs.foldl (fun g c => g.driveOutput ws c) h).setAtr (fun a => { a with undriven := false })
  else h

/-- The hub leaves Armed at a sampling instant: the outputs take the values of the closed epoch on that edge (R82, R245). -/
def Hub.redrive (h : Hub) : Hub := if h.samplesNow then (h.setAtr (fun a => { a with undriven := true })).driveOutputs else h

/-! ### Fences, modes, resets and commits (R235, R245, R248, R249) -/

/-- The engine stops: no epoch is held open. -/
def Hub.atrStop (h : Hub) : Hub :=
  h.setAtr (fun a => { a with open_ := none, sampled := false, last := none, back := [], undriven := false, joined := false })

/-- A fence of the engine: every channel that an OUT entry drives goes to its safe value, and no closed epoch's values follow (R249). -/
def Hub.fenceAtr (h : Hub) : Hub :=
  (h.atrOutputs.foldl (fun g c => g.policyOn c 16) h).setAtr (fun a => { a with undriven := false })

/-- The engine in line with the mode and EN. -/
def Hub.alignAtr (h : Hub) : Hub := if h.atrOn then h else h.atrStop

/-- A soft reset of the page: the engine's state from its beginning (R61). -/
def Hub.resetAtr (h : Hub) : Hub := { h with atr := {} }

/-- A commit's effect: a new CYCLE numbers its epochs anew, from the first instant at or after T and the C of the last old epoch, and a channel that no OUT entry drives any more loses its Atrium policy (R245, R248). -/
def Hub.commitAtr (h old : Hub) : Hub :=
  let h := h.alignAtr
  let h := if h.cfg pAtr ATR.CFG_CYCLE = old.cfg pAtr ATR.CFG_CYCLE then h
    else h.setAtr (fun a => { a with
      last := none, open_ := if a.sampled then a.open_ else none
      notBefore := max h.now (if a.sampled then h.closeTick (a.open_.getD 0) else 0) })
  h.chans.foldl (fun g e =>
    if e.2.policies.contains 16 && !g.cfgOn pAtr (ATR.OUT_EN e.1) then
      g.setCh e.1 (fun s => { s with policies := s.policies.filter (fun p => p != 16) })
    else g) h

end Sys2Proof.Machine
end

