-- ==== Sys2Proof/Machine/SwitchOps.lean ====
section
/-!
DEFINITION. The switch core's shared operations: queues and cells, the Lens, the Periscope, what this node originates, fences (R283 to R309).
Where the manual is open: DEDUCED, log entries 22, 39, 40 and 41.
-/
namespace Sys2Proof.Machine

open Reg

/-! ### Queues and cells (R283 to R290) -/

/-- The cells of a frame that lie in DRAM, and those that lie in SRAM (R289). -/
def QFrame.dramCells (q : QFrame) : Nat := q.slots.length
def QFrame.sramCells (q : QFrame) : Nat := q.cells - q.slots.length

/-- The cells of frames. -/
def cellSum (q : List QFrame) : Nat := q.foldl (fun a f => a + f.cells) 0

/-- The cells of frames that lie in SRAM. -/
def sramCells (q : List QFrame) : Nat := q.foldl (fun a f => a + f.sramCells) 0

/-- The cells of frames that lie in DRAM. -/
def dramCells (q : List QFrame) : Nat := q.foldl (fun a f => a + f.dramCells) 0

/-- The egress port of a virtual output queue. -/
def voqEgress (key : Nat) : Nat := key / 3 % 8

/-- The Bulk frames that are admitted and have not entered their queues, each with its queue's number: those still being received, and those
whose cells are moving (R285, R288). -/
def Hub.onTheWay (h : Hub) : List (Nat × QFrame) :=
  h.sw.opening ++ (h.sw.voq.filter (fun (e : Nat × List VFrame) => e.1 % 3 == 2)).flatMap
    (fun (e : Nat × List VFrame) => e.2.map (fun v => (queueKey (voqEgress e.1) v.queue, v.item)))

/-- The Bulk frames that the cell buffer holds, each with its queue's number. -/
def Hub.bulkHeld (h : Hub) : List (Nat × QFrame) :=
  h.sw.queues.flatMap (fun (e : Nat × List QFrame) => e.2.map (fun q => (e.1, q))) ++ h.onTheWay

/-- The admitted Bulk frames of a queue: what it holds and what is on its way to it. -/
def Hub.ofQueue (h : Hub) (key : Nat) : List QFrame := h.queue key ++ (h.onTheWay.filter (fun e => e.1 == key)).map (fun e => e.2)

/-- The Bulk cells in SRAM of an egress port (R289). -/
def Hub.portBulk (h : Hub) (egress : Nat) : Nat := sramCells ((h.bulkHeld.filter (fun e => e.1 / 16 == egress)).map (fun e => e.2))

/-- The Bulk cells in SRAM (SW.USE.BULK). -/
def Hub.bulkCells (h : Hub) : Nat := sramCells (h.bulkHeld.map (fun e => e.2))

/-- The cells in the overflow area (DRAM.OVF_CELLS). -/
def Hub.overflowCells (h : Hub) : Nat := dramCells (h.bulkHeld.map (fun e => e.2))

/-- The cells held by Express and Timed frames (SW.USE.XT). -/
def Hub.xtCells (h : Hub) : Nat := (List.range 8).foldl (fun a p => a + h.xtPortCells p) 0

/-- The free SRAM cells (SW.CELLS.FREE). -/
def Hub.freeCells (h : Hub) : Nat := 49152 - h.get pSw SW.CELLS_RETIRED - h.bulkCells - h.xtCells

/-- The capacity of the overflow area in cells (R290). -/
def Hub.overflowCap (h : Hub) : Nat := h.cfg pDram DRAM.CFG_OVF_SIZE * 1048576 / 160

/-- The DRAM controller is ready (R290). -/
def Hub.dramReady (h : Hub) : Bool := h.get pDram DRAM.STAT_STATE == 2

/-- The thermal monitor demands Bulk shedding (R303). -/
def Hub.shedding (h : Hub) : Bool := h.on pTherm THERM.STAT_BULK_SHED

/-- The lowest `n` slots of the overflow area that are free; the manual names no order of use (DESIGN CHOICE, log entry 40). -/
def Hub.freeSlots (h : Hub) (n : Nat) : List Nat :=
  let used := h.bulkHeld.flatMap (fun e => e.2.slots)
  ((List.range (used.length + n)).filter (fun i => !used.contains i)).take n

/-- Where R289 places a Bulk frame of `cells` for a queue: the slots that it takes in the overflow area, none of them where it lies in SRAM;
no answer where there is no room. -/
def Hub.place (h : Hub) (key cells : Nat) : Option (List Nat) :=
  let q := h.ofQueue key
  if h.dramReady ∧ !h.shedding ∧ (dramCells q ≠ 0 ∨ h.cfg pSw SW.BULK_OVF_THR < sramCells q + cells) then
    (if h.overflowCells + cells ≤ h.overflowCap then some (h.freeSlots cells) else none)
  else if h.bulkCells + cells + h.get pSw SW.CELLS_RETIRED ≤ 49152 - h.cfg pSw SW.BUF_XT_RES ∧
      h.portBulk (key / 16) + cells ≤ h.cfg pSw SW.BULK_BULK_PORT_MAX then some []
  else none

/-- The first frame of a queue that is a given one removed. -/
def dropFirst {α : Type} [DecidableEq α] (f : α) : List α → List α
  | [] => []
  | a :: l => if a = f then l else a :: dropFirst f l

/-! ### Overflow cells (R289, R290) -/

/-- The offset in the DRAM of a slot of the overflow area, which is its top (R290). -/
def Hub.slotAt (h : Hub) (slot : Nat) : Nat :=
  (256 * 2 ^ h.cfg pDram DRAM.CFG_SIZE - h.cfg pDram DRAM.CFG_OVF_SIZE) * 1048576 + 160 * slot

/-- The cells of a frame, each of 128 bytes: the 16-byte internal descriptor, the frame's bytes, and zeros (R283). -/
def cellBytes (descriptor : Nat) (f : Frame) (egress i : Nat) : List Byte :=
  let bs := ((leBytes 16 descriptor ++ f.captured egress).drop (128 * i)).take 128
  bs ++ leBytes (128 - bs.length) 0

/-- A frame's cells written to their slots: 128 data bytes, their CRC-32C, a 4-byte link and 24 zeros (R290). The descriptor's and the link's
values are free: the manual names them and no more. -/
def Hub.spill (h : Hub) (egress : Nat) (q : QFrame) : Hub :=
  if q.slots = [] then h
  else
    let d := h.fresh
    (List.range q.slots.length).foldl (fun g i =>
      let l := g.fresh
      let bs := cellBytes d.1 q.frame egress i
      { l.2 with dram := Mem.writeN l.2.dram (h.slotAt (q.slots.getD i 0)) (bs ++ leBytes 4 (crc32c bs) ++ leBytes 4 l.1 ++ leBytes 24 0) }) d.2

/-- The cells in the staging area (R289). -/
def Hub.stagedCells (h : Hub) : Nat := (h.bulkHeld.map (fun e => e.2.staged)).foldl (fun a b => a + b) 0

/-- The first frame of a queue that has cells in DRAM gives one back; none where no frame has any (R289). -/
def readBack : List QFrame → Option (List QFrame)
  | [] => none
  | q :: l => if q.slots = [] then (readBack l).map (fun r => q :: r) else some ({ q with slots := q.slots.drop 1, staged := q.staged + 1 } :: l)

/-- The DRAM controller reads a cell back into the 64-cell staging area, in queue order, of the lowest-numbered queue that has cells in DRAM;
which queue goes first, and at what rate, the manual leaves open (R289; DESIGN CHOICE, log entry 40). -/
def Hub.stage (h : Hub) : Hub :=
  if !h.dramReady || decide (64 ≤ h.stagedCells) then h
  else
    match h.sw.queues.findSome? (fun (e : Nat × List QFrame) => (readBack e.2).map (fun q => (e.1, q))) with
    | some e => h.setQueue e.1 e.2
    | none => h

/-! ### What arrives at the switch core -/

/-- A frame put before the switch core. -/
def Hub.putBefore (h : Hub) (a : Arrival) : Hub :=
  h.setSw (fun s => if a.frame.cls = .bulk then { s with bulk := s.bulk ++ [a] } else { s with taps := s.taps ++ [a] })

/-- A frame of ports 2 to 7 put before the switch core, with the instant of its arrival. -/
def Hub.arrive (h : Hub) (a : Arrival) : Hub := h.putBefore { a with stamp := h.now8 % 2 ^ 64 }

/-! ### The Periscope (R300 to R302) -/

/-- The Ethernet address of two registers, byte 0 first (R629). -/
def macBytes (hi lo : Nat) : List Byte := beBytes 2 hi ++ beBytes 4 lo

/-- An Ethernet frame: header and content padded to 60 bytes, then the FCS (R448). -/
def ethernet (dst src : List Byte) (rest : List Byte) : List Byte :=
  let bs := dst ++ src ++ rest
  let bs := bs ++ leBytes (60 - bs.length) 0
  bs ++ leBytes 4 (crc32 bs)

/-- This port's own Ethernet address: as its registers hold it, and at reset as the unit ID gives it (ETH.MAC_LO, MAC_HI). -/
def Hub.ownMac (h : Hub) : List Byte :=
  macBytes (h.cfg pEth ETH.MAC_HI_ADDR) (h.cfg pEth ETH.MAC_LO_ADDR)

/-- The Ethernet frame that carries a mirror copy (R301). -/
def Hub.mirrorEther (h : Hub) (copy : List Byte) : List Byte :=
  ethernet (macBytes (h.cfg pSw SW.PSC_MAC_HI_MAC) (h.cfg pSw SW.PSC_MAC_LO_MAC)) h.ownMac (beBytes 2 0x88B5 ++ copy)

/-- The cells of the mirror copies in transit through port 7: those that wait for admission, and those in its virtual output queues (R302). -/
def Hub.mirrorCells (h : Hub) : Nat :=
  (h.sw.bulk.filter (fun (a : Arrival) => a.ingress == 7)).foldl (fun n a => n + a.frame.cells) 0
    + ((h.sw.voq.filter (fun (e : Nat × List VFrame) => e.1 / 24 == 7)).flatMap (fun (e : Nat × List VFrame) => e.2)).foldl (fun n v => n + v.item.cells) 0

/-- A session's own state. -/
def Hub.session (h : Hub) (s : Nat) : Session := Map.getD h.sw.sessions s {}

/-- A session's own state set. -/
def Hub.setSession (h : Hub) (s : Nat) (x : Session) : Hub := h.setSw (fun w => { w with sessions := Map.put w.sessions s {} x })

/-- The mirror header and the captured bytes of a frame (R301); `ts` is in eighths of a tick. -/
def Hub.mirrorCopy (h : Hub) (s port : Nat) (tx : Bool) (ts : Nat) (f : Frame) : List Byte :=
  let limit := if h.cfgOn pSw (SW.SES_CFG_OUT s) then h.cfg pSw (SW.SES_DEST_SNAP s) else min 9182 (h.cfg pSw (SW.SES_DEST_SNAP s))
  let all := f.captured port
  let x := h.session s
  leBytes 1 (s + 4 * flag tx + 8 * flag (decide (limit < all.length)) + 16 * flag x.lost) ++ leBytes 1 port
    ++ leBytes 2 all.length ++ leBytes 2 x.cseq ++ leBytes 2 0 ++ leBytes 8 ts ++ all.take limit

/-- A mirror copy in an Ethernet frame: it is never copied again (R300). -/
def mirrorEtherFrame (ten : Nat) (bs : List Byte) : Frame := { cls := .bulk, hdr := { ver := 0, ten := ten, mirror := true }, payload := bs }

/-- The frame that carries a session's copy, and the switch port it is bound for (R301). -/
def Hub.mirrorFrame (h : Hub) (s : Nat) (copy : List Byte) : Arrival :=
  let ten := h.cfg pSw (SW.SES_CFG_TEN s)
  let queue := some (h.cfg pSw SW.PSC_QUEUE)
  if h.cfgOn pSw (SW.SES_CFG_OUT s) then
    { ingress := 7, egress := 8, queue := queue,
      frame := { cls := .bulk, hdr := { type := 0x1A, mirror := true, ten := ten, dst := h.cfg pSw (SW.SES_DEST_NODE s), len := copy.length },
                 payload := copy } }
  else { ingress := 7, egress := 2, queue := queue, frame := mirrorEtherFrame ten (h.mirrorEther copy) }

/-- A session copies a frame, or counts the copy as lost where port 7 holds too many cells (R302). -/
def Hub.mirror (h : Hub) (s port : Nat) (tx : Bool) (ts : Nat) (f : Frame) : Hub :=
  let a := h.mirrorFrame s (h.mirrorCopy s port tx ts f)
  let x := h.session s
  if h.cfg pSw SW.PSC_MIR_MAX < h.mirrorCells + a.frame.cells then
    (h.setSession s { x with lost := true }).inc pSw (SW.SES_LOST_COUNT s)
  else ((h.setSession s { x with lost := false, cseq := (x.cseq + 1) % 65536 }).arrive a).inc pSw (SW.SES_SENT_COUNT s)

/-- The bit of a class in CLASSES. -/
def mirrorBit : Cls → Nat
  | .express => 0 | .timed => 1 | .bulk => 2 | .link => 3

/-- Whether a session of KIND 0 or 2 selects a frame on a port and in a direction (R300). -/
def Hub.selects (h : Hub) (s port : Nat) (tx : Bool) (f : Frame) : Bool :=
  h.cfgOn pSw (SW.SES_CFG_EN s) && (h.cfg pSw (SW.SES_CFG_KIND s) == 0 || h.cfg pSw (SW.SES_CFG_KIND s) == 2)
    && h.cfg pSw (SW.SES_CFG_PORT s) == port && bitOf (h.cfg pSw (SW.SES_CFG_DIR s)) (flag tx)
    && bitOf (h.cfg pSw (SW.SES_CFG_CLASSES s)) (mirrorBit f.cls)

/-- A session sees a frame that it selects: KIND 0 copies it, KIND 2 every Nth (R300). -/
def Hub.sight (h : Hub) (s port : Nat) (tx : Bool) (ts : Nat) (f : Frame) : Hub :=
  if !h.selects s port tx f then h
  else if h.cfg pSw (SW.SES_CFG_KIND s) = 0 then h.mirror s port tx ts f
  else
    let x := h.session s
    let n := x.seen + 1
    if h.cfg pSw (SW.SES_CFG_ARG s) ≤ n then (h.setSession s { x with seen := 0 }).mirror s port tx ts f
    else h.setSession s { x with seen := n }

/-- A frame received on a switch port or sent on it, before the four sessions; a mirror copy is never copied (R300). -/
def Hub.watch (h : Hub) (port : Nat) (tx : Bool) (ts : Nat) (f : Frame) : Hub :=
  if f.hdr.mirror ∨ h.fenced pSw then h else (List.range 4).foldl (fun g s => g.sight s port tx ts f) h

/-- A Bulk frame that enters the switch core, before the sessions of KIND 1: once, wherever it is bound for (R300). -/
def Hub.watchFlow (h : Hub) (port ts : Nat) (f : Frame) : Hub :=
  if f.hdr.mirror ∨ f.isEther then h
  else (List.range 4).foldl (fun g s =>
    if g.cfgOn pSw (SW.SES_CFG_EN s) && g.cfg pSw (SW.SES_CFG_KIND s) == 1 && g.cfg pSw (SW.SES_CFG_ARG s) == f.hdr.flow then
      g.mirror s port false ts f
    else g) h

/-! ### What this node originates on ports 2 to 7 -/

/-- An Express or Timed frame from a switch port: its two copies go before the switch core, each bound for a ring port (R17, R285); none while the
switch core is fenced (R305) or the node has no ID (R142). -/
def Hub.originateFrom (h : Hub) (port : Nat) (f : Frame) : Hub :=
  if h.fenced pSw then h.inc pSw SW.FENCE_DROP_COUNT
  else if h.nodeId = 0 then h
  else
    let g := ((h.bumpSeq f.cls).arrive { ingress := port, egress := 0, frame := h.ownCopy f false }).arrive
      { ingress := port, egress := 1, frame := h.ownCopy f true }
    g.watch port false (h.now8 % 2 ^ 64) (h.ownCopy f false)

/-! ### The Lens (R296 to R299) -/

/-- The fields of a tunnelled Ethernet frame that the Lens reads, by their bit in LENS_FIELDS (R296); `e` is the frame. -/
def etherFields (e : List Byte) : List (Nat × List Byte) :=
  let at2 (i : Nat) : Nat := beNat ((e.drop i).take 2)
  let tagged := at2 12 == 0x8100
  let base := if tagged then 16 else 12
  let et := at2 base
  let ip := e.drop (base + 2)
  let b (i : Nat) : Nat := (ip.getD i 0).toNat
  let v4 := et == 0x0800 && decide (20 ≤ ip.length)
  let v6 := et == 0x86DD && decide (40 ≤ ip.length)
  let proto := if v4 then b 9 else b 6
  let l4 := if v4 then 4 * (b 0 % 16) else 40
  let ports := (v4 && (b 6 % 32 * 256 + b 7 == 0) || v6) && (proto == 6 || proto == 17) && decide (l4 + 4 ≤ ip.length)
  (if 12 ≤ e.length then [(5, e.take 12)] else [])
    ++ (if tagged then [(6, leBytes 2 (at2 14 % 4096))] else [])
    ++ (if base + 2 ≤ e.length then [(7, (e.drop base).take 2)] else [])
    ++ (if v4 then [(8, (ip.drop 12).take 8), (9, [ip.getD 9 0])] else if v6 then [(8, (ip.drop 8).take 32), (9, [ip.getD 6 0])] else [])
    ++ (if ports then [(10, (ip.drop l4).take 4)] else [])

/-- The fields of a frame, by their bit in LENS_FIELDS (R296). -/
def lensFields (a : Arrival) : List (Nat × List Byte) :=
  let x := a.frame.hdr
  [(0, leBytes 2 x.dst), (1, leBytes 1 x.ten), (2, leBytes 1 x.type), (3, leBytes 1 a.ingress)]
    ++ (match a.qp with | some q => [(4, leBytes 1 q)] | none => [])
    ++ (if x.type = 0x18 then etherFields (a.frame.payload.drop 16) else [])

/-- The byte stream of R296. -/
def Hub.lensStream (h : Hub) (a : Arrival) : List Byte :=
  let sel := if a.ingress = 5 ∨ a.ingress = 7 then 3 else h.cfg pSw SW.LENS_FIELDS_SEL
  ((lensFields a).filter (fun e => bitOf sel e.1)).flatMap (fun e => e.2)
    ++ (if a.ingress = 7 then leBytes 1 ((a.frame.payload.getD 0 0).toNat % 4) else [])

/-- The flow index of a stream (R296). -/
def flowIndex (bs : List Byte) : Nat := let c := crc32c bs; (c / 65536) ^^^ (c % 65536)

/-- The direction hash of a stream under a salt (R296). -/
def directionHash (salt : Nat) (bs : List Byte) : Nat := (crcRun 0x82F63B78 bs salt ^^^ 0xFFFFFFFF) / 65536

/-- The length of a Lens epoch in ticks (R299). -/
def Hub.lensPeriod (h : Hub) : Nat := h.cfg pSw SW.LENS_CFG_ROT_INT * 30000000000

/-- The Lens epoch of the present ring time (R299). -/
def Hub.lensEpochNow (h : Hub) : Nat := h.now / h.lensPeriod

/-- The salt of a Lens epoch (R299). -/
def Hub.lensSalt (h : Hub) (r : Nat) : Nat := crc32c (leBytes 16 h.uid ++ leBytes 4 (h.cfg pSw SW.LENS_SEED_SEED) ++ leBytes 8 r)

/-- The Lens brought to the epoch of the present ring time: its salt, and the interrupt where the epoch changes. -/
def Hub.syncLens (h : Hub) : Hub :=
  let r := h.lensEpochNow
  let g := if h.sw.lensEpoch = r then h else (h.setSw (fun s => { s with lensEpoch := r })).irq pSw 0
  (g.put pSw SW.LENS_STAT_EPOCH r).put pSw SW.LENS_SALT_SALT (h.lensSalt r)

/-- The direction that R297 chooses, true for West; `x` is the frame's header and `hash` its direction hash. -/
def Hub.chooseWest (h : Hub) (x : Header) (hash : Nat) : Bool :=
  let half := decide (32768 ≤ hash)
  match (if x.group then none else h.member x.dst) with
  | none => half
  | some m =>
    match m.hopsE, m.hopsW with
    | some e, some w =>
      if h.reaches m 0 && h.reaches m 1 then
        (match h.cfg pSw SW.LENS_CFG_DIR_MODE with
         | 0 => decide (65536 * (w + 1) ≤ hash * (e + 1 + (w + 1)))
         | 1 => if e < w then false else if w < e then true else half
         | _ => half)
      else half
    | _, _ => half

/-- The pinned direction of a flow, the pin table being used and kept up (R297 to R299). -/
def Hub.pin (h : Hub) (flow : Nat) (x : Header) (stream : List Byte) : Bool × Hub :=
  let r := h.sw.lensEpoch
  let fresh := h.chooseWest x (directionHash (h.lensSalt r) stream)
  let set (h : Hub) (p : Pin) : Hub := h.setSw (fun s => { s with pins := Map.set s.pins flow p })
  match Map.find h.sw.pins flow with
  | none => (fresh, set h { west := fresh, epoch := r, used := h.clock })
  | some p =>
    let idle := h.cfg pSw SW.LENS_CFG_REPIN_GAP * 50000 ≤ h.clock - p.used
    if r ≤ p.epoch then (p.west, set h { p with used := h.clock })
    else if idle then
      (fresh, (set h { west := fresh, epoch := r, used := h.clock }).setTopo (fun t => { t with flowDir := Map.erase t.flowDir flow }))
    else if p.epoch + 2 ≤ r then (fresh, set h { west := fresh, epoch := r, used := h.clock })
    else (p.west, set h { p with used := h.clock })

/-! ### The crossbar (R284 to R286) -/

/-- The number of a virtual output queue; classes are 0 Express, 1 Timed, 2 Bulk. -/
def voqKey (ingress egress cls : Nat) : Nat := (ingress * 8 + egress) * 3 + cls

/-- The rank of a class. -/
def clsRank : Cls → Nat
  | .express => 0 | .timed => 1 | .bulk => 2 | .link => 2

/-- A frame whose cells have been written to the buffer enters the virtual output queue of its ingress, its egress and its class (R285). -/
def Hub.toVoq (h : Hub) (egress queue : Nat) (q : QFrame) : Hub :=
  let key := voqKey q.ingress egress (clsRank q.frame.cls)
  h.setSw (fun s => { s with voq := Map.put s.voq key [] (Map.getD s.voq key [] ++ [{ item := q, queue := queue, left := q.cells }]) })

/-- The Express or Timed queue of a local port that a frame enters: a Timed frame that the port does not carry enters the Express queue (R11, R284). -/
def xtQueue (egress : Nat) (c : Cls) : Nat := 2 * egress + flag (c == .timed && (egress == 2 || egress == 6))

/-- A frame whose last cell has moved enters its egress queue (R285). -/
def Hub.enterEgress (h : Hub) (egress : Nat) (v : VFrame) : Hub :=
  let q := v.item
  if q.frame.cls = .bulk then
    (if egress < 2 then (if h.isOwnBulk q then h.resteerFrame egress v.queue q (fun g q => g.appendRing egress v.queue q) else h.appendRing egress v.queue q)
     else h.append (queueKey egress v.queue) q)
  else if egress < 2 then h.sendOn egress false { frame := q.frame, ingress := q.ingress }
  else
    let key := xtQueue egress q.frame.cls
    h.setSw (fun s => { s with express := Map.put s.express key [] (Map.getD s.express key [] ++ [q]) })

/-- One cell of a virtual output queue moves (R285). -/
def Hub.moveCell (h : Hub) (key : Nat) : Hub :=
  match Map.getD h.sw.voq key [] with
  | [] => h
  | v :: l =>
    let put (g : Hub) (q : List VFrame) : Hub := g.setSw (fun s => { s with voq := Map.put s.voq key [] q })
    if v.left ≤ 1 then (put h l).enterEgress (voqEgress key) v else put h ({ v with left := v.left - 1 } :: l)

/-- The ports from a pointer on, in order. -/
def portsFrom (p : Nat) : List Nat := (List.range 8).map (fun i => (p + i) % 8)

/-- Request: the highest class that an unmatched ingress port holds for an unmatched egress port (R285). -/
def Hub.request (h : Hub) (done : List (Nat × Nat × Nat)) (i e : Nat) : Option Nat :=
  if done.any (fun m => m.1 == i || m.2.1 == e) then none
  else [0, 1, 2].find? (fun c => Map.getD h.sw.voq (voqKey i e c) [] != [])

/-- Grant: the request of highest class, the first ingress port at or after the egress port's grant pointer for it (R285). -/
def Hub.grant (h : Hub) (done : List (Nat × Nat × Nat)) (e : Nat) : Option (Nat × Nat) :=
  [0, 1, 2].findSome? (fun c =>
    ((portsFrom (Map.getD h.sw.grants (e * 3 + c) 0)).find? (fun i => h.request done i e == some c)).map (fun i => (i, c)))

/-- Accept: the grant of highest class, the first egress port at or after the ingress port's accept pointer for it (R285). -/
def Hub.accept (h : Hub) (done : List (Nat × Nat × Nat)) (i : Nat) : Option (Nat × Nat × Nat) :=
  [0, 1, 2].findSome? (fun c =>
    ((portsFrom (Map.getD h.sw.accepts (i * 3 + c) 0)).find? (fun e => h.grant done e == some (i, c))).map (fun e => (i, e, c)))

/-- The pairs that one iteration matches. -/
def Hub.iteration (h : Hub) (done : List (Nat × Nat × Nat)) : List (Nat × Nat × Nat) := (List.range 8).filterMap (h.accept done)

/-- The pairs that the iterations of a cell time match. -/
def Hub.matching (h : Hub) : Nat → List (Nat × Nat × Nat) → List (Nat × Nat × Nat)
  | 0, done => done
  | n + 1, done => h.matching n (done ++ h.iteration done)

/-- The pointers of a matched pair move to one beyond the partner (R285). -/
def Hub.turnPointers (h : Hub) (m : Nat × Nat × Nat) : Hub :=
  h.setSw (fun s => { s with
    grants := Map.put s.grants (m.2.1 * 3 + m.2.2) 0 ((m.1 + 1) % 8)
    accepts := Map.put s.accepts (m.1 * 3 + m.2.2) 0 ((m.2.1 + 1) % 8) })

/-- One cell time of 6.4 ns: MATCH.ITER iterations, the pointers following the first alone, and each matched pair moves one cell (R285). A cell
is read back from DRAM besides (R289). -/
def Hub.cellTime (h : Hub) : Hub :=
  let pairs := h.matching (h.expert pSw SW.MATCH_USE SW.MATCH_ITER 3) []
  let g := (h.iteration []).foldl Hub.turnPointers h
  (pairs.foldl (fun g m => g.moveCell (voqKey m.1 m.2.1 m.2.2)) g).stage

/-- A Bulk frame open on a ring port has been received whole: its cells are written, and its decision, where it still waits, is on the whole (R288). -/
def Hub.completeBulk (h : Hub) (port : Nat) (f : Frame) : Hub :=
  let ours := h.sw.opening.filter (fun e => e.2.ingress == port)
  let h := h.setSw (fun s => { s with
    bulk := s.bulk.map (fun a => if a.ingress = port ∧ a.part = .header then { a with part := .whole, frame := f } else a)
    opening := s.opening.filter (fun e => e.2.ingress != port) })
  ours.foldl (fun g e =>
    let q : QFrame := { e.2 with frame := { e.2.frame with payload := f.payload } }
    (g.spill (e.1 / 16) q).toVoq (e.1 / 16) (e.1 % 16) q) h

/-! ### Cells that fail their check (R304) -/

/-- Frames that a fenced switch core discards (R305). -/
def Hub.fenceDrop (h : Hub) (n : Nat) : Hub := h.addTo pSw SW.FENCE_DROP_COUNT n

/-- A cell in SRAM fails its check uncorrectably: it is counted and retired (R304, R305). -/
def Hub.cellFailed (h : Hub) : Hub :=
  let n := min 127 (h.get pSw SW.CELLS_RETIRED + 1)
  let h := (h.put pSw SW.CELLS_RETIRED n).inc pSw SW.CELL_CHK_COUNT
  if n = 64 then h.note pSw 2 else h

/-- The frames that hold a receive buffer of the local Ethernet port until their admission (R447). -/
def Hub.etherReceived (h : Hub) : List Arrival := h.sw.bulk.filter (fun a => a.ingress == 2)

/-- The frame in a failing receive buffer is discarded: the oldest that waits there, else the one in reassembly (R460; DEDUCED, log entry 25). -/
def Hub.dropReceived (h : Hub) : Hub :=
  match h.etherReceived with
  | a :: _ => h.setSw (fun s => { s with bulk := dropFirst a s.bulk })
  | [] => { h with ether := { h.ether with rx := none } }

/-- What a fault source's condition does to the block besides setting its bit (R119, R298, R304). A ring port's elastic buffer that overflows spoils
the frame in progress, whose own command is still to come (DEDUCED, log entry 22). -/
def Hub.sourceEffect (h : Hub) (p src : Nat) : Hub :=
  if p = pSw ∧ src = 1 then h.cellFailed
  else if p = pSw ∧ src = 4 then
    let d := h.fresh
    let flow := d.1 % 65536
    (d.2.setSw (fun s => { s with pins := Map.erase s.pins flow })).holdFlow flow
  else if (p = pRport 0 ∨ p = pRport 1) ∧ src = 4 then h.setPort (p - pRport 0) (fun s => { s with spoilAt := some h.now8 })
  else if p = pDram ∧ src = 1 then (h.inc pDram DRAM.OVF_CRC_COUNT).inc pSw SW.CELL_CHK_COUNT
  else if p = pEth ∧ src = 2 then h.dropReceived
  else h

/-! ### Fences, resets and commits (R305, R308, R309) -/

/-- The switch core is fenced: what it holds is discarded, all of it from or for ports 2 to 7 or Bulk received on a ring port, and the ring ports cease
to be open (R305). -/
def Hub.fenceSwitch (h : Hub) : Hub :=
  let kept (t : TxItem) : Bool := t.ingress == 8
  let own := [0, 1].flatMap (fun p => (h.port p).ownX ++ (h.port p).ownT)
  let n := h.sw.taps.length + h.sw.bulk.length + h.sw.opening.length + (own.filter (fun t => !kept t)).length
    + (h.sw.queues.map (fun e => e.2.length) ++ h.sw.express.map (fun e => e.2.length)
        ++ h.sw.voq.map (fun e => e.2.length)).foldl (fun a b => a + b) 0
  let h := (h.fenceDrop n).setSw (fun s => { s with taps := [], bulk := [], opening := [], voq := [], express := [], queues := [] })
  let h := [0, 1].foldl (fun g p => g.setPort p (fun s => { s with ownX := s.ownX.filter kept, ownT := s.ownT.filter kept })) h
  [0, 1].foldl (fun g p => if g.portOpen p then (g.breakPort p).wrap p else g) h

/-- The cells in DRAM are lost, and the frames they belonged to (R305). -/
def Hub.loseOverflow (h : Hub) : Hub :=
  let stays (q : QFrame) : Bool := q.slots == []
  (h.addTo pDram DRAM.OVF_LOST_COUNT h.overflowCells).setSw (fun s => { s with
    queues := (s.queues.map (fun (e : Nat × List QFrame) => (e.1, e.2.filter stays))).filter (fun e => e.2 != [])
    opening := s.opening.filter (fun e => stays e.2)
    voq := (s.voq.map (fun (e : Nat × List VFrame) => (e.1, e.2.filter (fun v => stays v.item)))).filter (fun e => e.2 != []) })

/-- The DRAM controller changes its state (DRAM.STAT.STATE), with its interrupt. -/
def Hub.setDram (h : Hub) (n : Nat) : Hub :=
  (h.putIrq pDram DRAM.STAT_STATE n 0).put pDram PG.STAT_BLOCK n

/-- The DRAM controller in line with EN and its fence: OFF, FENCED, or in training where it was neither (R290, R308). -/
def Hub.alignDram (h : Hub) : Hub :=
  if h.fenced pDram then h.loseOverflow.setDram 4
  else if !h.runs pDram then h.loseOverflow.setDram 0
  else if h.get pDram DRAM.STAT_STATE = 0 ∨ h.get pDram DRAM.STAT_STATE = 4 then h.setDram 1
  else h

/-- The fields of meter `m`: CIR, PIR, PBS and CBS. -/
def mtrCir (m : Nat) : Fld := ⟨0x20000 + 12 * m, 0, 20, .stg, 0⟩
def mtrPir (m : Nat) : Fld := ⟨0x20004 + 12 * m, 0, 20, .stg, 0⟩
def mtrPbs (m : Nat) : Fld := ⟨0x20008 + 12 * m, 16, 16, .stg, 0⟩
def mtrCbs (m : Nat) : Fld := ⟨0x20008 + 12 * m, 0, 16, .stg, 0⟩

/-- What a bucket lacks after a time in ticks at a rate in units of 100 kbit/s; both in 1/40,000 byte. -/
def refilled (lack rate ticks : Nat) : Nat := lack - rate * ticks

/-- A meter with the tokens that have come since it was last used, at the rates in effect (R293). -/
def Hub.refill (h : Hub) (m : Nat) : Meter :=
  let x := Map.getD h.sw.meters m {}
  let dt := h.clock - x.at_
  { lackC := min (h.cfg pQos (mtrCbs m) * 64 * 40000) (refilled x.lackC (h.cfg pQos (mtrCir m)) dt)
    lackP := min (h.cfg pQos (mtrPbs m) * 64 * 40000) (refilled x.lackP (h.cfg pQos (mtrPir m)) dt)
    at_ := h.clock }

/-- Every meter with the tokens that came at the rates in effect before a commit (R56, R293); `old` is the hub with its committed values before it. -/
def Hub.settleMeters (h old : Hub) : Hub :=
  h.setSw (fun s => { s with meters := s.meters.map (fun (e : Nat × Meter) => (e.1, old.refill e.1)) })

/-- A commit's effect on the switch core and the DRAM controller; `old` is the hub with its committed values before it (R308, R309). -/
def Hub.commitSwitch (h old : Hub) : Hub :=
  let h := h.alignDram.settleMeters old
  let moved (p : Nat) (fs : List Fld) : Bool := fs.any (fun f => h.cfg p f != old.cfg p f)
  let h := if h.runs pDram ∧ moved pDram [DRAM.CFG_SPEED, DRAM.CFG_SIZE, DRAM.CFG_OVF_SIZE] then h.setDram 1 else h
  let h := if moved pSw [SW.LENS_FIELDS_SEL, SW.LENS_SEED_SEED] then h.setTopo (fun t => { t with heldAll := some h.clock }) else h
  let h := if moved pSw [SW.LENS_SEED_SEED, SW.LENS_CFG_ROT_INT] then h.syncLens else h
  (List.range 4).foldl (fun g s =>
    if g.cfgOn pSw (SW.SES_CFG_EN s) && !old.cfgOn pSw (SW.SES_CFG_EN s) then g.setSession s { g.session s with seen := 0 } else g) h

/-- A soft reset of the switch core: every queue, the pin table and the sessions (R61). -/
def Hub.resetSwitch (h : Hub) : Hub := { h with sw := {} }

/-- A soft reset of the queue settings' page: the meters, averages and counts (R61). -/
def Hub.resetQos (h : Hub) : Hub :=
  h.setSw (fun s => { s with meters := [], meterCounts := [], averages := [], redDrops := [], tailDrops := [], sent := [] })

end Sys2Proof.Machine
end

