-- ==== Sys2Proof/Machine/BridgeOps.lean ====
section
/-!
DEFINITION. The bridge's shared operations: tenants and tokens, issuing remote transactions, read slots, completions, routes, host vectors
(R255 to R281, R310 to R318, R468, R478).
Where the manual is open: DEDUCED, log entry 23.
-/
namespace Sys2Proof.Machine

open Reg

/-! ### Tenants (R310 to R318) -/

/-- Whether a tenant is enabled on this node (R310). -/
def Hub.tenantOn (h : Hub) (t : Nat) : Bool := decide (t < 8) && h.active (pTen t)

/-- The line bytes of a frame of `len` payload bytes (R314). -/
def lineBytes (len : Nat) : Nat := (len + 38 + 7) / 8 * 8

/-- The charge of a frame that a node originates for a tenant: Bulk is not charged (R314). -/
def chargeOf (f : Frame) : Nat :=
  if f.cls = .bulk then 0
  else
    let own := lineBytes f.payload.length
    if f.hdr.type = 0x09 then own + (f.field 6 2 + 46 + 7) / 8 * 8
    else if f.hdr.type = 0x08 then own + 48
    else own

/-- A tenant's token count in effect. -/
def Hub.tokens (h : Hub) (t : Nat) : Nat := h.get (pTen t) TEN.STAT_TOKENS

/-! ### Read slots (R265, R318) -/

/-- The bridge's state changed. -/
def Hub.setBrg (h : Hub) (f : BrgState → BrgState) : Hub := { h with brg := f h.brg }

/-- A read slot. -/
def Hub.slot (h : Hub) (i : Nat) : ReadSlot := Map.getD h.brg.slots i {}

/-- A read slot set. -/
def Hub.setSlot (h : Hub) (i : Nat) (x : ReadSlot) : Hub := h.setBrg (fun b => { b with slots := Map.put b.slots i {} x })

/-- The open reads. -/
def Hub.openReads (h : Hub) : List OpenRead := h.brg.slots.filterMap (fun (e : Nat × ReadSlot) => e.2.read)

/-- The open-read slots that a tenant holds (R318). -/
def Hub.tagsUsed (h : Hub) (t : Nat) : Nat := (h.openReads.filter (fun r => r.ten == t)).length

/-- A slot that may be assigned; the lowest of them. -/
def Hub.freeReadSlot (h : Hub) : Option Nat :=
  (List.range 256).find? (fun i => (h.slot i).read.isNone && !(h.slot i).resting)

/-! ### Interrupts to the host (R471, R478) -/

/-- Whether the PCI Express function can send: link up, D0 and Bus Master Enable. -/
def Hub.pcieUp (h : Hub) : Bool :=
  h.hostIf == 1 && h.on pHost HOST.STAT_LINK_UP && !h.on pHost HOST.STAT_D3 && h.on pHost HOST.STAT_BME

/-- Whether a vector is masked: in the MSI-X table by bit 0 of its fourth word, or with all of them by Function Mask or a clear MSI-X Enable, bits 14
and 15 of the capability's Message Control (R464, R478; PRESUMED, log entry 43). -/
def Hub.vectorMasked (h : Hub) (v : Nat) : Bool :=
  let control := (Map.getD h.host.config 0x53 none).getD 0
  bitOf (Mem.read h.host.msix (16 * v + 12)).toNat 0 || bitOf control 6 || !bitOf control 7

/-- The pending bit of a vector set (R471, R478). -/
def Hub.setPending (h : Hub) (v : Nat) (b : Bool) : Hub :=
  let f := if v < 32 then HOST.VPEND_LO_PEND else HOST.VPEND_HI_PEND
  h.put pHost f (putBit (h.get pHost f) (v % 32) b)

/-- Whether a vector is pending. -/
def Hub.vectorPending (h : Hub) (v : Nat) : Bool :=
  bitOf (h.get pHost (if v < 32 then HOST.VPEND_LO_PEND else HOST.VPEND_HI_PEND)) (v % 32)

/-- A source mapped to a vector fires: the MSI-X message is sent, or the vector becomes pending (R471, R478). -/
def Hub.signal (h : Hub) (v : Nat) : Hub :=
  if h.hostIf = 1 ∧ h.pcieUp ∧ h.vectorMasked v = false then h.emit (.msix v)
  else if h.hostIf = 0 then h
  else h.setPending v true

/-! ### Doorbells (R484) -/

/-- DB_PEND of a side: RAW AND NOT MASK. -/
def Hub.doorbells (h : Hub) (s : Nat) : Nat :=
  h.get pMbx (MBX.DB_RAW_BITS s) - (h.get pMbx (MBX.DB_RAW_BITS s) &&& h.get pMbx (MBX.DB_MASK_BITS s))

/-- Bits of a side set in DB_RAW; a fenced MBX page keeps its doorbells (R487). -/
def Hub.ring (h : Hub) (s bits : Nat) : Hub :=
  if h.fenced pMbx then h else h.put pMbx (MBX.DB_RAW_BITS s) (h.get pMbx (MBX.DB_RAW_BITS s) ||| bits)

/-- PG_IRQ_PEND of a page: RAW AND EN (R36). -/
def Hub.irqPend (h : Hub) (p : Nat) : Nat := h.get p PG.IRQ_RAW &&& h.get p PG.IRQ_EN

/-- What follows from levels that have risen during a command: a doorbell side that went non-zero sets its flag and, on side 0, fires the
host's vector; HOST PG_IRQ_PEND that went non-zero fires its vector (R478, R484). -/
def Hub.edges (h old : Hub) : Hub :=
  let h := (List.range 4).foldl (fun g s =>
    if old.doorbells s = 0 ∧ g.doorbells s ≠ 0 then
      (let g := g.irq pMbx s
       if s = 0 then g.signal (g.cfg pHost HOST.VEC_DB) else g)
    else g) h
  if old.irqPend pHost = 0 ∧ h.irqPend pHost ≠ 0 then h.signal (h.cfg pHost HOST.VEC_ERR) else h

/-- An event input of the Steward core raised (R541). -/
def Hub.coreInput (h : Hub) (i : Nat) : Hub := { h with stw := { h.stw with inputs := withBit h.stw.inputs i } }

/-! ### Completions (R258, R261, R267, R455, R468, R475, R536) -/

/-- A store of the Steward core that ends in an error response (R536). -/
def Hub.coreError (h : Hub) (world node status : Nat) : Hub :=
  ((h.put pStw STW.ERR_WORLD world).put pStw STW.ERR_NODE node).put pStw STW.ERR_STATUS status

/-- A queue pair's own state. -/
def Hub.qp (h : Hub) (q : Nat) : QpState := Map.getD h.host.qps q {}

/-- A queue pair's own state set. -/
def Hub.setQp (h : Hub) (q : Nat) (x : QpState) : Hub := { h with host := { h.host with qps := Map.put h.host.qps q {} x } }

/-- A word of a descriptor (R473). -/
def Desc.word (d : Desc) (i : Nat) : Nat := d.words.getD i 0

/-- A descriptor has its outcome: its status stands, and the data of a READ is written to host memory while the queue pair runs (R475, R477). -/
def Hub.descriptorDone (h : Hub) (q idx status : Nat) (bytes : List Byte) : Hub :=
  let x := h.qp q
  let h := match x.descs.find? (fun d => d.idx == idx) with
    | some d =>
      if bytes ≠ [] ∧ h.get pHost (HOST.QP_STAT_STATE q) = 1 then h.emit (.hostWrite (d.word 4 + 2 ^ 32 * d.word 5) bytes) else h
    | none => h
  h.setQp q { x with descs := x.descs.map (fun d => if d.idx = idx then { d with status := some status } else d) }

/-- The reply to a control request, by the Express or the Bulk queue of port 2 (R455). -/
def Hub.controlReply (h : Hub) (htag : Nat) (src tag : List Byte) (write bulk : Bool) (status : Nat) (bytes : List Byte) : Hub :=
  let body := leBytes 2 htag ++ leBytes 1 status ++ leBytes 1 (flag write) ++ leBytes 2 bytes.length ++ leBytes 2 0 ++ bytes
  h.arrive { ingress := 5, egress := 2, queue := some 0,
             frame := etherFrame (if bulk then .bulk else .express) (h.cfg pEth ETH.CTRL_TEN)
               (ethernet src h.ownMac (tag ++ beBytes 2 0x88B6 ++ body)) }

/-- The QSPI read under way is over: the slave drives the marker 0xA5, the STATUS byte and the data, or 0x00 in place of data (R470). -/
def Hub.qspiEnds (h : Hub) (n : Nat) (write : Bool) (status : Nat) (bytes : List Byte) : Hub :=
  match h.host.reading with
  | none => h
  | some (m, len) =>
    if m ≠ n ∨ write then h
    else
      ({ h with host := { h.host with reading := none } }).emit
        (.qspi ([0xA5#8] ++ leBytes 1 status ++ (if status = 0 then bytes else List.replicate len 0)))

/-- An access that left this node's bridge, or was refused there, has its outcome: `addr` is the local address at `node`. -/
def Hub.complete (h : Hub) (o : Origin) (write bulk : Bool) (node addr status : Nat) (bytes : List Byte) : Hub :=
  match o with
  | .none => h
  | .host n => ((if status ≠ 0 then h.hostError (!write) node addr status else h).emit (.done o write status bytes)).qspiEnds n write status bytes
  | .secure _ => (if status ≠ 0 ∧ write then h.coreError 0x9 node status else h).emit (.done o write status bytes)
  | .annex _ => (if status ≠ 0 ∧ write then h.coreError 0xA node status else h).emit (.done o write status bytes)
  | .dma q i => h.descriptorDone q i status bytes
  | .control htag src tag => if write ∧ status = 0 then h else h.controlReply htag src tag write bulk status bytes

/-! ### Issuing (R257 to R266, R272, R315 to R318) -/

/-- The payload of a remote write (R259). -/
def writePayload (addr acc : Nat) (data : List Byte) : List Byte := leBytes 5 addr ++ leBytes 1 acc ++ leBytes 2 0 ++ data

/-- The payload of a remote read request (R260). -/
def readPayload (addr acc rlen : Nat) : List Byte := leBytes 5 addr ++ leBytes 1 acc ++ leBytes 2 rlen

/-- The local address that a request carries (R259). -/
def addressOf (f : Frame) : Nat := f.field 0 5 % 2 ^ 36

/-- Whether one requester issued both of two waiting frames for one tenant, or the later is an interrupt message behind a write of its flow: a tenant
delays only its own frames (R273, R315, R322). -/
def behind (earlier later : Issue) : Bool :=
  earlier.frame.hdr.ten == later.frame.hdr.ten &&
  ((match earlier.origin, later.origin with
    | .host _, .host _ => true
    | .dma a _, .dma b _ => a == b
    | .secure _, .secure _ => true
    | .annex _, .annex _ => true
    | .control _ _ _, .control _ _ _ => true
    | .none, .none => earlier.frame.hdr.type == later.frame.hdr.type && earlier.frame.cls == later.frame.cls
    | _, _ => false)
   || (later.frame.hdr.type == 0x0C && earlier.frame.hdr.type == 0x08 && earlier.frame.hdr.dst == later.frame.hdr.dst
       && earlier.frame.cls == later.frame.cls))

/-- The counter of a frame that the bridge sends, by its type. -/
def sentCounter (type : Nat) : Fld :=
  if type = 0x08 then BRG.TX_WR_COUNT else if type = 0x09 then BRG.TX_RD_COUNT else if type = 0x0C then BRG.IRQ_TX_COUNT else BRG.RT_TX_COUNT

/-- A frame of the bridge put before the switch core: Express and Timed both ways, Bulk by the Lens with PRI 0 (R292). The outcome of a descriptor's Express
write is known at once (R475). -/
def Hub.launch (h : Hub) (i : Issue) : Hub :=
  if i.frame.cls = .bulk then
    h.arrive { ingress := 5, egress := 8, frame := i.frame, qp := i.qp, origin := i.origin }
  else
    let h := h.originateFrom 5 i.frame
    match i.origin with
    | .dma q d => if i.frame.hdr.type = 0x08 then h.descriptorDone q d 0 [] else h
    | _ => h

/-- A frame leaves the bridge: its tokens are taken and its TAG is assigned; `slot` is a read's slot (R259, R265, R314). -/
def Hub.sendIssue (h : Hub) (i : Issue) (slot : Nat) : Hub :=
  let t := i.frame.hdr.ten % 8
  let h := if i.charge = 0 then h else
    (h.put (pTen t) TEN.STAT_TOKENS (h.tokens t - i.charge)).addTo (pTen t) TEN.XBYTES_COUNT i.charge
  let h := h.inc pBrg (sentCounter i.frame.hdr.type)
  if i.frame.hdr.type = 0x08 then
    let n := h.brg.writes
    let f : Frame := { i.frame with hdr := { i.frame.hdr with tag := 0x8000 + n, src := h.nodeId } }
    let h := h.setBrg (fun b => { b with writes := (n + 1) % 0x8000 })
    let h := if f.hdr.dst = 4095 then h.setBrg (fun b => { b with own := b.own ++ [(i.origin.requester f.hdr.ten, f)] }) else h
    h.launch { i with frame := f }
  else if i.frame.hdr.type = 0x09 then
    let g := ((h.slot slot).gen + 1) % 128
    let r : OpenRead := {
      origin := i.origin, dst := i.frame.hdr.dst, ten := i.frame.hdr.ten, addr := addressOf i.frame
      rlen := i.frame.field 6 2, bulk := i.frame.cls == .bulk }
    let h := h.setSlot slot { gen := g, read := some r }
    h.launch { i with frame := { i.frame with hdr := { i.frame.hdr with tag := g * 256 + slot } } }
  else h.launch i

/-- One waiting frame tried; `kept` are the earlier ones that still wait. One whose charge exceeds the count waits and is counted in XWAIT once, also
behind another (R265, R315, R316, R318, R324). -/
def Hub.tryIssue (h : Hub) (kept : List Issue) (i : Issue) : Hub × List Issue :=
  let ten := i.frame.hdr.ten
  let t := ten % 8
  let read := i.frame.hdr.type == 0x09
  let bulk := i.frame.cls == .bulk
  if h.fenced pBrg then (h.complete i.origin (!read) bulk i.frame.hdr.dst (addressOf i.frame) 0x0C [], kept)
  else if (i.charge ≠ 0 ∧ h.tenantOn ten = false) ∨ (ten < 8 ∧ h.fenced (pTen ten)) then
    (h.complete i.origin (!read) bulk i.frame.hdr.dst (addressOf i.frame) 0x0E [], kept)
  else
    let short := decide (h.tokens t < i.charge)
    let h := if short && !i.tokenWait then (h.inc (pTen t) TEN.XWAIT_COUNT).irq (pTen t) 0 else h
    let i := { i with tokenWait := i.tokenWait || short }
    if kept.any (fun e => behind e i) then (h, kept ++ [i])
    else if read ∧ h.cfg (pTen t) TEN.SLOTS_TAGS ≤ h.tagsUsed t then
      (if i.slotWait then h else h.inc (pTen t) TEN.TAG_WAIT_COUNT, kept ++ [{ i with slotWait := true }])
    else if short ∨ (read ∧ h.freeReadSlot = none) then (h, kept ++ [i])
    else (h.sendIssue i (h.freeReadSlot.getD 0), kept)

/-- Everything that waits at the bridge is tried, in issue order. -/
def Hub.pump (h : Hub) : Hub :=
  let r := h.brg.waiting.foldl (fun (a : Hub × List Issue) i => a.1.tryIssue a.2 i) (h, [])
  r.1.setBrg (fun b => { b with waiting := r.2 })

/-- A frame handed to the bridge. -/
def Hub.submit (h : Hub) (i : Issue) : Hub :=
  (h.setBrg (fun b => { b with waiting := b.waiting ++ [{ i with charge := chargeOf i.frame }] })).pump

/-- The largest data length of a class (R262). -/
def dataLimit (bulk : Bool) : Nat := if bulk then 4096 else 1024

/-- Whether a transaction keeps the size rules of R262. -/
def sizeOk (bulk : Bool) (addr acc n : Nat) : Bool :=
  n != 0 && decide (n ≤ dataLimit bulk) && decide (addr / 4096 = (addr + n - 1) / 4096)
    && decide (acc < 4) && addr % 2 ^ acc == 0 && n % 2 ^ acc == 0

/-- Why a transaction is refused at the origin: a status, or none (R257, R258, R262, R280, R310). -/
def Hub.issueRefusal (h : Hub) (ten node : Nat) (read bulk : Bool) (addr acc n : Nat) : Option Nat :=
  if h.fenced pBrg then some 0x0C
  else if h.tenantOn ten = false then some 0x0E
  else if read ∧ node = 4095 then some 0x0B
  else if sizeOk bulk addr acc n = false then some 0x0B
  else none

/-- A remote write or read handed to the bridge, or refused there (R258, R262). -/
def Hub.issueRemote (h : Hub) (o : Origin) (ten node : Nat) (read bulk : Bool) (addr acc rlen : Nat) (data : List Byte)
    (qp : Option Nat) (pri : Nat) : Hub :=
  match h.issueRefusal ten node read bulk addr acc (if read then rlen else data.length) with
  | some st => h.complete o (!read) bulk node addr st []
  | none =>
    let payload := if read then readPayload addr acc rlen else writePayload addr acc data
    h.submit { origin := o, qp := qp, pri := pri,
               frame := { cls := if bulk then .bulk else .express, payload := payload,
                          hdr := { type := if read then 0x09 else 0x08, ten := ten, dst := node, len := payload.length } } }

/-- A read's slot is freed, and what waits for one is tried (R265). -/
def Hub.freeRead (h : Hub) (i : Nat) (rest : Bool) : Hub := (h.setSlot i { h.slot i with read := none, resting := rest }).pump

/-! ### Serving requests (R261, R264) -/

/-- The remote writes being served whose words still wait (R363). -/
def Hub.servingRemote (h : Hub) : List Frame :=
  h.brg.serving.filterMap (fun (e : Nat × Serving) => e.2.frame.bind (fun f => if f.hdr.src = h.nodeId then none else some f))

/-- The tenants of the Express requests that the bridge holds (R264, R317). -/
def Hub.expressHeld (h : Hub) : List Nat :=
  h.brg.express.map (fun r => r.frame.hdr.ten) ++ (h.servingRemote.filter (fun g => g.cls != .bulk)).map (fun g => g.hdr.ten)

/-- A response to a request, in its class (R261). -/
def Hub.respond (h : Hub) (f : Frame) (write : Bool) (status fail : Nat) (data : List Byte) : Hub :=
  let payload := leBytes 1 status ++ leBytes 1 (flag write) ++ leBytes 2 data.length ++ leBytes 4 fail ++ data
  let r : Frame := { cls := f.cls, payload := payload,
                     hdr := { type := 0x0A, ten := f.hdr.ten, dst := f.hdr.src, tag := f.hdr.tag, len := payload.length } }
  if f.cls = .bulk then h.arrive { ingress := 5, egress := 8, frame := r } else h.originateFrom 5 r

/-- A request that failed at this target, recorded, counted and answered; a broadcast has no answer (R257, R264). -/
def Hub.requestError (h : Hub) (f : Frame) (write : Bool) (status addr : Nat) : Hub :=
  let h := ((h.put pBrg BRG.RX_ERR_TEN f.hdr.ten).put pBrg BRG.RX_ERR_SRC f.hdr.src).put pBrg BRG.RX_ERR_STATUS status
  let h := ((h.put pBrg BRG.RX_ERR_ADDR_HI (addr / 2 ^ 32)).put pBrg (latched BRG.RX_ERR_ADDR_ADDR) addr).put pBrg (latched BRG.RX_ERR_TAG_TAG) f.hdr.tag
  let h := (h.inc pBrg BRG.ERR_SENT_COUNT).irq pBrg 0
  if f.hdr.dst = 4095 then h else h.respond f write status (addr % 2 ^ 32) []

/-- A write has been applied to its last word: a remote one that failed is recorded and answered, unless the bridge is fenced by then; a local one
completes (R257, R264, R267, R280). -/
def Hub.finishWrite (h : Hub) (x : Serving) : Hub :=
  match x.frame, x.fail with
  | some f, some (_, st, a) => if h.fenced pBrg then h else h.requestError f true st a
  | some _, none => h
  | none, some (_, st, a) => h.complete x.origin true x.bulk x.node a st []
  | none, none => h.complete x.origin true x.bulk x.node x.addr 0 []

/-- A word of a write has its outcome, as a status of R261; 0x08 where no entry freed in time (R363). -/
def Hub.stallEnds (h : Hub) (w : Waiter) (st : Nat) : Hub :=
  match w with
  | .reply req addr => h.hear req addr st
  | .part id place addr =>
    match Map.find h.brg.serving id with
    | none => h
    | some x =>
      let first : Bool := match x.fail with
        | some (p, _, _) => decide (place < p)
        | none => true
      let x : Serving := { x with left := x.left - 1, fail := if st != 0 && first then some (place, st, addr) else x.fail }
      if x.left = 0 then (h.setBrg (fun b => { b with serving := Map.erase b.serving id })).finishWrite x
      else h.setBrg (fun b => { b with serving := Map.set b.serving id x })

/-! ### Routes (R275 to R278) -/

/-- Word `j` of entry `e` of the route table. -/
def routeFld (e j : Nat) : Fld := ⟨0x10000 + 16 * e + 4 * j, 0, 32, .stg, 0⟩

/-- A committed word of the route table. -/
def Hub.routeWord (h : Hub) (e j : Nat) : Nat := h.cfg pBrg (routeFld e j)

/-- Whether an outbound entry matches an identifier received by a local unit (R277). -/
def Hub.routeMatches (h : Hub) (e kind unit : Nat) (ide : Bool) (lid : Nat) : Bool :=
  let w0 := h.routeWord e 0
  let w1 := h.routeWord e 1
  let mask := slice (h.routeWord e 2) 0 29
  bitOf w0 31 && !bitOf w0 30 && slice w0 28 2 == kind && slice w0 24 4 == unit && bitOf w1 31 == ide
    && (lid &&& mask) == (slice w1 0 29 &&& mask)

/-- A message received by a local unit sent to the ring by the first outbound entry that matches; none stays local (R275, R277).
`flags` is byte 3 of the payload, `stamp` the receive stamp in ticks. -/
def Hub.routeOut (h : Hub) (kind unit flags lid stamp : Nat) (data : List Byte) : Hub :=
  match (List.range 512).find? (fun e => h.routeMatches e kind unit (bitOf flags 0) lid) with
  | none => h.inc pBrg BRG.RT_NOMATCH_COUNT
  | some e =>
    let w0 := h.routeWord e 0
    let cls : Cls := match slice w0 22 2 with
      | 0 => .express
      | 1 => .timed
      | _ => .bulk
    let payload := leBytes 2 (slice (h.routeWord e 3) 16 16) ++ leBytes 1 kind ++ leBytes 1 flags ++ leBytes 4 lid ++ leBytes 8 stamp ++ data
    h.submit { frame := { cls := cls, payload := payload,
                          hdr := { type := 0x20, ten := slice w0 16 3, group := bitOf w0 21, dst := slice w0 0 12, len := payload.length } } }

/-! ### Fences and commits (R280, R316, R324) -/

/-- The bridge in line with its fence: what it holds of delivered requests and interrupt messages is discarded, and what waits to be issued is
refused (R280). -/
def Hub.alignBridge (h : Hub) : Hub :=
  (if h.fenced pBrg then h.setBrg (fun b => { b with express := [], bulk := [], own := [], held := [] }) else h).pump

/-- The slots of a fenced tenant are released: the Express requests held for it are refused with 0x04, and its open reads end with 0x0E, the status of
a tenant that is not enabled (R310, R324; the status of an open read is a DESIGN CHOICE, log entry 23). -/
def Hub.releaseSlots (h : Hub) (t : Nat) : Hub :=
  let gone := h.brg.express.filter (fun r => r.frame.hdr.ten == t)
  let h := h.setBrg (fun b => { b with express := b.express.filter (fun r => r.frame.hdr.ten != t) })
  let h := gone.foldl (fun g r => g.requestError r.frame (r.frame.hdr.type == 0x08) 0x04 (addressOf r.frame)) h
  h.brg.slots.foldl (fun g (e : Nat × ReadSlot) =>
    match e.2.read with
    | some r => if r.ten = t then (g.freeRead e.1 false).complete r.origin false r.bulk r.dst r.addr 0x0E [] else g
    | none => g) h

/-- A tenant's count limited to its committed budget (R316). -/
def Hub.limitTokens (h : Hub) (t : Nat) : Hub :=
  let top := h.cfg (pTen t) TEN.XBUDGET_BYTES
  if top < h.tokens t then h.put (pTen t) TEN.STAT_TOKENS top else h

/-- A commit: every tenant's count is limited, then what waits is tried, and discarded where its tenant is no longer enabled (R316). -/
def Hub.commitTenants (h : Hub) : Hub := ((List.range 8).foldl (fun g t => g.limitTokens t) h).pump

/-- A tenant in line with its fence, which releases its slots and discards what waits for it (R316, R324). -/
def Hub.alignTenant (h : Hub) (t : Nat) : Hub := ((if h.fenced (pTen t) then h.releaseSlots t else h).limitTokens t).pump

end Sys2Proof.Machine
end

