-- ==== Sys2Proof/Machine/CanOps.lean ====
section
/-!
DEFINITION. The CAN FD controllers' shared operations: message objects, states, the settings in effect, holds, storing and sending (R423 to R445).
Where the manual is open: DEDUCED, log entry 26.
-/
namespace Sys2Proof.Machine

open Reg

/-- A controller's own state. -/
def Hub.can (h : Hub) (n : Nat) : CanState := Map.getD h.cans n {}

/-- A controller's own state changed. -/
def Hub.setCan (h : Hub) (n : Nat) (f : CanState → CanState) : Hub := { h with cans := Map.put h.cans n {} (f (h.can n)) }

/-- The value of a field that the protocol runs under: the old one until the first bus idle after a commit (R429). -/
def Hub.canCfg (h : Hub) (n : Nat) (f : Fld) : Nat :=
  match (h.can n).settings with
  | some r => (RegFile.find r ⟨pCan n, f.off, f.lo⟩).getD (resetOf (pCan n) f)
  | none => h.cfg (pCan n) f

/-- Whether a one-bit field is 1 in the settings that the protocol runs under. -/
def Hub.canOn (h : Hub) (n : Nat) (f : Fld) : Bool := h.canCfg n f != 0

/-! ### Message objects (R430, R431) -/

/-- Word `j` of object `i`. -/
def Hub.objWord (h : Hub) (n i j : Nat) : Nat := Mem.word (h.can n).mem (128 * i + 4 * j) 4

/-- Word `j` of object `i` set. -/
def Hub.setObjWord (h : Hub) (n i j v : Nat) : Hub := h.setCan n (fun c => { c with mem := Mem.setWord c.mem (128 * i + 4 * j) 4 v })

/-- Whether the controller owns an object. -/
def Hub.objOwned (h : Hub) (n i : Nat) : Bool := bitOf (h.objWord n i 0) 31

/-- An object's TYPE: 0 unused, 1 send, 2 receive, 3 route send. -/
def Hub.objType (h : Hub) (n i : Nat) : Nat := slice (h.objWord n i 0) 28 3

/-- An object's STATUS. -/
def Hub.objStatus (h : Hub) (n i : Nat) : Nat := slice (h.objWord n i 0) 24 4

/-- Bit `i` of a register group of four that has one bit for each object. -/
def Hub.putObjBit (h : Hub) (n : Nat) (f : Nat → Fld) (i : Nat) (b : Bool) : Hub :=
  h.put (pCan n) (f (i / 32)) (putBit (h.get (pCan n) (f (i / 32))) (i % 32) b)

/-- An object's owner and STATUS; PEND and FULL follow the status, and what is no longer PENDING leaves the order of sending. -/
def Hub.setObj (h : Hub) (n i : Nat) (own : Bool) (status : Nat) : Hub :=
  let w := h.objWord n i 0
  let h := h.setObjWord n i 0 (flag own * 2 ^ 31 + slice w 28 3 * 2 ^ 28 + status * 2 ^ 24 + slice w 0 24)
  let h := (h.putObjBit n CAN.PEND_OBJS i (status == 1)).putObjBit n CAN.FULL_OBJS i (status == 3)
  if status = 1 then h else h.setCan n (fun c => { c with order := c.order.filter (fun x => x != i) })

/-- A send object returned to software with a status: its DONE bit is set (R432); a route object becomes EMPTY and stays owned (R442). -/
def Hub.giveBack (h : Hub) (n i status : Nat) : Hub :=
  if h.objType n i = 3 then h.setObj n i true 0
  else ((h.setObj n i false status).putObjBit n CAN.DONE_OBJS i true).irq (pCan n) 1

/-- The objects of the controller for which a test holds, in ascending index. -/
def Hub.objects (h : Hub) (n : Nat) (t : Nat → Bool) : List Nat := (List.range 128).filter (fun i => h.objOwned n i && t i)

/-- The PENDING send and route objects. -/
def Hub.pendingObjects (h : Hub) (n : Nat) : List Nat := h.objects n (fun i => h.objStatus n i == 1)

/-- Every object that the controller owns returned: send objects CANCELLED, receive and route objects EMPTY (R429). -/
def Hub.returnObjects (h : Hub) (n : Nat) : Hub :=
  (h.objects n (fun _ => true)).foldl (fun g i => if g.objType n i = 1 then g.giveBack n i 6 else g.setObj n i false 0) h

/-! ### Frames (R431, R439) -/

/-- The smallest DLC whose FD length holds a number of bytes (R439, R441). -/
def canDlc (len : Nat) : Nat := ((List.range 16).find? (fun d => decide (len ≤ canLength true d))).getD 15

/-- The frame that an object spells; `esi` is the controller's error state. -/
def Hub.objFrame (h : Hub) (n i : Nat) (esi : Bool) : CanFrame :=
  let w1 := h.objWord n i 1
  let w2 := h.objWord n i 2
  let fdf := bitOf w2 31
  let rtr := bitOf w2 29
  { ide := bitOf w1 31, id := slice w1 0 29, fdf := fdf, brs := bitOf w2 30, rtr := rtr, esi := esi, dlc := slice w2 0 4,
    data := if rtr then [] else Mem.readN (h.can n).mem (128 * i + 0x20) (canLength fdf (slice w2 0 4)) }

/-- A frame written into an object's words 1 and 2 and its data bytes. -/
def Hub.putObjFrame (h : Hub) (n i : Nat) (f : CanFrame) : Hub :=
  let h := h.setObjWord n i 1 (flag f.ide * 2 ^ 31 + f.id % 2 ^ 29)
  let h := h.setObjWord n i 2 (flag f.fdf * 2 ^ 31 + flag f.brs * 2 ^ 30 + flag f.rtr * 2 ^ 29 + flag f.esi * 2 ^ 28 + f.dlc % 16)
  h.setCan n (fun c => { c with mem := Mem.writeN c.mem (128 * i + 0x20) f.data })

/-- The stamp of an object, and its fall-back flag (R424, R431). -/
def Hub.putObjStamp (h : Hub) (n i stamp : Nat) (fb : Bool) : Hub :=
  let h := h.setCan n (fun c => { c with mem := Mem.setWord c.mem (128 * i + 0x10) 8 stamp })
  h.setObjWord n i 0 (putBit (h.objWord n i 0) 22 fb)

/-- The frame's bits that arbitrate, the first sent the most significant: the lowest value wins. -/
def arbitration (f : CanFrame) : Nat :=
  if f.ide then f.id / 2 ^ 18 * 2 ^ 21 + 2 ^ 20 + 2 ^ 19 + f.id % 2 ^ 18 * 2 + flag f.rtr
  else f.id % 2 ^ 11 * 2 ^ 21 + flag f.rtr * 2 ^ 20

/-! ### States (R427, R428) -/

/-- A controller's state. -/
def Hub.canState (h : Hub) (n : Nat) : Nat := h.get (pCan n) CAN.STAT_STATE

/-- A controller's state set; entries to PASSIVE and BUS_OFF raise their sources (R443). -/
def Hub.setCanState (h : Hub) (n st : Nat) : Hub :=
  if h.canState n = st then h
  else
    let h := (h.put (pCan n) CAN.STAT_STATE st).irq (pCan n) 2
    match st with
    | 1 => h.setCan n (fun c => { c with free := false })
    | 3 => h.note (pCan n) 1
    | 4 => (h.inc (pCan n) CAN.BUSOFF_COUNT).note (pCan n) 0
    | _ => h

/-- ACTIVE or PASSIVE, by the counters. -/
def Hub.byCounters (h : Hub) (n : Nat) : Nat :=
  if 127 < h.get (pCan n) CAN.STAT_TEC ∨ 127 < h.get (pCan n) CAN.STAT_REC then 3 else 2

/-- The frame in transmission ends: nothing is sent any more. -/
def Hub.stopSending (h : Hub) (n : Nat) : Hub :=
  (h.put (pCan n) CAN.STAT_TX_BUSY 0).setCan n (fun c => { c with sending := none, cancelling := false })

/-- The frame in transmission ends without success: its object is returned where a CANCEL of it waits (R432). -/
def Hub.cutOff (h : Hub) (n : Nat) : Hub :=
  match (h.can n).sending with
  | none => h
  | some i =>
    let g := h.stopSending n
    if (h.can n).cancelling then (if h.objType n i = 3 then g.setObj n i false 0 else g.giveBack n i 6) else g

/-- The onset of a hold: a frame in transmission is cut off; its object stays, unless a CANCEL of it waits (R428, R432). -/
def Hub.holdCan (h : Hub) (n : Nat) : Hub :=
  (if (h.can n).sending = none then h else (h.cutOff n).inc (pCan n) CAN.HOLD_ABORT_COUNT).setCanState n 5

/-- The protocol stops: nothing is sent or received, and the settings of the last commit hold. -/
def Hub.quietCan (h : Hub) (n : Nat) : Hub :=
  ((h.cutOff n).put (pCan n) CAN.STAT_RX_BUSY 0).setCan n (fun c => { c with recovering := false, settings := none })

/-- A controller brought into line with its fence, its EN and the hold of the mode (R427, R428). A commit of EN 0 returns the objects of a fenced
controller too (R429); it stays FENCED. -/
def Hub.alignCan (h : Hub) (n : Nat) : Hub :=
  let st := h.canState n
  if h.fenced (pCan n) then
    let h := if st = 6 then h else (h.quietCan n).setCanState n 6
    if h.cfgOn (pCan n) PG.CTRL_EN then h else h.returnObjects n
  else if !h.cfgOn (pCan n) PG.CTRL_EN then
    (if st = 0 then h else ((h.quietCan n).returnObjects n).setCanState n 0)
  else if h.gated (pCan n) then (if st = 6 then h.setCanState n 1 else h)
  else
    let h := if st = 0 ∨ st = 6 then h.setCanState n 1 else h
    if h.canState n = 4 then h
    else if h.driving then (if h.canState n = 5 then h.setCanState n 1 else h)
    else if h.canState n = 5 then h
    else h.holdCan n

/-- Every controller brought into line. -/
def Hub.alignCans (h : Hub) : Hub := (List.range 4).foldl (fun g n => g.alignCan n) h

/-- A soft reset: the running state is gone, and the objects belong to software (R61). -/
def Hub.resetCan (h : Hub) (n : Nat) : Hub :=
  let h := (h.objects n (fun _ => true)).foldl (fun g i => g.setObj n i false 0) h
  (h.setCan n (fun c => { mem := c.mem, rx := c.rx })).alignCan n

/-- Message memory cleared by a power gate (R429). -/
def Hub.clearCan (h : Hub) (n : Nat) : Hub :=
  (List.range 4).foldl (fun g j => (g.put (pCan n) (CAN.PEND_OBJS j) 0).put (pCan n) (CAN.FULL_OBJS j) 0) (h.setCan n (fun c => { rx := c.rx }))

/-- A commit's effect: EN at once; other settings at the next bus idle; FD_EN and BRS_EN cleared return the send objects that break R433
(R429). -/
def Hub.commitCan (h old : Hub) (n : Nat) : Hub :=
  let p := pCan n
  let h := h.alignCan n
  let cleared (f : Fld) : Bool := old.cfgOn p f && !h.cfgOn p f
  let breaks (i : Nat) : Bool :=
    h.objType n i == 1 && h.objStatus n i == 1 &&
      ((bitOf (h.objWord n i 2) 31 && !h.cfgOn p CAN.CFG_FD_EN) || (bitOf (h.objWord n i 2) 30 && !h.cfgOn p CAN.CFG_BRS_EN))
  let h :=
    if cleared CAN.CFG_FD_EN || cleared CAN.CFG_BRS_EN then
      (h.objects n breaks).foldl
        (fun g i => if (g.can n).sending = some i then g.setCan n (fun c => { c with cancelling := true }) else g.giveBack n i 6) h
    else h
  let page (r : RegFile) : RegFile := r.filter (fun e => e.1.page == p && e.1.off != 0x008 && e.1.off != 0x020)
  if h.canState n = 0 ∨ h.canState n = 6 ∨ (h.can n).settings ≠ none ∨ page h.committed = page old.committed then h
  else h.setCan n (fun c => { c with settings := some (page old.committed) })

/-- The first bus idle after a commit: the new settings apply, and the controller integrates (R429). -/
def Hub.idleCan (h : Hub) (n : Nat) : Hub :=
  match (h.can n).settings with
  | none => h
  | some _ =>
    let h := h.setCan n (fun c => { c with settings := none })
    if h.canState n = 2 ∨ h.canState n = 3 then h.setCanState n 1 else h

/-- What REVERT discards: every PENDING frame is counted (R79); EN then returns the objects. -/
def Hub.countCanWork (h : Hub) (n : Nat) : Hub := h.addTo pSys SYS.COMMIT_DROPS_DROPS (h.pendingObjects n).length

/-- Whether the controller follows frames on the bus. -/
def Hub.canReceives (h : Hub) (n : Nat) : Bool := h.canState n == 2 || h.canState n == 3 || h.canState n == 5

/-- The bus is idle, or an intermission ends, with nothing of this controller's own begun: a dominant level there is a start of frame (R444). -/
def Hub.busFree (h : Hub) (n : Nat) : Hub :=
  if !h.canReceives n || (h.can n).sending.isSome then h
  else (h.put (pCan n) CAN.STAT_RX_BUSY (flag !(h.can n).rx)).setCan n (fun c => { c with free := c.rx })

/-- The level of CANn_RX changes: on a free bus a dominant one starts another node's frame, which the controller receives (R444). -/
def Hub.canEdge (h : Hub) (n : Nat) (level : Bool) : Hub :=
  let h := h.setCan n (fun c => { c with rx := level })
  if level || !(h.can n).free || !h.canReceives n || (h.can n).sending.isSome then h
  else (h.put (pCan n) CAN.STAT_RX_BUSY 1).setCan n (fun c => { c with free := false })

/-! ### Sending (R434 to R436) -/

/-- The object that the controller chooses (R434). -/
def Hub.chooseObject (h : Hub) (n : Nat) : Option Nat :=
  let c := h.pendingObjects n
  if h.canOn n CAN.CFG_TXORD then (h.can n).order.find? (fun i => c.contains i)
  else
    c.foldl (fun (best : Option Nat) i =>
      match best with
      | none => some i
      | some b => if arbitration (h.objFrame n i false) < arbitration (h.objFrame n b false) then some i else some b) none

/-- An attempt has failed: the object is cancelled, abandoned at its limit, or waits for the next choice (R432, R435). -/
def Hub.attemptFailed (h : Hub) (n i count limit status : Nat) : Hub :=
  let cancel := (h.can n).cancelling
  let h := h.cutOff n
  if cancel then h
  else if limit ≠ 0 ∧ limit ≤ count then (h.giveBack n i status).inc (pCan n) CAN.ABANDONED_COUNT
  else h

/-- Entry to BUS_OFF: recovery counts at once under AUTO_RECOVER, and BUSOFF_FLUSH returns what is PENDING (R427, R436). -/
def Hub.enterBusOff (h : Hub) (n : Nat) : Hub :=
  let h := (h.setCanState n 4).put (pCan n) CAN.STAT_RX_BUSY 0
  let h := h.setCan n (fun c => { c with recovering := h.canOn n CAN.CFG_AUTO_RECOVER })
  if h.canOn n CAN.CFG_BUSOFF_FLUSH then
    (h.pendingObjects n).foldl
      (fun g i => if g.objType n i = 3 then (g.giveBack n i 0).inc (pCan n) CAN.ABANDONED_COUNT else g.giveBack n i 7) h
  else h

/-- The state follows the counters (R427). -/
def Hub.canConfine (h : Hub) (n : Nat) : Hub :=
  if h.canState n ≠ 2 ∧ h.canState n ≠ 3 then h
  else if 255 < h.get (pCan n) CAN.STAT_TEC then h.enterBusOff n
  else h.setCanState n (h.byCounters n)

/-- Whether transmitter delay compensation is in effect (R426). -/
def Hub.tdcOn (h : Hub) (n : Nat) : Bool :=
  if h.canOn n CAN.TDC_USE then h.canOn n CAN.TDC_EN
  else h.canOn n CAN.CFG_BRS_EN && decide (1000 < h.canCfg n CAN.DATA_RATE)

/-- Whether the transmission of an object measures the loop delay: an FD frame under compensation (R426). -/
def Hub.measures (h : Hub) (n i : Nat) : Bool := h.tdcOn n && bitOf (h.objWord n i 2) 31

/-- The loop delay that an FD transmission measured, in kernel periods (R426). -/
def Hub.measureTdc (h : Hub) (n i delay : Nat) : Hub :=
  if h.measures n i then h.put (pCan n) CAN.TDC_STAT_DELAY (min 127 delay) else h

/-- The frame in transmission of object `i` meets an error, for which ISO 11898-1 adds 8 to TEC `eights` times (R435). -/
def Hub.sendError (h : Hub) (n i eights : Nat) : Hub :=
  let p := pCan n
  let e := satAdd 8 (slice (h.objWord n i 6) 8 8) 1
  let h := h.setObjWord n i 6 (h.objWord n i 6 / 2 ^ 16 * 2 ^ 16 + e * 2 ^ 8 + slice (h.objWord n i 6) 0 8)
  let h := (h.inc p CAN.TX_ERR_COUNT).put p CAN.STAT_TEC (min 511 (h.get p CAN.STAT_TEC + 8 * eights))
  (h.attemptFailed n i e (h.canCfg n CAN.CFG_ERR_LIM) 5).canConfine n

/-! ### Receiving and routing (R437, R440 to R442) -/

/-- Whether a receive object's filter takes a frame. -/
def Hub.objAccepts (h : Hub) (n : Nat) (f : CanFrame) (i : Nat) : Bool :=
  let mask := slice (h.objWord n i 3) 0 29
  h.objType n i == 2 && bitOf (h.objWord n i 1) 31 == f.ide && (f.id &&& mask) == (slice (h.objWord n i 1) 0 29 &&& mask)

/-- A frame stored in an object, with its RSEQ (R437). -/
def Hub.storeFrame (h : Hub) (n i : Nat) (f : CanFrame) (stamp : Nat) (fb own : Bool) (seq : Nat) : Hub :=
  let h := (h.putObjFrame n i f).putObjStamp n i stamp fb
  let w := h.objWord n i 0
  let h := h.setObjWord n i 0 (putBit (w / 2 ^ 16 * 2 ^ 16 + seq) 23 own)
  ((h.setObj n i false 3).inc (pCan n) CAN.RX_OK_COUNT).irq (pCan n) 0

/-- A valid frame considered for storage (R437). -/
def Hub.considerFrame (h : Hub) (n : Nat) (f : CanFrame) (stamp : Nat) (fb own : Bool) : Hub :=
  if !(List.range 128).any (fun i => h.objAccepts n f i) then h
  else
    let seq := h.get (pCan n) CAN.RSEQ_NEXT
    let g := h.put (pCan n) CAN.RSEQ_NEXT (seq + 1)
    match h.objects n (fun i => h.objAccepts n f i && h.objStatus n i == 0) with
    | i :: _ => g.storeFrame n i f stamp fb own seq
    | [] => ((g.inc (pCan n) CAN.RX_LOST_COUNT).irq (pCan n) 3).note (pCan n) 2

/-- A valid frame of another node offered to the outbound routes (R440); whether one took it. -/
def Hub.routeCan (h : Hub) (n : Nat) (f : CanFrame) (stamp : Nat) : Hub × Bool :=
  let taken := (List.range 512).any (fun e => h.routeMatches e 0 n f.ide f.id)
  (h.routeOut 0 n (flag f.ide + 2 * flag f.fdf + 4 * flag f.brs + 8 * flag f.rtr) f.id (stamp / 8) f.data, taken)

/-- The frame that an inbound routed message is sent as; none where R441 discards it, an FD frame of more than 64 bytes among them (R439). `ide` and `lid` are the entry's, or with `keep` the received ones. -/
def Hub.routedFrame (h : Hub) (n flags : Nat) (keep ide : Bool) (lid : Nat) (data : List Byte) : Option CanFrame :=
  let fdf := bitOf flags 1
  let brs := bitOf flags 2
  let rtr := bitOf flags 3
  let l := data.length
  if (fdf && rtr) || (fdf && decide (64 < l)) || (fdf && !h.canOn n CAN.CFG_FD_EN) || (brs && !fdf) || (brs && !h.canOn n CAN.CFG_BRS_EN) || (keep && !ide && decide (0x7FF < lid)) then none
  else if fdf then
    let d := canDlc l
    some { ide := ide, id := lid, fdf := true, brs := brs, dlc := d, data := data ++ List.replicate (canLength true d - l) 0 }
  else if rtr then some { ide := ide, id := lid, rtr := true }
  else if 8 < l then none
  else some { ide := ide, id := lid, dlc := l, data := data }

/-- An inbound routed message fills the lowest EMPTY route object, or finds the transmit queue full (R441, R442). -/
def Hub.routeToCan (h : Hub) (n flags : Nat) (keep ide : Bool) (lid : Nat) (data : List Byte) : Hub :=
  match h.routedFrame n flags keep ide lid data with
  | none => h.inc (pCan n) CAN.RT_BAD_COUNT
  | some f =>
    match (if h.fenced (pCan n) then [] else h.objects n (fun i => h.objType n i == 3 && h.objStatus n i == 0)) with
    | [] => h.inc pBrg BRG.RT_OVF_COUNT
    | i :: _ =>
      let h := (h.putObjFrame n i f).setObj n i true 1
      (h.setCan n (fun c => { c with order := c.order ++ [i] })).inc pBrg BRG.RT_RX_COUNT

end Sys2Proof.Machine
end

