-- ==== Sys2Proof/Machine/HostOps.lean ====
section
/-!
DEFINITION. The host port's shared operations: queue pairs that start and stop, mailbox readers, resets (R463, R472 to R483).
Where the manual is open: DEDUCED, log entries 24 and 51; PRESUMED, log entry 43.
-/
namespace Sys2Proof.Machine

open Reg

/-! ### Queue pairs (R472, R475, R477) -/

/-- The state of a queue pair: 0 off, 1 running, 2 error, 3 draining. -/
def Hub.qpState (h : Hub) (q : Nat) : Nat := h.get pHost (HOST.QP_STAT_STATE q)

/-- The queue pair and the descriptor that a frame waiting at the bridge belongs to. -/
def Issue.desc (i : Issue) (q : Nat) : Option Nat :=
  match i.origin with
  | .dma p d => if p = q then some d else none
  | _ => none

/-- The descriptors of a queue pair whose frames wait at the bridge for tokens or a read slot (R475). -/
def Hub.waitingDescs (h : Hub) (q : Nat) : List Nat := h.brg.waiting.filterMap (fun i => i.desc q)

/-- A running queue pair stops: descriptors not issued stay with the host, those that wait for tokens or a slot among them, and it drains while
issued ones are open (R477). -/
def Hub.stopQp (h : Hub) (q : Nat) : Hub :=
  if h.qpState q ≠ 1 then h
  else
    let x := h.qp q
    let back := h.waitingDescs q
    let next := match x.descs.find? (fun d => !d.issued || back.contains d.idx) with
      | some d => d.idx
      | none => x.next
    let left := x.descs.filter (fun d => d.issued && d.status.isNone && !back.contains d.idx)
    let h := h.setBrg (fun b => { b with waiting := b.waiting.filter (fun i => (i.desc q).isNone) })
    (h.setQp q { x with next := next, descs := left }).put pHost (HOST.QP_STAT_STATE q) (if left = [] then 0 else 3)

/-- EN of a queue pair written 0; a pair in error drains as well (R472, R477). -/
def Hub.disableQp (h : Hub) (q : Nat) : Hub :=
  ((if h.qpState q = 2 then h.put pHost (HOST.QP_STAT_STATE q) 1 else h).put pHost (HOST.QP_CFG_EN q) 0).stopQp q

/-- Every queue pair stops. -/
def Hub.stopQps (h : Hub) : Hub := (List.range 8).foldl (fun g q => g.stopQp q) h

/-- A queue pair that may run starts: EN is 1, the function can master the bus, the link is up, the port is not fenced (R472). -/
def Hub.startQp (h : Hub) (q : Nat) : Hub :=
  if h.on pHost (HOST.QP_CFG_EN q) ∧ h.qpState q = 0 ∧ h.pcieUp ∧ h.fenced pHost = false then h.put pHost (HOST.QP_STAT_STATE q) 1 else h

/-- The link is lost: LINK_LOSS where it was up, and the queue pairs stop (R477, R487). -/
def Hub.pcieLost (h : Hub) : Hub :=
  if h.on pHost HOST.STAT_LINK_UP then
    (((h.putIrq pHost HOST.STAT_LINK_UP 0 0).put pHost HOST.STAT_RATE 0).put pHost HOST.STAT_WIDTH 0).stopQps.note pHost 0
  else h

/-- The queue pairs in line with the link, the power state, Bus Master Enable and the fence; a gated port has no link (R109). -/
def Hub.alignHost (h : Hub) : Hub :=
  if h.gated pHost then h.pcieLost
  else if h.pcieUp ∧ h.fenced pHost = false then (List.range 8).foldl (fun g q => g.startQp q) h else h.stopQps

/-- The write-back area of a queue pair. -/
def Hub.writeBack (h : Hub) (q : Nat) : Nat := h.get64 pHost (HOST.QP_WB_LO_ADDR q) (HOST.QP_WB_HI_ADDR q)

/-- A fundamental or hot reset: every queue pair stops, its registers take their reset values, the link and the function are gone (R477, R487). -/
def Hub.perst (h : Hub) : Hub :=
  let h := if h.on pHost HOST.STAT_LINK_UP then h.stopQps.note pHost 0 else h.stopQps
  let h := { h with
    live := h.live.filter (fun e => !(e.1.page == pHost && decide (0x100 ≤ e.1.off) && decide (e.1.off < 0x300)))
    host := { h.host with qps := [], config := [] } }
  let h := h.putIrq pHost HOST.STAT_LINK_UP 0 0
  (((h.put pHost HOST.STAT_RATE 0).put pHost HOST.STAT_WIDTH 0).put pHost HOST.STAT_D3 0).put pHost HOST.STAT_BME 0

/-- The straps choose the host interface; the vendor ID comes from the fuses (R463, R464). -/
def Hub.strapHost (h : Hub) : Hub :=
  let s := h.get pSys SYS.STRAPS_HOSTSEL
  let i := if s = 1 then 1 else if s = 2 then 2 else 0
  ((h.put pHost HOST.STAT_IF i).put pHost PG.STAT_BLOCK i).put pHost HOST.PCI_ID_VENDOR (h.fuse 8)

/-! ### Mailbox readers (R483) -/

/-- Whether a requester is present as a mailbox's reader (R483). -/
def Hub.readerPresent (h : Hub) (code : Nat) : Bool :=
  if code = 0x8 then (if h.hostIf = 1 then h.pcieUp else h.hostIf == 2 && h.on pHost HOST.ALIVE_ALIVE)
  else if code = 0x9 then h.on pStw STW.STAT_READY
  else if code = 0xA then h.get pStw STW.STAT_ANX_STATE == 2
  else h.tenantOn code

/-- WAITING clears on every mailbox whose reader is present again (R483). -/
def Hub.noteReaders (h : Hub) : Hub :=
  (List.range 16).foldl (fun g m =>
    if g.on pMbx (MBX.STAT_WAITING m) && g.readerPresent (g.cfg pMbx (MBX.CFG_READER m)) then g.put pMbx (MBX.STAT_WAITING m) 0 else g) h

/-- The FULL bits repeated in PG_STAT.BLOCK. -/
def Hub.setFull (h : Hub) (m : Nat) (b : Bool) : Hub :=
  (h.put pMbx (MBX.STAT_FULL m) (flag b)).put pMbx PG.STAT_BLOCK (putBit (h.get pMbx PG.STAT_BLOCK) m b)

end Sys2Proof.Machine
end

