-- ==== Sys2Proof/Machine/EtherOps.lean ====
section
/-!
DEFINITION. The local Ethernet port's shared operations: link state, stamps (R447, R449, R456).
Where the manual is open: DEDUCED, log entry 25.
-/
namespace Sys2Proof.Machine

open Reg

/-- The preemption state shown: 0 off, 1 verifying, 2 active, 3 failed (R449, R461). -/
def Hub.setPreempt (h : Hub) (n : Nat) : Hub := h.putIrq pEth ETH.STAT_PREEMPT n 1

/-- The link state shown (R461). -/
def Hub.setEtherLink (h : Hub) (b : Bool) : Hub := (h.putIrq pEth ETH.STAT_LINK (flag b) 0).put pEth PG.STAT_BLOCK (flag b)

/-- The port's own state changed. -/
def Hub.setEther (h : Hub) (f : EtherState → EtherState) : Hub := { h with ether := f h.ether }

/-- Whether the port carries traffic: in Cellar and from Transparent on, neither fenced nor gated (R447, R460). -/
def Hub.etherRuns (h : Hub) : Bool := h.mode.fromCellar && h.mode != .test && h.active pEth && !h.gated pEth

/-- The link goes down; LINK_LOSS where it was up, and the frames being sent are lost in TX_DOWN (R447, R449, R460). -/
def Hub.etherDown (h : Hub) : Hub :=
  if h.on pEth ETH.STAT_LINK then
    let lost := h.ether.ends.length + flag h.ether.part.isSome + h.ether.waiting.length
    let h := (h.addTo pEth ETH.TX_DOWN_COUNT lost).setEther (fun s => { s with busy := 0, ends := [], part := none, waiting := [], rx := none })
    (((h.setEtherLink false).put pEth ETH.STAT_AN_DONE 0).setPreempt 0).note pEth 0
  else h

/-- The port in line with the mode, its EN and its fence; a fenced port discards what its receive buffers hold (R460). -/
def Hub.alignEther (h : Hub) : Hub :=
  let h := if h.fenced pEth then h.setSw (fun s => { s with bulk := s.bulk.filter (fun a => a.ingress != 2) }) else h
  if h.etherRuns then h else h.etherDown

/-! ### Preemption and the line (R446, R449) -/

/-- A verify mPacket sent (R449). -/
def Hub.sendVerify (h : Hub) : Hub :=
  (h.setEther (fun s => { s with verifies := s.verifies + 1, verifyAt := h.clock })).emit (.mpacket false)

/-- Preemption with the link up, by the settings in effect: none at 10 or 100 Mbit/s, active at once with VERIFY_DIS, else verified from link-up or
from EN on (R449). -/
def Hub.alignPreempt (h : Hub) : Hub :=
  let slow := h.get pEth ETH.STAT_SPEED_EFF == 1 || h.get pEth ETH.STAT_SPEED_EFF == 2
  if !h.on pEth ETH.STAT_LINK then h
  else if !h.cfgOn pEth ETH.PREEMPT_EN || slow then h.setPreempt 0
  else if h.cfgOn pEth ETH.PREEMPT_VERIFY_DIS then h.setPreempt 2
  else if h.get pEth ETH.STAT_PREEMPT = 0 then ((h.setEther (fun s => { s with verifies := 0 })).setPreempt 1).sendVerify
  else h

/-- The edges of C that a number of bytes takes on the line, at the speed in effect (R446). -/
def Hub.etherTicks (h : Hub) (n : Nat) : Nat :=
  match h.get pEth ETH.STAT_SPEED_EFF with
  | 0 => 4 * n
  | 1 => 40 * n
  | 2 => 400 * n
  | _ => (8 * n + 4) / 5

/-- Whether nothing is on the line. -/
def Hub.etherFree (h : Hub) : Bool := decide (h.ether.busy ≤ h.clock)

/-- Whether a fragment may end after `cut` bytes of a frame: it keeps the minimum with its check, and 64 bytes remain (R449; the rest of 64 is Clause
99's, PRESUMED, log entry 42). -/
def Hub.mayCut (h : Hub) (sent cut total : Nat) : Bool :=
  h.get pEth ETH.STAT_PREEMPT == 2 && decide (sent + 64 * (1 + h.cfg pEth ETH.PREEMPT_ADD_FRAG) ≤ cut + 4) && decide (cut + 64 ≤ total)

/-- A frame, or the rest of one, put on the line: a Bulk frame up to `cut` where a fragment may end there (R449). -/
def Hub.putOnLine (h : Hub) (x : EtherPart) (bulk : Bool) (cut : Nat) : Hub :=
  let stop := if bulk && h.mayCut x.sent cut x.bytes.length then cut else x.bytes.length
  let whole := stop == x.bytes.length
  let at_ := max h.clock h.ether.busy + h.etherTicks (stop - x.sent)
  let h := h.setEther (fun s =>
    { s with busy := at_, ends := if whole then s.ends ++ [at_] else s.ends
             part := if !whole then some { x with sent := stop } else if x.sent = 0 then s.part else none })
  h.emit (if whole && x.sent == 0 then .ether x.bytes else .mfragment ((x.bytes.take stop).drop x.sent) (x.sent == 0) whole)

/-- What an edge of the clock does at the port: the frames whose last bit has left are counted in TX_OK (R461). -/
def Hub.etherEdge (h : Hub) : Hub :=
  let n := (h.ether.ends.filter (fun t => decide (t ≤ h.clock))).length
  if n = 0 then h
  else (h.addTo pEth ETH.TX_OK_COUNT n).setEther (fun s => { s with ends := s.ends.filter (fun t => decide (h.clock < t)) })

/-- A latency of the port in ps, for the interface in effect (TS_LAT, R456). -/
def Hub.etherLatency (h : Hub) (tx : Bool) : Int :=
  if h.cfgOn pEth ETH.TS_LAT_USE then toSigned 15 (h.cfg pEth (if tx then ETH.TS_LAT_TX_LAT else ETH.TS_LAT_RX_LAT))
  else Config.calibration ((List.range 15).map (fun i => h.fuse (9 + i))) (14 + 2 * h.cfg pEth ETH.CFG_MODE + flag (!tx))

/-- The stamp of a frame in eighths of a tick of ring time, modulo 2^64; `c8` is its instant on C in eighths of a tick (R456). -/
def Hub.etherStamp (h : Hub) (tx : Bool) (c8 : Nat) : Nat :=
  let lat := tenthsToFine (h.etherLatency tx * 10)
  let t := h.timeAt c8 + (if tx then lat else -lat)
  (t / 2 ^ 13 % (2 ^ 64 : Nat)).toNat

end Sys2Proof.Machine
end

