-- ==== Sys2Proof/Machine/SerOps.lean ====
section
/-!
DEFINITION. What the UART, SPI and I2C controllers share: FIFOs, event stamps, pins, and what a mode, a fence or a commit does to them
(R361 to R368).
Where the manual is open: DEDUCED, log entry 27.
-/
namespace Sys2Proof.Machine

open Reg

/-- A controller's own state. -/
def Hub.ser (h : Hub) (p : Nat) : SerState := Map.getD h.sers p {}

/-- A controller's own state changed. -/
def Hub.setSer (h : Hub) (p : Nat) (f : SerState → SerState) : Hub := { h with sers := Map.put h.sers p {} (f (h.ser p)) }

/-- A UART's own state changed. -/
def Hub.setUart (h : Hub) (p : Nat) (f : UartState → UartState) : Hub := h.setSer p (fun s => { s with uart := f s.uart })

/-- An SPI controller's own state changed. -/
def Hub.setSpi (h : Hub) (p : Nat) (f : SpiState → SpiState) : Hub := h.setSer p (fun s => { s with spi := f s.spi })

/-- An I²C controller's own state changed. -/
def Hub.setI2c (h : Hub) (p : Nat) (f : I2cState → I2cState) : Hub := h.setSer p (fun s => { s with i2c := f s.i2c })

/-- A committed value; `old` for work begun before the last commit (R56). -/
def Hub.serCfg (h : Hub) (p : Nat) (old : Bool) (f : Fld) : Nat :=
  if old then (RegFile.find (h.ser p).prior ⟨p, f.off, f.lo⟩).getD (resetOf p f) else h.cfg p f

/-- Whether a page is that of a serial controller. -/
def isSerial (p : Nat) : Bool := kindOf p == some .uart || kindOf p == some .spi || kindOf p == some .i2c

/-- Whether a 32-bit write at an offset of a page pushes a transmit entry: TXD and the push window (R361). -/
def pushPlace (p off : Nat) : Bool := isSerial p && (off == 0x040 || inWin 0xC00 off)

/-- Whether a 32-bit read at an offset of a page pops a receive entry: RXD and the pop window (R361). -/
def popPlace (p off : Nat) : Bool := isSerial p && (off == 0x044 || inWin 0xD00 off)

/-- Every serial page. -/
def serialPages : List Nat := (List.range 16).map pUart ++ (List.range 8).map pSpi ++ (List.range 8).map pI2c

/-! ### Pins (R351, R353, R367) -/

/-- The signals that a controller drives; an SPI controller's role is ROLE of CLK. -/
def Hub.outSignals (h : Hub) (p : Nat) : List Nat :=
  match kindOf p with
  | some .uart => [0, 2, 3]
  | some .spi => if h.cfg p SPI.CLK_ROLE = 1 then [2] else [0, 1, 3, 4, 5, 6]
  | some .i2c => [0, 1]
  | _ => []

/-- Whether a controller's outputs are held at their safe value: by the mode, its own fence, or a condition on a claimed output (R86, R367). -/
def Hub.serHeld (h : Hub) (p : Nat) : Bool :=
  !h.driving || h.fenced p ||
    (h.outSignals p).any (fun s => match h.pinOf p s with
      | some c => h.safeCond c
      | none => false)

/-- Whether a signal drives a pin that is high-impedance for want of its supply or class (R98, R328). -/
def Hub.unpowered (h : Hub) (p s : Nat) : Bool :=
  match h.pinOf p s with
  | some c => !h.pinPowered c
  | none => false

/-- An event of a controller on a signal: its channel leaves a safe value that it holds until the next event (R22, R64). -/
def Hub.serialEvent (h : Hub) (p s : Nat) : Hub :=
  match h.pinOf p s with
  | some c => if h.safeCond c then h else h.setCh c (fun x => { x with waiting := false })
  | none => h

/-- The signals that change with a signal: SCK with MOSI, both lines of an I²C bus. -/
def clockedWith (p s : Nat) : List Nat :=
  if kindOf p = some .i2c then [0, 1] else if kindOf p = some .spi ∧ s = 1 then [0, 1] else [s]

/-- What a controller puts on a signal leaves the hub where the signal's pin is powered (R97, R98). -/
def Hub.sendOut (h : Hub) (p s : Nat) (x : SerialOut) : Hub :=
  let h := (clockedWith p s).foldl (fun g s => g.serialEvent p s) h
  if h.unpowered p s then h else h.emit (.serial p x)

/-- Whether a controller hears an input signal: a channel carries it that neither a fence nor shedding holds (R353, R367). The mode holds no
input, for receivers run in Held (R76; DEDUCED, log entry 27). -/
def Hub.hears (h : Hub) (p s : Nat) : Bool :=
  match h.pinOf p s with
  | some c => !h.fenced (pCh c) && !h.bankShed (c / 8)
  | none => false

/-- The idle level of an input signal: RX, a chip select and an I²C line high, CTS deasserted, SCK as CPOL has it (R353, R379, R382). -/
def Hub.idleLevel (h : Hub) (p s : Nat) : Bool :=
  match kindOf p with
  | some .uart => s == 1
  | some .spi => if s = 0 then h.cfg p SPI.CLK_ROLE == 2 || h.cfgOn p SPI.CLK_CPOL else decide (3 ≤ s)
  | _ => true

/-- The level of an input signal, its idle level where it is not heard (R353). -/
def Hub.signalLevel (h : Hub) (p s : Nat) : Bool :=
  match h.pinOf p s with
  | some c => if h.hears p s then (h.ch c).filt else h.idleLevel p s
  | none => h.idleLevel p s

/-- The `n` levels that come in on a data signal; where it is not heard its idle level, which the manual does not give for MISO and MOSI: a
free level (R353; DEDUCED, log entry 27). -/
def Hub.heard (h : Hub) (p s n v : Nat) : Nat × Hub :=
  if h.hears p s then (v % 2 ^ n, h) else (if bitOf h.fresh.1 0 then 2 ^ n - 1 else 0, h.fresh.2)

/-! ### Lines (R369, R379) -/

/-- The levels of `n` bits in line order. -/
def lineBits (msb : Bool) (n v : Nat) : List Bool := (List.range n).map (fun i => bitOf v (if msb then n - 1 - i else i))

/-- The number whose bits are those of another in the opposite order. -/
def reverseBits (n v : Nat) : Nat := (List.range n).foldl (fun a i => a + flag (bitOf v (n - 1 - i)) * 2 ^ i) 0

/-- The bit rate of an IO-Link speed: COM1 to COM3 (R376). -/
def iolRate : Nat → Nat
  | 1 => 4800
  | 2 => 38400
  | _ => 230400

/-- A UART's bit time in 1/256 of a grid unit (R369, R376). -/
def Hub.bitTime (h : Hub) (p : Nat) : Nat :=
  if h.cfg p UART.FRAME_MODE = 2 then 128000000000 / iolRate (h.ser p).uart.com
  else h.expert p UART.BITTIME_USE UART.BITTIME_TBIT (128000000000 / h.cfg p UART.BAUD_RATE)

/-- A UART's character format: data bits, parity, stop in half bits; forced in IO-Link (R369, R376). -/
def Hub.charBits (h : Hub) (p : Nat) : Nat := if h.cfg p UART.FRAME_MODE = 2 then 8 else h.cfg p UART.FRAME_BITS
def Hub.charParity (h : Hub) (p : Nat) : Nat := if h.cfg p UART.FRAME_MODE = 2 then 1 else h.cfg p UART.FRAME_PARITY
def Hub.charStop (h : Hub) (p : Nat) : Nat := if h.cfg p UART.FRAME_MODE = 2 then 2 else 2 + h.cfg p UART.FRAME_STOP
def Hub.charMsb (h : Hub) (p : Nat) : Bool := h.cfg p UART.FRAME_MODE != 2 && h.cfgOn p UART.FRAME_MSB_FIRST

/-- The parity bit of a character: none, even, odd, mark or space (R369). -/
def parityBit (parity bits c : Nat) : List Bool :=
  match parity with
  | 0 => []
  | 1 => [oddOnes bits c]
  | 2 => [!oddOnes bits c]
  | 3 => [true]
  | _ => [false]

/-- A character as it goes onto the line, cut to BITS (R369). -/
def Hub.charOut (h : Hub) (p c : Nat) : SerialOut :=
  let n := h.charBits p
  .char ([false] ++ lineBits (h.charMsb p) n c ++ parityBit (h.charParity p) n (c % 2 ^ n)) (h.charStop p)

/-- The length of a character in ticks (R374). -/
def Hub.charTicks (h : Hub) (p : Nat) : Nat :=
  (2 * (1 + h.charBits p + flag (h.charParity p != 0)) + h.charStop p) * h.bitTime p / 512

/-! ### DE and the receiver (R370, R372, R391) -/

/-- Whether a UART's DE is asserted: from a transmission's start until LAG after its end (R372). -/
def Hub.deAsserted (h : Hub) (p : Nat) : Bool :=
  let u := (h.ser p).uart
  u.de || (match u.releaseAt with
    | some c => h.cfgOn p UART.DE_CFG_DE_EN && decide (h.clock < c)
    | none => false)

/-- Whether a half-duplex receiver ignores a character that started `ago` edges of the clock ago: DE was asserted then, or had been less than
TURN before (R372). -/
def Hub.echoes (h : Hub) (p ago : Nat) : Bool :=
  let u := (h.ser p).uart
  u.de || (match u.releaseAt with
    | some c => h.cfgOn p UART.DE_CFG_DE_EN && decide (h.clock - ago < c + 50 * h.cfg p UART.DE_CFG_TURN)
    | none => false)

/-- Whether a character that started `ago` edges ago is an echo (R372). -/
def Hub.ignoresEcho (h : Hub) (p ago : Nat) : Bool := h.cfgOn p UART.FRAME_HALF && h.cfgOn p UART.FRAME_ECHO_OFF && h.echoes p ago

/-- Whether a character is being received: a start edge lies less than a character back (R391). -/
def Hub.rxBusy (h : Hub) (p : Nat) : Bool :=
  match (h.ser p).uart.rxSince with
  | some c => decide (h.clock - c < h.charTicks p)
  | none => false

/-- An edge of RX: a rising one ends a break, and a start that has lasted less than half a bit; a falling one begins a character (R370). -/
def Hub.rxEdge (h : Hub) (p : Nat) (rising : Bool) : Hub :=
  let u := (h.ser p).uart
  if rising then
    let h := h.put p UART.STAT_BREAK 0
    (match u.rxSince with
     | some c => if 512 * (h.clock - c) < h.bitTime p then h.setUart p (fun u => { u with rxSince := none }) else h
     | none => h)
  else if h.rxBusy p || h.on p UART.STAT_BREAK || h.ignoresEcho p 0 then h
  else h.setUart p (fun u => { u with rxSince := some h.clock })

/-- An accepted edge of a channel reaches the serial controller that claims it: RX of a UART, or SDA of an I²C bus, where it is a START or a STOP
of any master while SCL is high (R387, R393). -/
def Hub.serialEdge (h : Hub) (c : Nat) (rising : Bool) : Hub :=
  match h.claim c with
  | none => h
  | some (p, s) =>
    if s ≠ 1 || !h.runs p || !h.hears p s then h
    else
      match kindOf p with
      | some .uart => h.rxEdge p rising
      | some .i2c => if h.signalLevel p 0 then h.put p I2C.STAT_BUS_BUSY (flag (!rising)) else h
      | _ => h

/-! ### Stamps (R368) -/

/-- An event stamped, where its code is enabled (R368). -/
def Hub.stampSer (h : Hub) (p code stamp : Nat) (fb : Bool) : Hub :=
  if !bitOf (h.cfg p SER.TS_EN_EVENTS) (code - 1) then h
  else
    let s := h.ser p
    if 16 ≤ s.stamps.length then h.inc p SER.TS_OVF_COUNT
    else
      let e : SerStamp := { stamp := stamp % 2 ^ 64, rxPos := s.rxPos, code := code, fb := fb }
      let g := h.setSer p (fun s => { s with stamps := s.stamps ++ [e] })
      if s.stamps = [] then g.irq p 3 else g

/-! ### The receive FIFO (R362, R364) -/

/-- RTS follows the receive level: deasserted from 56, asserted below 48 (R373). -/
def Hub.rtsFollow (h : Hub) (p : Nat) : Hub :=
  let n := (h.ser p).rx.length
  let old := (h.ser p).uart.rts
  let rts := if 56 ≤ n then false else if n < 48 then true else old
  if kindOf p ≠ some .uart ∨ rts = old then h else (h.setUart p (fun u => { u with rts := rts })).serialEvent p 3

/-- A receive entry pushed by the controller; one that finds the FIFO full is lost (R364), which is a fault source of a UART and of an SPI slave
(R389). A UART entry after a loss carries LOST. -/
def Hub.pushRx (h : Hub) (p e : Nat) : Hub :=
  let s := h.ser p
  if 64 ≤ s.rx.length then
    let h := h.setSer p (fun s => { s with lost := true })
    if kindOf p = some .i2c then h
    else
      let h := h.inc p SER.RX_OVR_COUNT
      if kindOf p = some .spi ∧ h.cfg p SPI.CLK_ROLE ≠ 1 then h else h.note p 0
  else
    let e := if s.lost && kindOf p == some .uart then withBit e 26 else e
    let h := h.setSer p (fun s => { s with rx := s.rx ++ [e], lost := false, rxPos := (s.rxPos + 1) % 65536 })
    let h := if s.rx.length + 1 = h.cfg p SER.FIFO_CFG_RX_THR then h.irq p 0 else h
    h.rtsFollow p

/-- An I²C status or STOP entry pushed, or put behind those that wait for room. -/
def Hub.pushOwed (h : Hub) (p e : Nat) : Hub :=
  if (h.ser p).i2c.due = [] ∧ (h.ser p).rx.length < 64 then h.pushRx p e else h.setI2c p (fun i => { i with due := i.due ++ [e] })

/-- Entries that waited for room follow, as far as there is room. -/
def Hub.settleOwed (h : Hub) (p : Nat) : Nat → Hub
  | 0 => h
  | n + 1 =>
    match (h.ser p).i2c.due with
    | [] => h
    | e :: l => if 64 ≤ (h.ser p).rx.length then h else ((h.setI2c p (fun i => { i with due := l })).pushRx p e).settleOwed p n

/-- A receive entry popped; the idle item from an empty FIFO, which is counted (R362). An entry that waited for room follows. -/
def Hub.popRx (h : Hub) (p : Nat) : Nat × Hub :=
  match (h.ser p).rx with
  | [] => (0x80000000, h.inc p SER.EMPTY_RD_COUNT)
  | e :: l =>
    (e, ((h.setSer p (fun s => { s with rx := l })).rtsFollow p).settleOwed p 1)

/-- The receive FIFO emptied (R390). -/
def Hub.flushRx (h : Hub) (p : Nat) : Hub := ((h.setSer p (fun s => { s with rx := [] })).rtsFollow p).settleOwed p 64

/-! ### The transmit FIFO (R361, R363, R365) -/

/-- An entry stored in the transmit FIFO. -/
def Hub.storeTx (h : Hub) (p v : Nat) : Hub := h.setSer p (fun s => { s with tx := s.tx ++ [v % 2 ^ 32] })

/-- Stalled writes complete, the oldest first, while an entry is free (R363). -/
def Hub.storeStalled (h : Hub) (p : Nat) : Nat → Hub
  | 0 => h
  | n + 1 =>
    match (h.ser p).stalled with
    | [] => h
    | (w, v) :: l => (((h.setSer p (fun s => { s with stalled := l })).storeTx p v).stallEnds w 0).storeStalled p n

/-- Entries have left the transmit FIFO, which holds `l` now: stalled writes complete in the places freed (R363, R364), and the threshold is
watched. -/
def Hub.setTx (h : Hub) (p : Nat) (l : List Nat) : Hub :=
  let n := (h.ser p).tx.length
  let h := (h.setSer p (fun s => { s with tx := l })).storeStalled p (64 - l.length)
  let thr := h.cfg p SER.FIFO_CFG_TX_THR
  if thr < n ∧ (h.ser p).tx.length ≤ thr then h.irq p 1 else h

/-- The oldest transmit entry leaves. -/
def Hub.dropTx (h : Hub) (p : Nat) : Hub := h.setTx p ((h.ser p).tx.drop 1)

/-- Several of the oldest transmit entries leave. -/
def Hub.dropTxN (h : Hub) (p : Nat) : Nat → Hub
  | 0 => h
  | n + 1 => if (h.ser p).tx = [] then h else (h.dropTx p).dropTxN p n

/-! ### SPI master frames (R380) -/

/-- A frame ends: its chip select is released unless KEEP = 1 (R380). -/
def Hub.endFrame (h : Hub) (p : Nat) : Hub :=
  let h := (h.put p SPI.STAT_FRAME_OPEN 0).put p SPI.STAT_WORDS_LEFT 0
  (h.setSpi p (fun s =>
    let kept := match s.frame with
      | some (cs, true, _) => some cs
      | _ => none
    { s with frame := none, kept := kept })).irq p 4

/-- The frame under way is cut short: what is left of it is discarded and its end is counted (R367). -/
def Hub.abortFrame (h : Hub) (p : Nat) : Hub :=
  let left := h.get p SPI.STAT_WORDS_LEFT
  let now := min left (h.ser p).tx.length
  let h := ((h.setSpi p (fun s => { s with skip := left - now })).endFrame p).setSpi p (fun s => { s with kept := none })
  (h.inc p SPI.FRAME_ABORT_COUNT).dropTxN p now

/-- One step of a master that has no frame: the entry at the front starts a frame, or is discarded (R367, R380). The assertion of CS is stamped;
after KEEP it is asserted already (R368). -/
def Hub.masterStep (h : Hub) (p : Nat) : Hub :=
  match (h.ser p).tx with
  | [] => h
  | e :: _ =>
    let s := (h.ser p).spi
    if 0 < s.skip then (h.setSpi p (fun s => { s with skip := s.skip - 1 })).dropTx p
    else if e / 2 ^ 24 ≠ 0xC5 then
      let h := if s.discard then h else h.inc p SPI.BAD_CMD_COUNT
      (h.setSpi p (fun s => { s with discard := true })).dropTx p
    else
      let n := slice e 0 10
      let cs := slice e 22 2
      let h := (h.setSpi p (fun s => { s with discard := false, frame := some (cs, bitOf e 21, bitOf e 20), kept := none })).dropTx p
      let h := ((h.put p SPI.STAT_FRAME_OPEN 1).put p SPI.STAT_CS_ACT cs).put p SPI.STAT_WORDS_LEFT n
      let h := if s.kept = some cs then h else (h.serialEvent p (3 + cs)).stampSer p 2 (h.outputStamp 0) h.onFallBack
      if n = 0 then h.endFrame p else h

/-- Whether a controller is an SPI master that may start a frame. -/
def Hub.masterIdle (h : Hub) (p : Nat) : Bool :=
  kindOf p == some .spi && h.cfg p SPI.CLK_ROLE == 0 && h.runs p && !h.serHeld p && (h.ser p).spi.frame.isNone

/-- A master without a frame takes entries until one starts a frame or none is left. -/
def Hub.advanceMaster (h : Hub) (p : Nat) : Nat → Hub
  | 0 => h
  | n + 1 => if h.masterIdle p && (h.ser p).tx != [] then (h.masterStep p).advanceMaster p n else h

/-! ### SSI reads (R368, R382) -/

/-- The ticks until a read may start: TM after the last rising edge of the previous one (R382). -/
def Hub.ssiWait (h : Hub) (p : Nat) : Nat :=
  match (h.ser p).spi.ssiEnded with
  | some c => 500 * h.cfg p SPI.SSI_TM - (h.clock - c)
  | none => 0

/-- An SSI read whose first falling clock edge comes `ahead` ticks from now, stamped as an output edge (R368). -/
def Hub.startSsi (h : Hub) (p ahead : Nat) : Hub :=
  let x := (h.outputStamp ahead, h.onFallBack)
  ((h.serialEvent p 0).stampSer p 5 x.1 x.2).setSpi p (fun s => { s with ssiStart := x })

/-- An SSI read has ended, half a clock period after its last rising edge (R382). -/
def Hub.endSsi (h : Hub) (p : Nat) : Hub :=
  let half := h.expert p SPI.TIMING_USE SPI.TIMING_HALF ((250000 + h.cfg p SPI.CLK_FREQ - 1) / h.cfg p SPI.CLK_FREQ)
  h.setSpi p (fun s => { s with ssiEnded := some (h.clock - half) })

/-! ### I²C entries that are discarded (R387) -/

/-- Entries discarded up to and including the next STOP. -/
def Hub.discardI2c (h : Hub) (p : Nat) : Nat → Hub
  | 0 => h
  | n + 1 =>
    match (h.ser p).tx with
    | [] => h
    | e :: _ =>
      if !(h.ser p).i2c.discard then h
      else
        let stop := slice e 28 3 == 4
        ((h.setI2c p (fun i => { i with discard := !stop })).dropTx p).discardI2c p n

/-- What a controller does at once with the entries in its transmit FIFO. -/
def Hub.takeEntries (h : Hub) (p : Nat) : Hub := (h.advanceMaster p 130).discardI2c p 130

/-! ### Pushes (R76, R361, R363) -/

/-- A push of a transmit entry: refused in Held and on a fenced page, stalled while the FIFO is full. -/
def Hub.pushTx (h : Hub) (p v : Nat) (w : Waiter) : Hub :=
  if h.modeEff = .held then (h.inc pSys SYS.OUT_REFUSED_COUNT).stallEnds w 0x07
  else if h.fenced p then h.stallEnds w 0x08
  else if 64 ≤ (h.ser p).tx.length then h.setSer p (fun s => { s with stalled := s.stalled ++ [(w, v)] })
  else ((h.storeTx p v).stallEnds w 0).takeEntries p

/-- The oldest stalled write ends without its entry; `n` is 1 where that is counted (R363). -/
def Hub.endStall (h : Hub) (p n : Nat) : Hub :=
  match (h.ser p).stalled with
  | [] => h
  | (w, _) :: l => ((h.setSer p (fun s => { s with stalled := l })).addTo p SER.STALL_TO_COUNT n).stallEnds w 0x08

/-- The oldest stalled write ends at STALL_MAX (R363). -/
def Hub.stallTimeout (h : Hub) (p : Nat) : Hub := h.endStall p 1

/-- The transmit FIFO emptied; stalled writes end as at a timeout (R363, R390). -/
def Hub.flushTx (h : Hub) (p : Nat) : Hub :=
  let n := (h.ser p).stalled.length
  let h := (List.range n).foldl (fun g _ => g.stallTimeout p) h
  h.setTx p []

/-! ### I²C status (R387) -/

/-- The counter of a status. -/
def i2cCounter : Nat → Fld
  | 0x01 => I2C.ADDR_NACK_COUNT
  | 0x02 => I2C.DATA_NACK_COUNT
  | 0x03 => I2C.ARB_LOST_COUNT
  | 0x04 => I2C.STRETCH_TO_COUNT
  | 0x05 => I2C.ABORTED_COUNT
  | 0x06 => I2C.BUS_CLEAR_COUNT
  | _ => I2C.SEQ_ERR_COUNT

/-- A transaction ends with a status: its entry and counter, its fault source, a STOP on a bus that the master holds except after 0x03,
and the discard of what is left of it (R387, R389). -/
def Hub.i2cStatus (h : Hub) (p code index : Nat) : Hub :=
  let h := ((h.pushOwed p (0x10000000 + index % 65536 * 256 + code)).irq p 4).inc p (i2cCounter code)
  let h := match code with
    | 0x03 => h.note p 0
    | 0x04 => h.note p 1
    | 0x06 => h.note p 2
    | _ => h
  let held := (h.ser p).i2c.held != none
  let h := h.setI2c p (fun i => { i with held := none, index := 0, read := 0, discard := true })
  let h := if held && code != 0x03 then (h.put p I2C.STAT_BUS_BUSY 0).sendOut p 1 (.bus 0x40000000) else h
  h.discardI2c p 130

/-! ### Holds, fences, resets and commits (R56, R79, R365, R367) -/

/-- Whether a master is between words: no data entry, or no room for what it receives (R380). -/
def Hub.betweenWords (h : Hub) (p : Nat) : Bool :=
  (h.ser p).tx == [] || (match (h.ser p).spi.frame with
    | some (_, _, off) => !off && decide (64 ≤ (h.ser p).rx.length)
    | none => true)

/-- A slave's selection ends (R381). -/
def Hub.endSelection (h : Hub) (p : Nat) (partWord : Bool) : Hub :=
  let h := (h.put p SPI.STAT_FRAME_OPEN 0).irq p 4
  if partWord then h.inc p SPI.SLV_PART_COUNT else h

/-- A controller in line with its pins, the mode, its fence and its EN: a master's frame or transaction that stands between words ends
where its outputs are held, and so does a chip select that KEEP holds; a UART's and a master's work resumes where they are not. A UART that
no longer hears RX, and a slave that no longer hears CS0, see the idle level: a break and a selection end (whether a part of a word is lost is
free: DEDUCED, log entry 27). -/
def Hub.alignSer (h : Hub) (p : Nat) : Hub :=
  match kindOf p with
  | some .uart => if h.hears p 1 then h else (h.put p UART.STAT_BREAK 0).setUart p (fun u => { u with rxSince := none })
  | some .spi =>
    let h := if h.serHeld p then h.setSpi p (fun s => { s with kept := none }) else h
    let h := if h.cfg p SPI.CLK_ROLE = 1 ∧ h.on p SPI.STAT_FRAME_OPEN ∧ !h.hears p 3 then h.fresh.2.endSelection p (bitOf h.fresh.1 0) else h
    if h.serHeld p && (h.ser p).spi.frame.isSome && h.betweenWords p then h.abortFrame p else h.takeEntries p
  | some .i2c => if h.serHeld p && (h.ser p).i2c.held.isSome && (h.ser p).tx == [] then h.i2cStatus p 0x05 0 else h
  | _ => h

/-- Every controller in line. -/
def Hub.alignSers (h : Hub) : Hub := h.sers.foldl (fun (g : Hub) (e : Nat × SerState) => g.alignSer e.1) h

/-- A soft reset: both FIFOs, the stamp FIFO and the running state are gone (R61, R365). -/
def Hub.resetSer (h : Hub) (p : Nat) : Hub :=
  let n := (h.ser p).stalled.length
  ((List.range n).foldl (fun g _ => g.endStall p 0) h).setSer p (fun s => { prior := s.prior })

/-- A disabled controller's work ends: its running state is gone, its FIFOs, RTS and a routed message that waits stay (R56, R373). -/
def Hub.stopSer (h : Hub) (p : Nat) : Hub :=
  let h := h.setSer p (fun s =>
    { s with spi := {}, i2c := {}, finishing := false
             uart := { buffer := if s.uart.fromBuffer then [] else s.uart.buffer, rts := s.uart.rts } })
  match kindOf p with
  | some .uart =>
    let h := h.put p UART.STAT_RT_PEND (flag ((h.ser p).uart.buffer != []))
    [UART.STAT_IOL_STATE, UART.STAT_COM_EFF, UART.STAT_TX_BUSY, UART.STAT_MSG_OPEN, UART.STAT_BREAK].foldl (fun g f => g.put p f 0) h
  | some .spi => [SPI.STAT_FRAME_OPEN, SPI.STAT_WORDS_LEFT].foldl (fun g f => g.put p f 0) h
  | _ => [I2C.STAT_BUS_BUSY, I2C.STAT_ADDRESSED].foldl (fun g f => g.put p f 0) h

/-- Whether a character, word or byte is in progress (R364). -/
def Hub.busySer (h : Hub) (p : Nat) : Bool :=
  match kindOf p with
  | some .uart => h.on p UART.STAT_TX_BUSY || h.rxBusy p
  | some .spi => h.on p SPI.STAT_FRAME_OPEN && ((h.ser p).spi.frame.isNone || !h.betweenWords p) || (h.ser p).spi.reading
  | _ => (h.ser p).i2c.held.isSome && (h.ser p).tx != [] || (h.ser p).i2c.slave.isSome

/-- The character, word or byte that was in progress when EN fell has finished: the work ends (R56). -/
def Hub.finishSer (h : Hub) (p : Nat) : Hub :=
  if (h.ser p).finishing && !(kindOf p == some .uart && h.busySer p) then h.stopSer p else h

/-- Whether a controller works: it runs, or `old` work that began before the commit that took EN away finishes (R56, R364). -/
def Hub.works (h : Hub) (p : Nat) (old : Bool) : Bool := h.runs p || (old && (h.ser p).finishing && !h.fenced p)

/-- A commit's effect: FIFO contents are kept, RX_POS starts anew where the page becomes enabled, and a disabled controller's work ends (R56, R368). -/
def Hub.commitSer (h old : Hub) (p : Nat) : Hub :=
  let page := old.committed.filter (fun (e : Key × Nat) => e.1.page == p)
  if page = h.committed.filter (fun (e : Key × Nat) => e.1.page == p) then h.alignSer p
  else
    let h := h.setSer p (fun s => { s with prior := page })
    let was := old.cfgOn p PG.CTRL_EN
    let is_ := h.cfgOn p PG.CTRL_EN
    let h := if is_ && !was then h.setSer p (fun s => { s with rxPos := 0 }) else h
    let h := if is_ then h.setSer p (fun s => { s with finishing := false }) else h
    (if was && !is_ then (if h.busySer p then h.setSer p (fun s => { s with finishing := true }) else h.stopSer p) else h).alignSer p

/-- What REVERT discards: each transmit entry, and a routed message that waits, counted (R79); stalled writes complete in the places freed (R363). -/
def Hub.discardSer (h : Hub) (p : Nat) : Hub :=
  let s := h.ser p
  let n := s.tx.length + s.uart.chars.length + (if s.uart.buffer = [] then 0 else 1)
  let h := (h.setSer p (fun s => { s with uart := { s.uart with chars := [], buffer := [] } })).setTx p []
  let h := if kindOf p = some .uart then h.put p UART.STAT_RT_PEND 0 else h
  h.addTo pSys SYS.COMMIT_DROPS_DROPS n

/-! ### Messages from the ring (R375) -/

/-- An inbound routed message takes a UART's transmit message buffer, or finds it occupied (R277, R375). -/
def Hub.routeToUart (h : Hub) (n id : Nat) (data : List Byte) : Hub :=
  let p := pUart n
  if (h.ser p).uart.buffer ≠ [] ∨ (h.ser p).uart.fromBuffer ∨ h.fenced p = true then h.inc pBrg BRG.RT_OVF_COUNT
  else
    ((h.setUart p (fun u => { u with buffer := leBytes (h.cfg p UART.MSG_CFG_ID_LEN) id ++ data })).put p UART.STAT_RT_PEND 1).inc
      pBrg BRG.RT_RX_COUNT

end Sys2Proof.Machine
end

