-- ==== Sys2Proof/Machine/PrismOps.lean ====
section
/-!
DEFINITION. The Prism engines' shared operations: memories, queues, pins, states (R395 to R405, R413 to R418).
Where the manual is open: DEDUCED, log entry 28.
-/
namespace Sys2Proof.Machine

open Reg

/-- An engine's own state. -/
def Hub.eng (h : Hub) (e : Nat) : PrsState := Map.getD h.prs e {}

/-- An engine's own state changed. -/
def Hub.setEng (h : Hub) (e : Nat) (f : PrsState → PrsState) : Hub := { h with prs := Map.put h.prs e {} (f (h.eng e)) }

/-- STAT.STATE of an engine (R399). -/
def Hub.prsState (h : Hub) (e : Nat) : Nat := h.get (pPrs e) PRS.STAT_STATE

/-- STAT.STATE set, with PG_IRQ_RAW bit 0 on a change. -/
def Hub.setPrsState (h : Hub) (e st : Nat) : Hub := h.putIrq (pPrs e) PRS.STAT_STATE st 0

/-- Whether the program may be loaded: OFF, STOPPED, HALTED or FAULTED (R397). -/
def Hub.loadable (h : Hub) (e : Nat) : Bool := [0, 1, 4, 5].contains (h.prsState e)

/-! ### Memories (R396 to R398) -/

/-- A program word. -/
def Hub.progWord (h : Hub) (e i : Nat) : Nat := Mem.word h.prsMem (0x10000 * e + 4 * i) 4

/-- A data word. -/
def Hub.dataWord (h : Hub) (e j : Nat) : Nat := Mem.word h.prsMem (0x10000 * e + 0x1000 + 4 * j) 4

/-- A data word set. -/
def Hub.setDataWord (h : Hub) (e j v : Nat) : Hub := { h with prsMem := Mem.setWord h.prsMem (0x10000 * e + 0x1000 + 4 * j) 4 v }

/-- The check over the program (R398). -/
def Hub.progSum (h : Hub) (e : Nat) : Nat :=
  let n := h.get (pPrs e) PRS.PROG_LEN
  if n = 0 then 0 else crc32c (Mem.readN h.prsMem (0x10000 * e) (4 * n))

/-- SUM_CALC is no longer up to date. -/
def Hub.staleSum (h : Hub) (e : Nat) : Hub := h.setEng e (fun s => { s with stale := true })

/-- A write to an engine's memories that is turned away: by the owner of its page, a gate or Safe-stop (R92, R113, R396). -/
def Hub.memTurnedAway (h : Hub) (req : Req) (e off : Nat) : Option Hub :=
  let p := pPrs e
  if h.hostTurned req p then some h
  else if !h.mayWrite req p then some (h.ownErr req p off)
  else if h.gated p then some (h.gateErr req p off)
  else if h.mode == .safeStop then some h
  else none

/-- The status of a write that memTurnedAway stops. -/
def Hub.memStatus (h : Hub) (req : Req) (e : Nat) : Nat :=
  if h.hostTurned req (pPrs e) then stBusy else if !h.mayWrite req (pPrs e) then stOwner else if h.gated (pPrs e) then stGated else stBusy

/-! ### Ticks (R402, R418) -/

/-- The length of a tick in edges of the 500 MHz clock. -/
def Hub.tickLen (h : Hub) (e : Nat) : Nat := 2 * max 1 (h.cfg (pPrs e) PRS.CFG_DIV)

/-- The edges from the engine's anchor to a clock count; below 0 while the anchor lies ahead. -/
def Hub.edgesTo (h : Hub) (e c : Nat) : Int := (c : Int) - (h.eng e).anchor

/-- The whole ticks from the anchor to a clock count. -/
def Hub.ticksAt (h : Hub) (e c : Nat) : Nat := (h.edgesTo e c / h.tickLen e).toNat

/-- The whole ticks since the anchor. -/
def Hub.ticksDone (h : Hub) (e : Nat) : Nat := h.ticksAt e h.clock

/-- Whether a tick begins at this edge. -/
def Hub.atTick (h : Hub) (e : Nat) : Bool := decide (0 ≤ h.edgesTo e h.clock) && h.edgesTo e h.clock % h.tickLen e == 0

/-- Whether `t` ticks from the anchor have passed. -/
def Hub.tickReached (h : Hub) (e t : Nat) : Bool := decide (0 ≤ h.edgesTo e h.clock) && decide (t ≤ h.ticksDone e)

/-- Whether the ticks of the instruction, delay, shift or timeout in progress have passed. -/
def Hub.ticksOver (h : Hub) (e : Nat) : Bool := h.tickReached e (h.eng e).ticks

/-- Whether a wait may end without its count: at the beginning of a tick after its first. -/
def Hub.waitMayEnd (h : Hub) (e : Nat) : Bool := h.atTick e && h.tickReached e (h.eng e).first

/-- The anchor moved to a clock count by which `n` ticks have passed: what counts from it has as many fewer to go. -/
def Hub.reAnchor (h : Hub) (e c n : Nat) : Hub :=
  h.setEng e (fun s => { s with
    anchor := c, ticks := s.ticks - n, first := s.first - n, after := s.after.map (fun a => (a.1 - n, a.2)) })

/-- The anchor moved to the last tick that has begun. -/
def Hub.reTick (h : Hub) (e : Nat) : Hub := h.reAnchor e ((h.eng e).anchor + h.ticksDone e * h.tickLen e) (h.ticksDone e)

/-- The divider put to phase 0 at a clock count: whole ticks that have passed by then count, the one that is cut does not (R418). -/
def Hub.rephase (h : Hub) (e c : Nat) : Hub := h.reAnchor e c (h.ticksAt e c)

/-- A new DIV applies from the first tick that begins at or after this edge (R402). -/
def Hub.newDiv (h old : Hub) (e : Nat) : Hub :=
  let l := old.tickLen e
  let d := h.edgesTo e h.clock
  if h.tickLen e = l ∨ d ≤ 0 then h
  else
    let n := ((d + l - 1) / l).toNat
    h.reAnchor e ((h.eng e).anchor + n * l) n

/-- The first edge of the 250 MHz domain after a clock count; the domain's edges are those of even counts (DESIGN CHOICE, log entry 28). -/
def edgeAfter (c : Nat) : Nat := (c / 2 + 1) * 2

/-- The first edge of the 250 MHz domain at or after a clock count. -/
def edgeFrom (c : Nat) : Nat := (c + 1) / 2 * 2

/-- Something that an instruction of `n` ticks, begun at the anchor, does at its end. -/
def Hub.doAfter (h : Hub) (e n : Nat) (x : PrsAfter) : Hub := h.setEng e (fun s => { s with after := s.after ++ [(n, x)] })

/-! ### Pins (R403 to R405) -/

/-- A pin of an engine is driven to a level: an event of its channel, without effect while the safe value is held (R22). -/
def Hub.drivePin (h : Hub) (e i : Nat) (level : Bool) : Hub :=
  match h.pinOf (pPrs e) i with
  | some c =>
    if h.safeCond c then h
    else (h.setCh c (fun s => { s with level := level, waiting := false })).setEng e (fun s =>
      { s with changed := Map.set s.changed i h.clock, safe := withoutBit s.safe i })
  | none => h

/-- Half a period of the highest signal frequency of a channel's bank class, in edges of the 500 MHz clock: 20 ns in the 5.0 V class, else 8 ns
(R327, R404). -/
def Hub.pinGap (h : Hub) (c : Nat) : Nat := if h.bankClass (c / 8) = 4 then 10 else 4

/-- Whether a change of a pin would come too soon after its last, on another grid point (R404, R405). -/
def Hub.tooSoon (h : Hub) (e i c : Nat) : Bool :=
  match Map.find (h.eng e).changed i with
  | some t => decide (t < h.clock) && decide (h.clock < t + h.pinGap c)
  | none => false

/-- The change of an output pin; one that comes too soon after the last is deferred and counted, the last deferred one winning (R404). -/
def Hub.changePin (h : Hub) (e i : Nat) (level : Bool) : Hub :=
  match h.pinOf (pPrs e) i with
  | none => h
  | some c =>
    if (Map.find (h.eng e).deferred i).isNone && !(h.ch c).waiting && (h.ch c).level == level then h
    else if h.tooSoon e i c then
      (h.setEng e (fun s => { s with deferred := Map.set s.deferred i level })).inc (pPrs e) PRS.PIN_DEFER_COUNT
    else (h.setEng e (fun s => { s with deferred := Map.erase s.deferred i })).drivePin e i level

/-- The output pins in `mask` take their bits of `val` (R403, R404). -/
def Hub.changePins (h : Hub) (e mask val : Nat) : Hub :=
  (List.range 8).foldl (fun g i => if bitOf mask i && bitOf (g.eng e).dirs i then g.changePin e i (bitOf val i) else g) h

/-- Whether a pin is seen: claimed, and its channel not at its safe value (R403, R408). An input is at its safe value while a condition of
R22 holds its channel (DEDUCED, log entry 28). -/
def Hub.pinSeen (h : Hub) (e i : Nat) : Bool :=
  match h.pinOf (pPrs e) i with
  | none => false
  | some c => if bitOf (h.eng e).dirs i then !h.safeNow c else !h.safeCond c

/-- The filtered level of a pin as the program sees it (R403, R408). -/
def Hub.pinLevel (h : Hub) (e i : Nat) : Bool :=
  match h.pinOf (pPrs e) i with
  | none => false
  | some c => h.pinSeen e i && (h.ch c).filt

/-- The levels of all eight pins. -/
def Hub.pinLevels (h : Hub) (e : Nat) : Nat := (List.range 8).foldl (fun a i => a + flag (h.pinLevel e i) * 2 ^ i) 0

/-- An accepted edge of a channel reaches the engine that claims it: a WAITP for such an edge, begun before it, takes it; the first one counts
(R408). -/
def Hub.prismEdge (h : Hub) (c : Nat) (x : RawEdge) (rising : Bool) : Hub :=
  match h.claim c with
  | none => h
  | some (page, i) =>
    if kindOf page ≠ some .prs then h
    else
      let e := instOf page
      match (h.eng e).wait with
      | .pin p cond t none =>
        if p = i ∧ cond = (if rising then 2 else 3) ∧ h.pinSeen e i then h.setEng e (fun s => { s with wait := .pin p cond t (some (x, h.clock)) }) else h
      | _ => h

/-! ### Shifts (R409) -/

/-- The bits that a shift moves, and the ticks it takes. -/
def shiftBits (w : Nat) : Nat := slice w 13 6 + 1
def shiftTicks (w : Nat) : Nat := if bitOf w 9 then 2 * shiftBits w else shiftBits w

/-- Bit `j` in the order of moving. -/
def shiftBit (w v j : Nat) : Bool := if bitOf w 19 then bitOf v (shiftBits w - 1 - j) else bitOf v j

/-- What a shift drives at the beginning of tick `i`: the clock pin low and then high, the data pin with the clock low. -/
def Hub.shiftDrive (h : Hub) (e : Nat) (input : Bool) (w v i : Nat) : Hub :=
  let d := slice w 20 3
  let k := slice w 10 3
  let ck := bitOf w 9
  let h := if ck then h.changePins e (2 ^ k) (if i % 2 = 1 then 2 ^ k else 0) else h
  let j := if ck then i / 2 else i
  if input ∨ (ck ∧ i % 2 = 1) then h else h.changePins e (2 ^ d) (if shiftBit w v j then 2 ^ d else 0)

/-- What a shift samples at the end of the tick before tick `i`: the data pin, at the end of a bit. -/
def Hub.shiftSample (h : Hub) (e w got i : Nat) : Nat :=
  let n := if bitOf w 9 then i / 2 else i
  if n = 0 ∨ (bitOf w 9 ∧ i % 2 = 1) then got else putBit got (n - 1) (h.pinLevel e (slice w 20 3))

/-- A shift at the beginning of a tick; one that a RESTART begins anew has been stepped already (R409, R418). -/
def Hub.shiftStep (h : Hub) (e : Nat) : Hub :=
  match (h.eng e).wait with
  | .shift input w v got step =>
    let i := shiftTicks w - ((h.eng e).ticks - h.ticksDone e)
    if !h.atTick e || decide (i ≤ step) then h
    else
      let got := if input then h.shiftSample e w got i else got
      let h := h.setEng e (fun s => { s with wait := .shift input w v got i })
      if i < shiftTicks w then h.shiftDrive e input w v i else h
  | _ => h

/-! ### States (R399 to R401) -/

/-- An engine leaves RUNNING or WAIT_START, if it is there: its slots are discarded, its output pins take their safe values (R400). -/
def Hub.leaveRun (h : Hub) (e cause : Nat) : Hub :=
  if h.prsState e ≠ 2 ∧ h.prsState e ≠ 3 then h
  else
    let h := (List.range 16).foldl (fun g s => if (Map.find g.slots (e * 16 + s)).isSome then g.dropSlot e s false else g) h
    let h := (List.range 8).foldl (fun g i =>
      match g.pinOf (pPrs e) i with
      | some c => if bitOf (g.eng e).dirs i then g.safeOnset c else g
      | none => g) h
    (h.setEng e (fun s => { s with
      wait := .none, deferred := [], safe := s.safe ||| s.dirs
      after := s.after.filter (fun a => h.tickReached e a.1 && (match a.2 with
        | .publish _ => true
        | _ => false)) })).put (pPrs e) PRS.STAT_CAUSE cause

/-- A stop: STOPPED, from RUNNING or WAIT_START only. -/
def Hub.stopPrs (h : Hub) (e cause : Nat) : Hub :=
  if h.prsState e = 2 ∨ h.prsState e = 3 then (h.leaveRun e cause).setPrsState e 1 else h

/-- An engine begins to run; its first instruction begins at the count `edge` (R401). -/
def Hub.beginRun (h : Hub) (e edge : Nat) : Hub :=
  let h := (h.setEng e (fun s => { s with pc := h.get (pPrs e) PRS.PROG_ENTRY, z := false, n := false, c := false, stack := [],
                                          wait := .none, dirs := 0, anchor := edge, ticks := 0 })).setFlags e (0, 0)
  h.setPrsState e 3

/-- The JOIN in effect of an engine's pair (R415). -/
def Hub.joinOf (h : Hub) (e : Nat) : Nat := h.cfg (pPrs (e - e % 2)) PRS.CFG_JOIN

/-- The first check of R401 that a start fails; 0 for none. `again` admits an engine in WAIT_START. -/
def Hub.startCheck (h : Hub) (e : Nat) (again : Bool) : Nat :=
  let p := pPrs e
  let st := h.prsState e
  let m := h.modeEff
  let len := h.get p PRS.PROG_LEN
  if !(st == 1 || st == 4 || st == 5 || (again && st == 2)) then 4
  else if !(m == .armed || m == .running || m == .degraded || m == .islanded) then 2
  else if len = 0 ∨ 1024 < len ∨ len ≤ h.get p PRS.PROG_ENTRY then 3
  else if (h.eng e).stale ∨ h.get p PRS.SUM_CALC_CALC ≠ h.get p PRS.PROG_SUM_SUM then 1
  else if h.commitBusy ∧ h.get (pPrs (e - e % 2)) PRS.CFG_JOIN ≠ h.joinOf e then 5
  else 0

/-- A refused start, recorded and counted (R401). -/
def Hub.startRefused (h : Hub) (e err : Nat) : Hub := (h.put (pPrs e) PRS.STAT_START_ERR err).inc (pPrs e) PRS.START_REF_COUNT

/-- An engine brought into line with its fence, its EN and the mode (R399). -/
def Hub.alignPrs (h : Hub) (e : Nat) : Hub :=
  let p := pPrs e
  let st := h.prsState e
  if h.fenced p then (h.leaveRun e 5).setPrsState e 6
  else if !h.runs p then (h.leaveRun e 7).setPrsState e 0
  else if st = 0 ∨ st = 6 then h.setPrsState e 1
  else if h.mode = .safeStop ∨ h.mode = .shelf ∨ h.mode = .test then (h.leaveRun e 6).setPrsState e 1
  else h

/-- Every engine brought into line. -/
def Hub.alignAllPrs (h : Hub) : Hub := (List.range 32).foldl (fun g e => g.alignPrs e) h

/-! ### Queues (R413, R415) -/

/-- The room of an engine's queues. -/
def Hub.queueDepth (h : Hub) (e : Nat) : Nat := if h.joinOf e = 2 then 32 else 16

/-- Whether an engine's OUT is the next engine's IN. -/
def Hub.chained (h : Hub) (e : Nat) : Bool := e % 2 == 0 && h.joinOf e == 1

/-- Whether an engine is the odd one of a chained or deep pair. -/
def Hub.joinedOdd (h : Hub) (e : Nat) : Bool := e % 2 == 1 && h.joinOf e != 0

/-- An engine's OUT as it stands. -/
def Hub.outQueue (h : Hub) (e : Nat) : List Nat := if h.chained e then (h.eng (e + 1)).inq else (h.eng e).outq

/-- An engine's OUT changed. -/
def Hub.setOut (h : Hub) (e : Nat) (f : List Nat → List Nat) : Hub :=
  if h.chained e then h.setEng (e + 1) (fun s => { s with inq := f s.inq }) else h.setEng e (fun s => { s with outq := f s.outq })

/-- A word stored in OUT; PG_IRQ_RAW bit 1 when the level reaches OUT_THR. -/
def Hub.storeOut (h : Hub) (e v : Nat) : Hub :=
  let h := h.setOut e (fun l => l ++ [v])
  if (h.outQueue e).length = h.cfg (pPrs e) PRS.QCFG_OUT_THR then h.irq (pPrs e) 1 else h

/-- Stalled pushes complete, the oldest first, while IN has room (R363, R413). -/
def Hub.storeStalledIn (h : Hub) (e : Nat) : Nat → Hub
  | 0 => h
  | n + 1 =>
    match (h.eng e).stalled with
    | [] => h
    | (w, v) :: l => ((h.setEng e (fun s => { s with stalled := l, inq := s.inq ++ [v % 2 ^ 32] })).stallEnds w 0).storeStalledIn e n

/-- Words have left IN, which holds `l` now: stalled pushes complete in the places freed; PG_IRQ_RAW bit 2 when the level falls to IN_THR. -/
def Hub.setIn (h : Hub) (e : Nat) (l : List Nat) : Hub :=
  let n := (h.eng e).inq.length
  let h := (h.setEng e (fun s => { s with inq := l })).storeStalledIn e (h.queueDepth e - l.length)
  let thr := h.cfg (pPrs e) PRS.QCFG_IN_THR
  if thr < n ∧ (h.eng e).inq.length ≤ thr then h.irq (pPrs e) 2 else h

/-- The oldest word leaves IN. -/
def Hub.dropIn (h : Hub) (e : Nat) : Hub := h.setIn e ((h.eng e).inq.drop 1)

/-- A push to IN by another requester (R76, R413, R415). -/
def Hub.pushIn (h : Hub) (e v : Nat) (w : Waiter) : Hub :=
  if h.modeEff = .held then (h.inc pSys SYS.OUT_REFUSED_COUNT).stallEnds w 0x07
  else if h.fenced (pPrs e) ∨ h.joinedOdd e then h.stallEnds w 0x08
  else if h.queueDepth e ≤ (h.eng e).inq.length then h.setEng e (fun s => { s with stalled := s.stalled ++ [(w, v)] })
  else (h.setEng e (fun s => { s with inq := s.inq ++ [v % 2 ^ 32] })).stallEnds w 0

/-- The oldest stalled push to IN ends without its word (R363, R413). -/
def Hub.stallTimeoutIn (h : Hub) (e : Nat) : Hub :=
  match (h.eng e).stalled with
  | [] => h
  | (w, _) :: l => ((h.setEng e (fun s => { s with stalled := l })).inc (pPrs e) PRS.STALL_TO_COUNT).stallEnds w 0x08

/-- IN emptied; stalled pushes end as at a timeout. -/
def Hub.flushIn (h : Hub) (e : Nat) : Hub :=
  ((List.range (h.eng e).stalled.length).foldl (fun g _ => g.stallTimeoutIn e) h).setIn e []

/-- A pop of OUT by another requester; none where the pair is chained (R413, R415). -/
def Hub.popOut (h : Hub) (e : Nat) : Option (Nat × Hub) :=
  if h.chained e then none
  else
    match (h.eng e).outq with
    | [] => some (0x80000000, h.inc (pPrs e) PRS.EMPTY_RD_COUNT)
    | v :: l => some (v, h.setEng e (fun s => { s with outq := l }))

/-! ### Resets and commits (R61, R79, R399, R415) -/

/-- A soft reset: the engine stops, its queues and running state are gone, its memories stay; `old` is the hub before it. -/
def Hub.resetPrs (h old : Hub) (e : Nat) : Hub :=
  let h := (List.range (h.eng e).stalled.length).foldl (fun g _ => g.stallTimeoutIn e) h
  let st := old.prsState e
  let h := h.put (pPrs e) PRS.STAT_STATE st
  let h := if st = 2 ∨ st = 3 then h.put (pPrs e) PRS.STAT_CAUSE 8 else h
  let h := (h.setEng e (fun s => { stale := true, dirs := s.dirs, safe := s.safe, changed := s.changed })).setFlags e (0, 0)
  (if st = 0 ∨ st = 6 then h else h.setPrsState e 1).alignPrs e

/-- A commit's effect on an engine: a new DIV; a changed JOIN leaves both queues empty, and stalled pushes end; EN starts or ends it (R399, R402, R415). -/
def Hub.commitPrs (h old : Hub) (e : Nat) : Hub :=
  let h := h.newDiv old e
  let h := if h.joinOf e = old.joinOf e then h
    else ((List.range (h.eng e).stalled.length).foldl (fun g _ => g.stallTimeoutIn e) h).setEng e (fun s => { s with inq := [], outq := [] })
  h.alignPrs e

/-- What REVERT discards: armed slots and the words in IN, counted (R79); stalled pushes complete in the places freed. -/
def Hub.discardPrs (h : Hub) (e : Nat) : Hub :=
  let h := (List.range 16).foldl (fun g s => if (Map.find g.slots (e * 16 + s)).isSome then g.dropSlot e s true else g) h
  (h.addTo pSys SYS.COMMIT_DROPS_DROPS (h.eng e).inq.length).setIn e []

/-! ### The edge (R403, R409, R414, R417) -/

/-- What an engine does as an edge ends: a PUB that completed at it shows its word from the next edge on (R414). -/
def Hub.prismLeave (h : Hub) (e : Nat) : Hub :=
  let l := (h.eng e).after
  let due (a : Nat × PrsAfter) : Bool := h.tickReached e a.1 && (match a.2 with
    | .publish _ => true
    | _ => false)
  if !l.any due then h
  else
    let h := h.setEng e (fun s => { s with after := l.filter (fun a => !due a) })
    (l.filter due).foldl (fun g a =>
      match a.2 with
      | .publish v => g.put (pPrs e) PRS.PUBW_WORD v
      | _ => g) h

/-- Whether ring time has reached an instant. -/
def ringDue (now t : Nat) : Bool := due now t

/-- What an engine does as an edge begins: the pin changes of the instruction that ends at it, before any action slot fires; a shift's step; a
pending RESTART_AT (R403, R405, R409, R417). -/
def Hub.prismEnter (h : Hub) (e : Nat) : Hub :=
  let l := (h.eng e).after
  let due (a : Nat × PrsAfter) : Bool := h.tickReached e a.1 && (match a.2 with
    | .publish _ => false
    | _ => true)
  let h := if !l.any due then h
    else (l.filter due).foldl (fun g a =>
      match a.2 with
      | .dirs mask val => g.setEng e (fun s =>
          { s with dirs := (s.dirs - (s.dirs &&& mask)) ||| (val &&& mask), safe := s.safe - (s.safe &&& mask) })
      | .pins mask val => g.changePins e mask val
      | .publish _ => g) (h.setEng e (fun s => { s with after := l.filter (fun a => !due a) }))
  let h := match (h.eng e).restartAt with
    | some t =>
      if ringDue h.now t ∧ h.clock % 2 = 0 then
        (let h := h.setEng e (fun s => { s with restartAt := none })
         if h.prsState e = 3 then h.rephase e h.clock else h)
      else h
    | none => h
  h.shiftStep e

/-- The engines that have something of their own in State. -/
def Hub.prismUnits (h : Hub) : List Nat := h.prs.map (fun e => e.1)

end Sys2Proof.Machine
end

