-- ==== Sys2Proof/Machine/StwOps.lean ====
section
/-!
DEFINITION. The Steward's shared operations: lifecycle and fuses, SRAM and PMP, key slots, interrupt inputs, service calls and their answers
(R534 to R559).
Where the manual is open: DEDUCED, log entry 49; PRESUMED, log entry 47.
-/
namespace Sys2Proof.Machine

open Reg

/-! ### Fuses and lifecycle (R552, R553) -/

/-- The bitwise majority of three words. -/
def majority3 (a b c : Nat) : Nat := (a &&& b) ||| (a &&& c) ||| (b &&& c)

/-- The majority of the lifecycle word's copies. -/
def Hub.lcWord (h : Hub) : Nat := majority3 (h.fuse 4) (h.fuse 5) (h.fuse 6)

/-- The highest bit of 0 to 8 that is set in a word. -/
def topBit (w : Nat) : Option Nat := (List.range 9).foldl (fun a b => if bitOf w b then some b else a) none

/-- The lifecycle state of the highest majority bit: 0 Blank, 1 Factory, 2 Provisioned, 3 Field, 4 Returned, 5 Retired. -/
def lcStateOf (top : Option Nat) : Nat :=
  match top with
  | none => 0
  | some 0 => 1
  | some 1 => 2
  | some 8 => 5
  | some b => if b % 2 = 0 then 3 else 4

/-- The deployment of the highest majority bit; 0 outside Field and Returned. -/
def deploymentOf (top : Option Nat) : Nat :=
  match top with
  | some b => if 2 ≤ b ∧ b ≤ 7 then b / 2 else 0
  | none => 0

/-- The lifecycle state that LC.STATE shows (R553). -/
def Hub.lifecycle (h : Hub) : Nat := lcStateOf (topBit h.lcWord)

/-- The deployment that LC.STATE shows. -/
def Hub.deployment (h : Hub) : Nat := deploymentOf (topBit h.lcWord)

/-- How many copies of the lifecycle word hold a bit. -/
def Hub.lcCopies (h : Hub) (b : Nat) : Nat := flag (bitOf (h.fuse 4) b) + flag (bitOf (h.fuse 5) b) + flag (bitOf (h.fuse 6) b)

/-- The bit of a torn transition: set in one copy alone (R553). -/
def Hub.tornBit (h : Hub) : Option Nat := (List.range 9).find? (fun b => h.lcCopies b == 1)

/-- Bits of a fuse word blown. -/
def Hub.blow (h : Hub) (word bits : Nat) : Hub := { h with fuses := Map.put h.fuses word 0 ((h.fuse word ||| bits) % 2 ^ 32) }

/-- Programming cut off by a reset or a loss of power: a transition has blown its bit in none or more of the copies, in their order; each bit of
a word being programmed is blown or intact (R553, R559). -/
def Hub.cutFuses (h : Hub) : Hub :=
  let h := match h.stw.trans with
    | none => h
    | some b => (List.range 3).foldl (fun g i => if i < h.fresh.1 % 4 then g.blow (4 + i) (2 ^ b) else g) h.fresh.2
  let h := match h.stw.otp with
    | none => h
    | some (word, bits) => h.fresh.2.blow word (bits &&& h.fresh.1)
  { h with stw := { h.stw with otp := none, trans := none } }

/-- A transition that two copies hold is completed by the boot ROM (R553). -/
def Hub.completeTorn (h : Hub) : Hub :=
  (List.range 9).foldl (fun g b =>
    if g.lcCopies b = 2 then ((g.blow 4 (2 ^ b)).blow 5 (2 ^ b)).blow 6 (2 ^ b) else g) h

/-- The rollback counter: the blown bits of words 73 to 80 (LC.ROLLBACK). -/
def Hub.rollback (h : Hub) : Nat :=
  (List.range 256).foldl (fun a i => a + flag (bitOf (h.fuse (73 + i / 32)) (i % 32))) 0

/-- The key-hash slots programmed and not revoked (fuse word 64). -/
def Hub.liveSlots (h : Hub) : List Nat := (List.range 4).filter (fun i => bitOf (h.fuse 64) i && !bitOf (h.fuse 64) (4 + i))

/-- A key hash in the fuses, from its first word on, as bytes (R567). -/
def Hub.keyHash (h : Hub) (word : Nat) : List Byte := (List.range 8).flatMap (fun i => leBytes 4 (h.fuse (word + i)))

/-- Whether a public key's 64 bytes match a key hash in the fuses (R567). -/
def Hub.keyMatches (h : Hub) (key : List Byte) (word : Nat) : Bool := beBytes 32 (Config.sha256 key).toNat == h.keyHash word

/-! ### The core's memory (R534, R535, R538) -/

/-- The core address of SRAM, and its size. -/
def sramBase : Nat := 0x20000000
def sramSize : Nat := 0x80000

/-- Whether `n` bytes at a core address lie in SRAM. -/
def inSram (a n : Nat) : Bool := decide (sramBase ≤ a) && decide (a + n ≤ sramBase + sramSize)

/-- Bytes of SRAM at a core address. -/
def Hub.sramRead (h : Hub) (a n : Nat) : List Byte := Mem.readN h.stw.sram (a - sramBase) n

/-- SRAM with bytes written at a core address. -/
def Hub.sramWrite (h : Hub) (a : Nat) (bs : List Byte) : Hub := { h with stw := { h.stw with sram := Mem.writeN h.stw.sram (a - sramBase) bs } }

/-- The number of one bits at the low end of a number, up to `fuel`. -/
def lowOnes : Nat → Nat → Nat
  | 0, _ => 0
  | fuel + 1, n => if n % 2 = 1 then lowOnes fuel (n / 2) + 1 else 0

/-- The bytes that a PMP entry covers: from, to; the entry before it gives the bottom of a TOR range (R534). -/
def pmpRange (m : Map (Nat × Nat)) (i : Nat) : Nat × Nat :=
  let e := Map.getD m i (0, 0)
  match slice e.1 3 2 with
  | 1 => (4 * (if i = 0 then 0 else (Map.getD m (i - 1) (0, 0)).2), 4 * e.2)
  | 2 => (4 * e.2, 4 * e.2 + 4)
  | 3 =>
    let k := lowOnes 32 e.2
    let size := 8 * 2 ^ k
    (4 * e.2 / size * size, 4 * e.2 / size * size + size)
  | _ => (0, 0)

/-- Whether the PMP lets user mode reach a byte with a permission (bit 0 read, 1 write, 2 execute): by the first entry that covers it. -/
def pmpAllows (m : Map (Nat × Nat)) (a perm : Nat) : Bool :=
  match (List.range 16).find? (fun i => let r := pmpRange m i; decide (r.1 ≤ a) && decide (a < r.2)) with
  | some i => bitOf (Map.getD m i (0, 0)).1 perm
  | none => false

/-- Whether the Annex's PMP regions hold `n` bytes for reading and writing. -/
def Hub.annexHolds (h : Hub) (a n : Nat) : Bool :=
  (List.range n).all (fun i => pmpAllows h.stw.pmp (a + i) 0 && pmpAllows h.stw.pmp (a + i) 1)

/-- The PMP gives the Annex its SRAM region from 0x2004_0000 on, and only that: a TOR pair for all permissions (R566). -/
def Hub.grantAnnex (h : Hub) (size : Nat) : Hub :=
  { h with stw := { h.stw with pmp := if size = 0 then [] else [(0, (0, 0x20040000 / 4)), (1, (0x0F, (0x20040000 + size) / 4))] } }

/-- Whether an Annex access at a core address is allowed: 0 a load, 1 a store, 2 a fetch (R535, R538). -/
def Hub.annexReaches (h : Hub) (a kind : Nat) : Bool :=
  if 0x40000000 ≤ a ∧ a < 0x41000000 then h.annexMay (a / 4096 % 4096) (a % 4096) (kind == 1)
  else if 0xA0000000 ≤ a ∧ a < 0xB0000000 then h.on pStw (STW.RWIN_ANX (a / 2 ^ 24 % 16))
  else if 0xC0000000 ≤ a ∧ a < 0xD0000000 then h.on pStw STW.DRAM_WIN_ANX
  else if 0xE0000000 ≤ a ∧ a < 0xE0001000 then a % 4096 / 8 == Config.annexComparator % 4096 / 8
  else if inSram a 1 || (decide (0x80000000 ≤ a) && decide (a < 0xA0000000)) then pmpAllows h.stw.pmp a kind
  else false

/-! ### Key slots and the coprocessor (R548 to R550) -/

/-- A key slot. -/
def Hub.keySlot (h : Hub) (i : Nat) : Nat := Map.getD h.stw.slots i 0

/-- A key slot set; STAT.KEYS shows which are not zero. -/
def Hub.setKeySlot (h : Hub) (i v : Nat) : Hub :=
  let h := { h with stw := { h.stw with slots := Map.put h.stw.slots i 0 (v % 2 ^ 256) } }
  h.put pStw STW.STAT_KEYS (putBit (h.get pStw STW.STAT_KEYS) i (h.keySlot i != 0))

/-- Every key slot zeroed. -/
def Hub.clearKeys (h : Hub) : Hub := ({ h with stw := { h.stw with slots := [] } }).put pStw STW.STAT_KEYS 0

/-- Whether the coprocessor is idle. -/
def Hub.coprocessorIdle (h : Hub) : Bool := h.stw.cop.isNone

/-- The unit number of an operation in the status word. -/
def CopOp_unit : CopOp → Nat
  | .sha _ _ _ => 0 | .ecdsa _ _ _ => 1 | .aes _ _ _ _ _ _ _ => 2 | .crc _ _ _ => 3
  | .trackAt _ _ _ _ _ _ _ _ => 4 | .trackFire _ _ _ _ _ _ _ _ _ _ _ => 4
  | .keyLoad => 5 | .keyWrite _ _ => 5 | .keyClear _ => 5
  | .bad u => u

/-- The units that the Annex may use (R548). -/
def annexUnit (u : Nat) : Bool := u == 0 || u == 3 || u == 4

/-- The cycles at 500 MHz that an operation takes (R548). -/
def CopOp_cycles : CopOp → Nat
  | .sha _ len _ => 68 * ((len + 63) / 64) + 80
  | .ecdsa _ _ _ => 420000
  | .aes _ _ _ _ len _ _ => 16 * ((len + 15) / 16) + 400
  | .crc _ len _ => (len + 7) / 8 + 8
  | .trackAt _ _ _ _ _ _ _ _ => 60
  | .trackFire _ _ _ _ _ _ _ _ _ _ _ => 220
  | .keyLoad => 40
  | .keyWrite _ _ => 40
  | .keyClear _ => 40
  | .bad _ => 0

/-- The SRAM buffers that a descriptor names: address and length. -/
def CopOp_buffers : CopOp → List (Nat × Nat)
  | .sha src len dst => [(src, len), (dst, 32)]
  | .ecdsa digest key sig => [(digest, 32), (key, 64), (sig, 64)]
  | .aes _ _ iv src len dst tag => [(iv, 12), (src, len), (dst, len), (tag, 16)]
  | .crc src len dst => [(src, len), (dst, 4)]
  | .trackAt _ _ _ _ _ _ _ dst => [(dst, 16)]
  | .trackFire _ _ _ _ _ _ _ _ _ _ dst => [(dst, 16)]
  | .keyLoad => []
  | .keyWrite _ src => [(src, 32)]
  | .keyClear _ => []
  | .bad _ => []

/-! ### The core (R534, R539, R543, R544) -/

/-- READY changes (R544). -/
def Hub.setReady (h : Hub) (b : Bool) : Hub := h.putIrq pStw STW.STAT_READY (flag b) 1

/-- The core is reset: the Annex is gone, READY and the key slots are cleared, what it ran is lost (R539, R544, R550). SRAM keeps its bytes. -/
def Hub.coreReset (h : Hub) (core : Nat) : Hub :=
  let h := if h.annexState = 0 then h else (h.annexExit 0 6).setAnnex 0
  let h := ((h.setReady false).clearKeys).put pStw STW.STAT_CORE core
  ({ h with stw := { inputs := h.stw.inputs &&& 0xFFFFFFFF, sram := h.stw.sram, bootNs := h.stw.bootNs, otp := h.stw.otp, trans := h.stw.trans } }).put
    pStw STW.STAT_COP_BUSY 0

/-- A fence of STW holds the core in reset and resets every STW register (R515, R558). -/
def Hub.fenceStw (h : Hub) : Hub :=
  let cause := if h.annexState = 2 then 6 else 0
  let h := h.coreReset 3
  let h := { h with live := h.live.filter (fun e => !(e.1.page == pStw && decide (0x040 ≤ e.1.off))) }
  (h.put pStw STW.STAT_CORE 3).put pStw STW.STAT_ANX_CAUSE cause

/-- The boot ROM starts: the secure watchdog runs with 2,000 ms (R543, R570). -/
def Hub.startRom (h : Hub) : Hub :=
  let h := ((h.put pStw STW.STAT_CORE 1).put pStw STW.WDOG_S_MS 2000)
  { h with stw := { h.stw with bootNs := h.ns, kickS := h.ns } }

/-- Whether the secure watchdog can expire: while the firmware runs, for the ROM kicks it throughout, but not in Cellar or Test (R543, R570,
R588). -/
def Hub.secureWatched (h : Hub) : Bool := h.get pStw STW.STAT_CORE == 2 && h.mode != .cellar && h.mode != .test

/-! ### Interrupt inputs (R541) -/

/-- Whether an interrupt input of the core is raised. -/
def Hub.coreInputOn (h : Hub) (i : Nat) : Bool :=
  if i = 32 then h.doorbells 1 != 0
  else if i = 33 then h.doorbells 2 != 0
  else if i = 34 then h.irqPend pFlt != 0
  else if i = 35 then h.irqPend pSys != 0
  else if i = 36 then h.irqPend pUpd != 0
  else if 41 ≤ i ∧ i ≤ 44 then h.on pStw (STW.IRQ_SEL_EN (i - 41)) && h.irqPend (h.get pStw (STW.IRQ_SEL_PAGE (i - 41))) != 0
  else if i < 46 then bitOf h.stw.inputs i
  else false

/-- Whether an input is delegated to the Annex: by ANX_IRQ, inputs 32 and 34 to 40 never, 33 always. -/
def Hub.delegated (h : Hub) (i : Nat) : Bool :=
  if i = 33 then true
  else if i = 32 ∨ (34 ≤ i ∧ i ≤ 40) then false
  else if i < 32 then bitOf (h.get pStw STW.ANX_IRQ_LO_INPUTS) i
  else bitOf (h.get pStw STW.ANX_IRQ_HI_INPUTS) (i - 32)

/-- Whether a raised input reaches a world; the Annex's are masked outside RUNNING (R539, R541). -/
def Hub.interrupts (h : Hub) (annex : Bool) (i : Nat) : Bool :=
  h.coreInputOn i && (if annex then h.delegated i && h.annexState == 2 else !h.delegated i)

/-- An event input of the core withdrawn. -/
def Hub.dropInput (h : Hub) (i : Nat) : Hub := { h with stw := { h.stw with inputs := withoutBit h.stw.inputs i } }

/-! ### Service calls (R485, R540, R545 to R547) -/

/-- The class of a path. -/
def SvcPath_cls : SvcPath → SvcClass
  | .mailbox _ => .mailbox
  | .ecall _ => .ecall
  | .ring _ _ _ => .ring
  | .ether _ _ => .ether

/-- Whether the secure world serves calls: READY, or the boot ROM in Cellar (R544, R582). -/
def Hub.secureServes (h : Hub) : Bool := h.on pStw STW.STAT_READY || (h.mode == .cellar && h.get pStw STW.STAT_CORE == 1)

/-- Whether a code is an update service (R574). -/
def updateCode (code : Nat) : Bool := decide (0x100 ≤ code) && decide (code < 0x200)

/-- Whether a code names a service (R545, R574, R593). -/
def knownCode (code : Nat) : Bool :=
  [0x0001, 0x0002, 0x0010, 0x0011, 0x0020, 0x0021, 0x0022, 0x0030, 0x0100, 0x0101, 0x0102, 0x0103, 0x0104, 0x0105, 0x0106, 0x0107, 0x0108,
    0x0200, 0x0201, 0x0202].contains code

/-- The payload of a Steward message (R546). -/
def stewardPayload (code : Nat) (reply : Bool) (rc id : Nat) (data : List Byte) : List Byte :=
  leBytes 2 code ++ leBytes 2 data.length ++ leBytes 1 (flag reply) ++ leBytes 3 0 ++ leBytes 2 rc ++ leBytes 2 id ++ leBytes 4 0 ++ data

/-- The configuration of a mailbox in effect: in Cellar, mailbox 0 is the boot ROM's whatever CFG[0] holds (R582). -/
def Hub.mailCfg (h : Hub) (m : Nat) (f : Fld) : Nat :=
  if h.mode = .cellar ∧ m = 0 then
    (if f = MBX.CFG_EN 0 ∨ f = MBX.CFG_SVC 0 then 1 else if f = MBX.CFG_WRITER 0 then 8 else if f = MBX.CFG_READER 0 then 9
     else if f = MBX.CFG_COMPAT 0 then 0 else h.cfg pMbx f)
  else h.cfg pMbx f

/-- The doorbell side of a requester (R484). -/
def sideOf (code : Nat) : Nat := if code = 0x8 then 0 else if code = 0x9 then 1 else if code = 0xA then 2 else 3

/-- A mailbox's message is acknowledged with a return code (R481). -/
def Hub.mailAcked (h : Hub) (m rc : Nat) : Hub :=
  let h := (((h.setFull m false).put pMbx (MBX.STAT_ACKED m) 1).put pMbx (MBX.STAT_RC m) rc).put pMbx (MBX.STAT_WAITING m) 0
  h.ring (sideOf (h.mailCfg m (MBX.CFG_WRITER m))) (2 ^ h.mailCfg m (MBX.CFG_ACK_BIT m))

/-- A reply sent by its call's path; a mailbox whose message was recalled gets none (R485, R486, R540, R546, R547). -/
def Hub.sendReply (h : Hub) (c : SvcCall) (rc : Nat) (data : List Byte) : Hub :=
  match c.path with
  | .mailbox m =>
    if h.on pMbx (MBX.STAT_FULL m) && !h.fenced pMbx then
      ({ h with host := { h.host with
        mail := Mem.writeN h.host.mail (64 * m) (leBytes 2 c.code ++ leBytes 2 (data.take 60).length ++ data.take 60) } }).mailAcked m rc
    else h
  | .ecall ptr => (h.sramWrite ptr data).emit (.ecall rc data.length)
  | .ring src ten id =>
    let body := stewardPayload c.code true rc id data
    h.arrive { ingress := 6, egress := 8,
               frame := { cls := .bulk, payload := body, hdr := { type := 0x19, ten := ten, dst := src, len := body.length } } }
  | .ether mac id =>
    h.arrive { ingress := 6, egress := 2, queue := some 0,
               frame := etherFrame .bulk (h.cfg pEth ETH.CTRL_TEN)
                 (ethernet mac h.ownMac (beBytes 2 0x88B7 ++ stewardPayload c.code true rc id data)) }

/-- A call answered: counted, recorded for an update service, and its reply sent (R545, R583). -/
def Hub.answer (h : Hub) (c : SvcCall) (rc : Nat) (data : List Byte) : Hub :=
  let h := h.inc pStw STW.SVC_CALLS_COUNT
  let h := if updateCode c.code then
      (let h := (h.put pUpd UPD.LAST_SERVICE c.code).put pUpd UPD.LAST_RC rc
       if rc = 0 then h else h.irq pUpd 2)
    else h
  h.sendReply c rc data

/-- The first call that waits in a class. -/
def Hub.headCall (h : Hub) (cls : SvcClass) : Option SvcCall := h.stw.calls.find? (fun c => SvcPath_cls c.path == cls)

/-- A call no longer waits. -/
def Hub.dropCall (h : Hub) (c : SvcCall) : Hub :=
  let h := { h with stw := { h.stw with calls := dropFirst c h.stw.calls } }
  if SvcPath_cls c.path = .ring ∧ h.headCall .ring = none then h.dropInput 38
  else if SvcPath_cls c.path = .ether ∧ h.headCall .ether = none then h.dropInput 39
  else h

/-- Whether a class is busy: a call of it waits, or its service still runs (R545). -/
def Hub.classBusy (h : Hub) (cls : SvcClass) : Bool :=
  (h.headCall cls).isSome || (match h.upd.running with | some c => SvcPath_cls c.path == cls | none => false)

/-- A call reaches the secure world: it waits, or is answered at once where its code is unknown or its class busy (R485, R545). -/
def Hub.callArrives (h : Hub) (c : SvcCall) : Hub :=
  if !knownCode c.code then h.answer c 0x0001 []
  else if h.mode = .cellar ∧ !(c.code == 1 || c.code == 2 || updateCode c.code) then h.answer c 0x0003 []
  else if SvcPath_cls c.path ≠ .ring ∧ h.classBusy (SvcPath_cls c.path) then h.answer c 0x0004 []
  else { h with stw := { h.stw with calls := h.stw.calls ++ [c] } }

/-- The call that a full service mailbox holds (R485). -/
def Hub.mailCall (h : Hub) (m : Nat) : SvcCall :=
  let bs := Mem.readN h.host.mail (64 * m) 64
  let n := leNat ((bs.drop 2).take 2)
  { path := .mailbox m, code := leNat (bs.take 2), req := h.mailCfg m (MBX.CFG_WRITER m), args := (bs.drop 4).take n, 
    good := decide (n ≤ 60) && decide (4 + n ≤ h.get pMbx (MBX.STAT_LEN m)) }

/-- Whether a mailbox carries service calls to the Steward (R485). -/
def Hub.isService (h : Hub) (m : Nat) : Bool :=
  h.mailCfg m (MBX.CFG_SVC m) == 1 && h.mailCfg m (MBX.CFG_READER m) == 0x9 && h.mailCfg m (MBX.CFG_EN m) == 1

/-- Whether a call of a mailbox waits. -/
def Hub.mailWaits (h : Hub) (m : Nat) : Bool := h.stw.calls.any (fun c => c.path == .mailbox m)

/-- The service calls that full mailboxes hold reach a secure world that has become ready. -/
def Hub.mailCalls (h : Hub) : Hub :=
  (List.range 16).foldl (fun g m =>
    if g.secureServes && g.isService m && g.on pMbx (MBX.STAT_FULL m) && !g.mailWaits m then g.callArrives (g.mailCall m) else g) h

/-- A requester code counts as the owner of a page (R628). -/
def Hub.codeOwns (h : Hub) (code p : Nat) : Bool := h.owner p == code || h.owner p == 0xE || h.owner p == 0xF

/-! ### Holds on gates (R557) -/

/-- The groups that the firmware holds: coprocessor, BIST, ETH, HOST. -/
def Hub.holdCauses (h : Hub) : List Nat :=
  let cop := (match h.stw.cop with | some j => !j.annex | none => false) || h.stw.slots != []
  let served := h.stw.calls ++ h.upd.running.toList
  let eth := h.cfgOn pTime TIME.PTP_CFG_EN || (h.get pUpd UPD.STAT_LAND_STATE == 1 && h.upd.etherLoad) || served.any (fun c => SvcPath_cls c.path == .ether && updateCode c.code)
  let host := served.any (fun c => SvcPath_cls c.path == .mailbox && c.req == 0x8)
  (if cop then [11] else []) ++ (if h.on pBist BIST.UNIT_BUSY then [10] else []) ++ (if eth then [1] else []) ++ (if host then [2] else [])

/-- GATE_HOLD follows the causes of the firmware's holds as they come and go (R557). -/
def Hub.followHolds (h old : Hub) : Hub :=
  if h.get pStw STW.STAT_CORE ≠ 2 then h
  else
    [1, 2, 10, 11].foldl (fun g i =>
      if h.holdCauses.contains i = old.holdCauses.contains i then g
      else g.put pSys SYS.GATE_HOLD_HOLD (putBit (g.get pSys SYS.GATE_HOLD_HOLD) i (h.holdCauses.contains i))) h

/-! ### Core errors (R536) -/

/-- The error response of a store of the core to its own node, with a status of R261. -/
def Hub.localCoreError (h : Hub) (req : Req) (status : Nat) : Hub :=
  match req with
  | .secure => h.coreError 0x9 0 status
  | .annex => h.coreError 0xA 0 status
  | _ => h

end Sys2Proof.Machine
end

