-- ==== Sys2Proof/Machine/UpdOps.lean ====
section
/-!
DEFINITION. External flash, boot records, images and the Landing (R560 to R568, R575).
Where the manual is open: DEDUCED, log entry 31; DESIGN CHOICE, log entry 6: an erased byte reads 0xFF.
-/
namespace Sys2Proof.Machine

open Reg

/-! ### Flash (R560, R561) -/

/-- A byte of the flash; an erased byte is 0xFF. -/
def Hub.flashByte (h : Hub) (a : Nat) : Byte := Map.getD h.flash a 0xFF

/-- Bytes of the flash. -/
def Hub.flashRead (h : Hub) (a n : Nat) : List Byte := (List.range n).map (fun i => h.flashByte (a + i))

/-- Bytes written into a memory whose unlisted bytes are erased. -/
def programBytes (m : Map Byte) (a : Nat) : List Byte → Map Byte
  | [] => m
  | b :: bs => programBytes (Map.put m a 0xFF b) (a + 1) bs

/-- Bytes programmed. -/
def Hub.flashProgram (h : Hub) (a : Nat) (bs : List Byte) : Hub := { h with flash := programBytes h.flash a bs }

/-- `n` blocks of 64 KiB erased from an address on. -/
def Hub.flashErase (h : Hub) (a n : Nat) : Hub :=
  { h with flash := h.flash.filter (fun e => decide (e.1 < a) || decide (a + 65536 * n ≤ e.1)) }

/-- log2 of the flash size in use: at most 28. -/
def Hub.flashBits (h : Hub) : Nat := min 28 h.flashLog2

/-- Q: a quarter of the size in use (R561). -/
def Hub.quarter (h : Hub) : Nat := 2 ^ h.flashBits / 4

/-- The flash has a usable device (R560). -/
def Hub.flashUsable (h : Hub) : Bool := decide (24 ≤ h.flashLog2)

/-- The areas by number: 0 slot A, 1 slot B, 2 the Landing. -/
def Hub.area (h : Hub) (i : Nat) : Nat := (i + 1) * h.quarter

/-! ### Boot records (R562, R563) -/

/-- A boot record (R562). -/
structure BootRec where
  seq : Nat := 0
  active : Nat := 0
  cellar : Bool := false
  stateA : Nat := 0
  stateB : Nat := 0
  tries : Nat := 0
  land : Nat := 0
  verA : Nat := 0
  verB : Nat := 0
  secA : Nat := 0
  secB : Nat := 0
deriving DecidableEq, Repr

/-- The first 60 bytes of a boot record. -/
def BootRec.body (r : BootRec) : List Byte :=
  [0x5A, 0x42, 0x52, 0x31] ++ leBytes 4 r.seq ++ leBytes 1 (r.active % 2 + 2 * flag r.cellar) ++ leBytes 1 (r.stateA % 4 + 4 * (r.stateB % 4))
    ++ leBytes 1 r.tries ++ leBytes 1 0 ++ leBytes 2 r.land ++ leBytes 2 0 ++ leBytes 4 r.verA ++ leBytes 4 r.verB ++ leBytes 2 r.secA
    ++ leBytes 2 r.secB ++ leBytes 32 0

/-- The 64 bytes of a boot record. -/
def BootRec.bytes (r : BootRec) : List Byte := r.body ++ leBytes 4 (crc32c r.body)

/-- The boot record that 64 bytes hold, where it is valid. -/
def bootRecOf (bs : List Byte) : Option BootRec :=
  let f (a n : Nat) := leNat ((bs.drop a).take n)
  if bs.take 4 = [0x5A, 0x42, 0x52, 0x31] ∧ f 60 4 = crc32c (bs.take 60) then
    some { seq := f 4 4, active := f 8 1 % 2, cellar := bitOf (f 8 1) 1, stateA := slice (f 9 1) 0 2, stateB := slice (f 9 1) 2 2,
           tries := f 10 1, land := f 12 2, verA := f 16 4, verB := f 20 4, secA := f 24 2, secB := f 26 2 }
  else none

/-- A copy of the boot record, where it is valid. -/
def Hub.recordCopy (h : Hub) (i : Nat) : Option BootRec := bootRecOf (h.flashRead (65536 * i) 64)

/-- Whether SEQ s1 is later than s0 (R562). -/
def laterSeq (s1 s0 : Nat) : Bool := let d := (s1 + 2 ^ 32 - s0 % 2 ^ 32) % 2 ^ 32; decide (1 ≤ d) && decide (d < 2 ^ 31)

/-- The record in effect and the copy that holds it. -/
def Hub.recordInEffect (h : Hub) : Option (Nat × BootRec) :=
  match h.recordCopy 0, h.recordCopy 1 with
  | some a, some b => if laterSeq b.seq a.seq then some (1, b) else some (0, a)
  | some a, none => some (0, a)
  | none, some b => some (1, b)
  | none, none => none

/-- The record in effect; an empty one where none is valid. -/
def Hub.record (h : Hub) : BootRec := match h.recordInEffect with
  | some e => e.2
  | none => {}

/-- The registers that show the record in effect (R583). -/
def Hub.showRecord (h : Hub) : Hub :=
  let r := h.record
  let p := pUpd
  let h := (((h.put p UPD.STAT_ACTIVE r.active).put p UPD.STAT_CELLAR_NEXT (flag r.cellar)).put p UPD.STAT_STATE_A r.stateA).put p UPD.STAT_STATE_B r.stateB
  let h := (((h.put p UPD.STAT_TRIES r.tries).put p UPD.BOOT_SEQ_SEQ r.seq).put p UPD.VER_A_VER r.verA).put p UPD.VER_B_VER r.verB
  (h.put p UPD.SECVER_SEC_A r.secA).put p UPD.SECVER_SEC_B r.secB

/-- A new record written into the copy that is not in effect (R563). -/
def Hub.writeRecord (h : Hub) (f : BootRec → BootRec) : Hub :=
  let (copy, r) := match h.recordInEffect with
    | some e => (1 - e.1, e.2)
    | none => (0, {})
  let h := (h.flashErase (65536 * copy) 1).flashProgram (65536 * copy) ({ f r with seq := (r.seq + 1) % 2 ^ 32 }).bytes
  h.showRecord.irq pUpd 1

/-- The state of a slot in a record: 0 EMPTY, 1 GOOD, 2 TRIAL, 3 BAD. -/
def BootRec.slot (r : BootRec) (i : Nat) : Nat := if i = 0 then r.stateA else r.stateB

/-- A record with the state of a slot set. -/
def BootRec.setSlot (r : BootRec) (i st : Nat) : BootRec := if i = 0 then { r with stateA := st } else { r with stateB := st }

/-- A record with a slot's versions set. -/
def BootRec.setVersion (r : BootRec) (i ver sec : Nat) : BootRec :=
  if i = 0 then { r with verA := ver, secA := sec } else { r with verB := ver, secB := sec }

/-! ### Images (R564 to R568) -/

/-- The stream bytes of an image stored from an address on: 65,532 of every 64 KiB block (R564). -/
def Hub.streamRead (h : Hub) (base off n : Nat) : List Byte :=
  (List.range n).map (fun i => h.flashByte (base + (off + i) / 65532 * 65536 + (off + i) % 65532))

/-- A little-endian number in the stream. -/
def Hub.streamNat (h : Hub) (base off n : Nat) : Nat := leNat (h.streamRead base off n)

/-- A section of an image (R565). -/
structure Section where
  type : Nat
  off : Nat
  len : Nat
  param : Nat
deriving DecidableEq, Repr

/-- DATA_LEN of an image. -/
def Hub.dataLen (h : Hub) (base : Nat) : Nat := h.streamNat base 40 4

/-- The blocks of an image. -/
def Hub.imageBlocks (h : Hub) (base : Nat) : Nat := (h.dataLen base + 65531) / 65532

/-- The sections of an image, at most 8. -/
def Hub.sections (h : Hub) (base : Nat) : List Section :=
  (List.range (min 8 (h.streamNat base 6 2))).map (fun i =>
    { type := h.streamNat base (64 + 16 * i) 1, off := h.streamNat base (68 + 16 * i) 4, len := h.streamNat base (72 + 16 * i) 4
      param := h.streamNat base (76 + 16 * i) 4 })

/-- The section of a type. -/
def Hub.sectionOf (h : Hub) (base type : Nat) : Option Section := (h.sections base).find? (fun s => s.type == type)

/-- Whether stream bytes are zero. -/
def Hub.streamZero (h : Hub) (base off n : Nat) : Bool := (h.streamRead base off n).all (fun b => b == 0)

/-- Whether the reserved bytes and bits of a header are zero (R565). -/
def Hub.headerZeros (h : Hub) (base : Nat) : Bool :=
  h.streamZero base 8 1 && decide (h.streamNat base 12 1 < 4) && decide (h.streamNat base 13 1 < 16) && h.streamZero base 14 2
    && h.streamZero base 38 2 && h.streamZero base 44 20 && h.streamZero base 192 64
    && (bitOf (h.streamNat base 12 1) 0 || h.streamZero base 16 16)
    && (List.range 8).all (fun i =>
      if i < h.streamNat base 6 2 then h.streamZero base (65 + 16 * i) 3 else h.streamZero base (64 + 16 * i) 16)

/-- Whether a section keeps the limits of its type (R566). -/
def sectionOk (dataLen : Nat) (s : Section) : Bool :=
  decide (256 ≤ s.off) && s.off % 4 == 0 && decide (s.off + s.len ≤ dataLen - 128) &&
    (match s.type with
     | 1 => decide (1024 ≤ s.len) && decide (s.len ≤ 262144) && s.param % 2 == 0 && decide (s.param < s.len - 128)
     | 2 => decide (s.len ≤ s.param) && s.param % 4096 == 0 && decide (4096 ≤ s.param) && decide (s.param ≤ 262144)
     | 3 => s.len % 8 == 0 && decide (s.len ≤ 262144)
     | 4 => s.param == 0
     | _ => false)

/-- Whether sections do not overlap. -/
def disjoint : List Section → Bool
  | [] => true
  | s :: l => l.all (fun t => decide (s.off + s.len ≤ t.off) || decide (t.off + t.len ≤ s.off) || s.len == 0 || t.len == 0) && disjoint l

/-- Check 1 of R568. -/
def Hub.headerOk (h : Hub) (base blocks : Nat) : Bool :=
  let n := h.streamNat base 6 2
  let l := h.sections base
  let count (t : Nat) := (l.filter (fun s => s.type == t)).length
  h.streamRead base 0 4 == [0x5A, 0x54, 0x46, 0x31] && h.streamNat base 4 2 == 1 && decide (1 ≤ n) && decide (n ≤ 8) && h.headerZeros base
    && l.all (sectionOk (h.dataLen base)) && disjoint l && count 1 == 1 && decide (count 2 ≤ 1) && decide (count 3 ≤ 1) && decide (count 4 ≤ 5)
    && decide (h.imageBlocks base ≤ blocks) && decide (65536 * h.imageBlocks base ≤ h.quarter)

/-- KEY of an image. -/
def Hub.imageKey (h : Hub) (base : Nat) : Nat := h.streamNat base 13 1 % 16

/-- The public key of an image's signature block. -/
def Hub.imageKeyBlock (h : Hub) (base : Nat) : List Byte := h.streamRead base (h.dataLen base - 128) 64

/-- Check 5 of R568: the signing key, in the lifecycle state (R554, R571). -/
def Hub.keyOk (h : Hub) (base : Nat) : Bool :=
  let k := h.imageKey base
  let lc := h.lifecycle
  if k = 15 then (lc == 1 || lc == 2 || lc == 3 || lc == 4) && h.keyMatches (h.imageKeyBlock base) 24
  else k < 4 && (lc == 2 || lc == 3 || lc == 4) && h.liveSlots.contains k && h.keyMatches (h.imageKeyBlock base) (32 + 8 * k)

/-- The blocks of an image whose CRC-32C fails. -/
def Hub.badBlocks (h : Hub) (base n : Nat) : Nat :=
  (List.range n).foldl (fun a i =>
    let b := base + 65536 * i
    if leNat (h.flashRead (b + 65532) 4) = crc32c (h.flashRead b 65532) then a else a + 1) 0

/-- Whether a signature block's 128 bytes sign bytes (R567). -/
def signs (block data : List Byte) : Bool :=
  Config.ecdsaVerifies (beNat (block.take 32)) (beNat ((block.drop 32).take 32)) (beNat ((block.drop 64).take 32)) (beNat ((block.drop 96).take 32))
    (Config.sha256 data)

/-- Check 8 of R568: the firmware section's own signature. -/
def Hub.firmwareSigned (h : Hub) (base : Nat) : Bool :=
  match h.sectionOf base 1 with
  | none => false
  | some s =>
    let block := h.streamRead base (s.off + s.len - 128) 128
    h.keyMatches (block.take 64) 24 && signs block (h.streamRead base s.off (s.len - 128))

/-- The checks of R568 on an image of `blocks` stored blocks, in order: the first code that fails, or 0. -/
def Hub.checkImage (h : Hub) (base blocks : Nat) : Nat :=
  let end_ := h.dataLen base - 128
  if !h.headerOk base blocks then 0x8001
  else if h.streamNat base 10 2 ≠ slice (h.fuse 7) 16 16 ∨ slice (h.fuse 7) 8 8 < h.streamNat base 9 1 then 0x8002
  else if bitOf (h.streamNat base 12 1) 0 ∧ h.streamNat base 16 16 ≠ h.uid then 0x8003
  else if h.streamNat base 36 2 < h.rollback then 0x8004
  else if !h.keyOk base then 0x8005
  else if h.badBlocks base (h.imageBlocks base) ≠ 0 then 0x8009
  else if !signs (h.streamRead base end_ 128) (h.streamRead base 0 end_) then 0x8006
  else if !h.firmwareSigned base then 0x8007
  else 0

/-- The largest image of a slot, in blocks (R561). -/
def Hub.slotBlocks (h : Hub) : Nat := h.quarter / 65536

/-! ### The Landing (R575) -/

/-- The Landing's state: 0 EMPTY, 1 RECEIVING, 2 RECEIVED, 3 VERIFYING, 4 VERIFIED, 5 ACTIVATING. -/
def Hub.landing (h : Hub) : Nat := h.get pUpd UPD.STAT_LAND_STATE

/-- The Landing enters a state. -/
def Hub.setLanding (h : Hub) (st : Nat) : Hub := (h.putIrq pUpd UPD.STAT_LAND_STATE st 0).put pUpd PG.STAT_BLOCK st

/-- The Landing as a boot finds it (R575). -/
def Hub.bootLanding (h : Hub) : Hub :=
  let n := h.record.land
  ((h.setLanding (if n = 0 then 0 else 2)).put pUpd UPD.LAND_LEN_BLOCKS n).put pUpd UPD.LAND_OWNER_REQ 0xF

/-- The registers of UPD as a boot reads them from the flash (R583). -/
def Hub.bootUpd (h : Hub) : Hub := (h.showRecord.bootLanding).put pUpd UPD.STAT_FLASH_LOG2 (if h.flashUsable then h.flashBits else 0)

/-- No service runs any more. -/
def Hub.updIdle (h : Hub) : Hub := ({ h with upd := { h.upd with running := none } }).put pUpd UPD.STAT_BUSY 0

/-- UPD is fenced: the operation in progress stops, and its service returns FLASH (R580). -/
def Hub.fenceUpd (h : Hub) : Hub :=
  match h.upd.running with
  | none => h
  | some c => ((h.updIdle).setLanding 2).answer c 0x800C []

/-- UPD after a soft reset: the registers show the flash anew. -/
def Hub.resetUpd (h : Hub) : Hub := ({ h with upd := { boot := h.upd.boot, reboot := h.upd.reboot, runSince := h.upd.runSince } }).bootUpd

end Sys2Proof.Machine
end

