-- ==== Sys2Proof/Machine/ZoneOps.lean ====
section
/-!
DEFINITION. Field power zones: limits in effect, measurement, states and permission (R491 to R505).
Where the manual is open: DEDUCED, log entry 29.
-/
namespace Sys2Proof.Machine

open Reg

/-- A zone's own state. -/
def Hub.zone (h : Hub) (z : Nat) : ZoneState := Map.getD h.zones z {}

/-- The hub with a zone's own state changed. -/
def Hub.setZone (h : Hub) (z : Nat) (f : ZoneState → ZoneState) : Hub := { h with zones := Map.put h.zones z {} (f (h.zone z)) }

/-- The state of a zone: 0 OFF, 1 WAIT, 2 RAMP, 3 ON, 4 BACKOFF, 5 LATCHED, 6 FENCED, 7 HOLD_OFF (R501). -/
def Hub.zoneIs (h : Hub) (z : Nat) : Nat := h.get (pZone z) ZONE.STAT_STATE

/-- The zone's transistor conducts: RAMP or ON; in every other state the gate is clamped (R501). -/
def Hub.zoneConducts (h : Hub) (z : Nat) : Bool := h.zoneIs z == 2 || h.zoneIs z == 3

/-- Zones are measured in every mode from Cellar on whenever VDD_FP is present (R492). -/
def Hub.zoneMeasures (h : Hub) : Bool := h.mode.fromCellar && bitOf (h.get pSys SYS.SUPPLY_STAT_DOM) 6

/-! ### Limits in effect (R496) -/

/-- ILIM_EFF in mA. -/
def Hub.ilimEff (h : Hub) (z : Nat) : Nat :=
  match h.modeEff with
  | .transparent => 4000
  | .held => min (h.cfg (pZone z) ZONE.ILIM_MA) 4000
  | _ => if (h.zone z).probing then min (h.cfg (pZone z) ZONE.ILIM_MA) 4000 else h.cfg (pZone z) ZONE.ILIM_MA

/-- The fast-trip threshold in nV. -/
def Hub.ifastNv (h : Hub) (z : Nat) : Nat :=
  let p := pZone z
  if h.cfgOn p ZONE.IFAST_USE then 1000 * h.cfg p ZONE.IFAST_UV
  else min (2 * h.ilimEff z * h.cfg p ZONE.SHUNT_RSHUNT) 48000000

/-! ### Measurement (R493, R494) -/

/-- A number held to the range of a signed field of `w` bits (R493). -/
def clampSigned (w : Nat) (i : Int) : Int := max (-(2 ^ (w - 1) : Nat)) (min ((2 ^ (w - 1) : Nat) - 1) i)

/-- OFS in effect, in 0.1 µV (R493). -/
def Hub.zoneOfs (h : Hub) (z : Nat) : Int :=
  let p := pZone z
  toSigned 16 (h.expert p ZONE.CAL_USE ZONE.CAL_OFS (h.get p ZONE.ZERO_COLD))

/-- GAIN in effect, in ppm (R493). -/
def Hub.zoneGain (h : Hub) (z : Nat) : Int := toSigned 15 (h.expert (pZone z) ZONE.CAL_USE ZONE.CAL_GAIN 0)

/-- The current in mA that a shunt voltage in 0.1 µV gives (R493), rounded towards minus infinity; an open value where the
formula divides by zero. -/
def Hub.zoneCurrent (h : Hub) (z : Nat) (vsh : Int) : Int × Hub :=
  let p := pZone z
  let warm : Int := 10 ^ 19 + toSigned 16 (h.cfg p ZONE.SHUNT_TC_TCR) * (h.zone z).rise
  let den : Int := h.cfg p ZONE.SHUNT_RSHUNT * (10 ^ 6 + h.zoneGain z) * warm
  if den = 0 then (toSigned 32 h.fresh.1, h.fresh.2)
  else (clampSigned 32 (100 * (vsh - h.zoneOfs z) * 10 ^ 25 / den), h)

/-- The energy of one sample period added (R494). -/
def ZoneState.addEnergy (s : ZoneState) : ZoneState :=
  let p := s.iMa * s.voutMv
  if 0 < p then
    let e := s.energyFrac + p.toNat
    { s with energy := (s.energy + e / 100000) % 2 ^ 64, energyFrac := e % 100000 }
  else s

/-- The shunt's temperature rise after another millisecond (R493). -/
def Hub.zoneWarm (h : Hub) (z : Nat) : Hub :=
  let p := pZone z
  let s := h.zone z
  if h.cfg p ZONE.SHUNT_RTH = 0 then h.setZone z (fun s => { s with rise := 0 })
  else
    let goal : Int := h.cfg p ZONE.SHUNT_RTH * (s.iMa * s.iMa) * h.cfg p ZONE.SHUNT_RSHUNT
    h.setZone z (fun s => { s with rise := s.rise + (goal - s.rise) / (100 * h.cfg p ZONE.SHUNT_TC_TAU) })

/-- PGOOD: ON, with VOUT at least 90 % of VIN (R510). -/
def Hub.zonePgood (h : Hub) (z : Nat) : Hub :=
  let s := h.zone z
  h.putIrq (pZone z) ZONE.STAT_PGOOD (flag (h.zoneIs z == 3 && decide (9 * s.vinMv ≤ 10 * s.voutMv))) 3

/-! ### States (R501) -/

/-- Since when VOUT has stayed above half of VIN, with VIN in range and the gate clamped (R507). -/
def Hub.zoneWatch (h : Hub) (z : Nat) : Hub :=
  let s := h.zone z
  let above := !h.zoneConducts z && s.vinOk && decide (s.vinMv < 2 * s.voutMv)
  h.setZone z (fun s => { s with overAt := if above then some (s.overAt.getD h.ns) else none })

/-- A zone enters a state. -/
def Hub.zoneTo (h : Hub) (z st : Nat) : Hub :=
  let was := h.zoneConducts z
  let h := h.putIrq (pZone z) ZONE.STAT_STATE st 0
  let on := h.zoneConducts z
  let h := h.setZone z (fun s => { s with
    overRun := if on then s.overRun else 0
    hotPending := if was && !on then decide ((h.ilimEff z : Int) ≤ 2 * s.iMa) else if on then false else s.hotPending
    clampAt := if was && !on then h.ns else s.clampAt
    at95 := if st = 2 then none else s.at95
    rampAt := if st = 2 then h.ns else s.rampAt
    rampEnergy := if st = 2 then 0 else s.rampEnergy
    onAt := if st = 3 then h.ns else s.onAt })
  (h.zoneWatch z).zonePgood z

/-- The mode lets the zone conduct (R505). -/
def Hub.zoneMode (h : Hub) (z : Nat) : Bool :=
  match h.modeEff with
  | .safeStop => h.cfgOn (pZone z) ZONE.CFG_SAFE_ACT
  | m => m.fromTransparent

/-- The zone is permitted: its mode, its VIN and its committed EN allow it to conduct (R501). -/
def Hub.zonePermitted (h : Hub) (z : Nat) : Bool :=
  h.zoneMode z && (h.zone z).vinOk && h.cfgOn (pZone z) PG.CTRL_EN

/-- The policy in effect is PROBE (R504). -/
def Hub.zoneProbe (h : Hub) (z : Nat) : Bool :=
  match h.modeEff with
  | .transparent => true | .held => true | .armed => true
  | .running => h.on (pZone z) ZONE.STAT_RECOVERY || (h.zone z).probing
  | .degraded => h.on (pZone z) ZONE.STAT_RECOVERY || (h.zone z).probing
  | .islanded => h.on (pZone z) ZONE.STAT_RECOVERY || (h.zone z).probing
  | _ => (h.zone z).probing

/-- STAT.PROBE follows the policy; a change of policy clears the retry count (R502, R504). -/
def Hub.zonePolicy (h : Hub) (z : Nat) : Hub :=
  let p := pZone z
  let v := flag (h.zoneProbe z)
  if h.get p ZONE.STAT_PROBE = v then h else (h.put p ZONE.STAT_PROBE v).put p ZONE.STAT_RETRY_CNT 0

/-- A zone brought into line with its fence, the mode, its VIN and CMD.ON (R501, R505). -/
def Hub.alignZone (h : Hub) (z : Nat) : Hub :=
  let h := h.zonePolicy z
  let p := pZone z
  let st := h.zoneIs z
  let was := (h.zone z).permitted
  let now := h.zonePermitted z
  let h := h.setZone z (fun s => { s with permitted := now })
  if h.fenced p then (if (h.zone z).probing then h else h.zoneTo z 6)
  else if st = 6 then h
  else if now then
    (if st = 7 then h.zoneTo z (if h.on p ZONE.CMD_ON then 1 else 0)
     else if st = 0 ∧ h.on p ZONE.CMD_ON then h.zoneTo z 1
     else h)
  else if st = 5 ∨ st = 7 ∨ (st = 0 ∧ !was) then h
  else h.zoneTo z 7

/-- Every zone brought into line. -/
def Hub.alignZones (h : Hub) : Hub := [0, 1, 2, 3].foldl (fun g z => g.alignZone z) h

/-- A zone in recovery, OFF (R501, R504). -/
def Hub.zoneRecover (h : Hub) (z : Nat) : Hub := ((h.zoneTo z 0).put (pZone z) ZONE.STAT_RECOVERY 1).alignZone z

/-- The fence of a zone is released: OFF, in recovery, DMG_GATE cleared (R501, R511). -/
def Hub.releaseZone (h : Hub) (z : Nat) : Hub :=
  let h := h.put (pZone z) ZONE.STAT_DMG_GATE 0
  if h.zoneIs z = 6 then h.zoneRecover z else h.alignZone z

/-- A zone after a soft reset: its energy and what it measures stay (R61, R494). -/
def Hub.resetZone (h : Hub) (z : Nat) : Hub :=
  let p := pZone z
  let h := h.setZone z (fun s => {
    iMa := s.iMa
    voutMv := s.voutMv
    vinMv := s.vinMv
    vinOk := s.vinOk
    outSeen := s.outSeen
    inAt := s.inAt
    permitted := s.permitted
    slot := s.slot
    slotDue := s.slotDue
    chopDue := s.chopDue
    shunts := s.shunts
    clampAt := h.ns
    energy := s.energy
    energyFrac := s.energyFrac })
  if h.fenced p then h.put p ZONE.STAT_STATE 6 else h.alignZone z

/-- The LOAD ramp of a self-test ends: the zone is clamped again (R597). -/
def Hub.endProbe (h : Hub) (z : Nat) (failed : Bool) : Hub :=
  let h := { h with bist := { h.bist with loadFailed := h.bist.loadFailed || failed } }
  (h.setZone z (fun s => { s with probing := false })).zoneTo z 6

/-- VIN is out of range: the gate is clamped and the zone goes to HOLD_OFF (R498). -/
def Hub.zoneVinOut (h : Hub) (z : Nat) : Hub :=
  let h := (h.setZone z (fun s => { s with vinOk := false, outSeen := true, inAt := none, permitted := false })).zoneWatch z
  if (h.zone z).probing then h.endProbe z true else if h.zoneIs z = 6 ∨ h.zoneIs z = 5 then h else h.zoneTo z 7

/-- How a zone's gate is driven: clamped, regulated so that the output rises at DVDT in units of 0.1 V/ms, or fully on (R499, R501). -/
inductive GateDrive where
  | clamped
  | regulated (dvdt : Nat)
  | full
deriving DecidableEq, Repr

/-- The drive of a zone's gate; without VDD_FP it is held off (R98, R501). -/
def Hub.gateDrive (h : Hub) (z : Nat) : GateDrive :=
  if h.pinsHeld .zone then .clamped
  else
    match h.zoneIs z with
    | 2 => .regulated (h.cfg (pZone z) ZONE.RAMP_DVDT)
    | 3 => .full
    | _ => .clamped

/-- FP_ALERT_N is low: some zone shows DMG_OUT (R491, R507). -/
def Hub.fpAlert (h : Hub) : Bool := [0, 1, 2, 3].any (fun z => h.on (pZone z) ZONE.STAT_DMG_OUT)

end Sys2Proof.Machine
end

