-- ==== Sys2Proof/Machine/Hooks.lean ====
section
/-!
DEFINITION. What each block does when the hub changes mode, when its unit is fenced or released, and when it is soft-reset.
Where the manual is open: DEDUCED, log entries 11 and 12.
-/
namespace Sys2Proof.Machine

open Reg

/-- The arc holds fewer than ISLAND_MIN nodes (R87). -/
def Hub.arcTooSmall (h : Hub) : Bool :=
  h.cfg pSys SYS.MODE_CFG_ISLAND_MIN != 0 && decide (h.arcSize < h.cfg pSys SYS.MODE_CFG_ISLAND_MIN)

/-- The ring is lost: neither port has a link, or the arc is below ISLAND_MIN (R87). -/
def Hub.ringLost (h : Hub) : Bool := (h.link 0 != 4 && h.link 0 != 5 && h.link 1 != 4 && h.link 1 != 5) || h.arcTooSmall

/-- At least one ring port has completed bring-up and ring join (R89). -/
def Hub.ringJoined (h : Hub) : Bool := h.link 0 == 4 || h.link 1 == 4

/-- Every expert level closes (R46). -/
def Hub.closeExpert (h : Hub) : Hub :=
  { h with live := h.live.filter (fun e => !(e.1.off == 0x00C && e.1.lo == 30)) }

/-- The running Annex stops (R92, R539). -/
def Hub.annexStop (h : Hub) : Hub := h.annexExit 3 5

/-- What the blocks do when the main path's validity or use may have changed since the hub was `old` (R184, R207, R247). -/
def Hub.timeValidityHook (h old : Hub) : Hub := h.tracksTime.atrTime old

/-- Entry to Shelf idles the PCI Express link (R98, R100) and ends the node's ID and its leave (R144, R163). -/
def Hub.shelfHook (h : Hub) : Hub :=
  if h.mode = .shelf then (h.pcieLost.setId 0 0).setTopo (fun t => { t with leaving := false }) else h

/-- What the blocks do at the edge on which SYS.MODE.CUR changes. -/
def Hub.modeHook (h : Hub) : Hub :=
  let runs := h.mode == .running || h.mode == .degraded
  let h := { h with upd := { h.upd with runSince := if runs then some (h.upd.runSince.getD h.ns) else none } }
  let h := if (h.mode = .test ∨ h.mode = .shelf) ∧ h.get pStw STW.STAT_CORE ≠ 0 then h.coreReset 0 else h
  let h := if h.mode.fromCellar && !(Mode.ofCode (h.get pSys SYS.MODE_PREV)).fromCellar then h.syncAll else h
  let h := (h.timeMode.alignPorts.timeValidityHook h).shelfHook.alignAtr.alignEther.alignCans
  (if h.driving then h else h.safeOnsetAll).alignSers.alignAllPrs.alignZones

/-- The block of a page brought into line with its fence, its EN and the mode. -/
def Hub.alignBlock (h : Hub) (p : Nat) : Hub :=
  match kindOf p with
  | some .time => h.alignTime.timeValidityHook h
  | some .topo => h.alignPorts
  | some .rport => h.alignPorts
  | some .trk => h.alignTrack (instOf p)
  | some .dram => h.alignDram
  | some .ten => h.alignTenant (instOf p)
  | some .brg => h.alignBridge
  | some .host => h.alignHost
  | some .eth => h.alignEther
  | some .can => h.alignCan (instOf p)
  | some .uart => h.alignSer p
  | some .spi => h.alignSer p
  | some .i2c => h.alignSer p
  | some .prs => h.alignPrs (instOf p)
  | some .zone => h.alignZone (instOf p)
  | some .stw => if h.fenced pStw then h.fenceStw else h
  | some .upd => if h.fenced pUpd then h.fenceUpd else h
  | _ => h

/-- What the block of a page does when its unit is fenced. -/
def Hub.fenceHook (h : Hub) (p : Nat) : Hub :=
  match kindOf p with
  | some .ch => (h.fenceChannel (instOf p)).alignSers
  | some .atr => h.fenceAtr
  | some .sw => h.fenceSwitch
  | _ => h.alignBlock p

/-- What the block of a page does when its unit is released. -/
def Hub.releaseHook (h : Hub) (p : Nat) : Hub :=
  match kindOf p with
  | some .therm => h.put pTherm THERM.STAT_IN_USE 0xF
  | some .zone => h.releaseZone (instOf p)
  | some .stw => h.startRom
  | _ => h.alignBlock p

/-- The fields of BIST that only power-on and Shelf-exit resets reach (R591, R599). -/
def keptBist (k : Key) : Bool := (k.off == 0x040 && k.lo == 8) || (decide (0x048 ≤ k.off) && decide (k.off ≤ 0x058))

/-- The fields that a block's chapter keeps through a soft reset, and those that show pins and supplies (R61, R144, R328). -/
def keptByBlock (p : Nat) (k : Key) : Bool :=
  match kindOf p with
  | some .bank => k.off == 0x044 && k.lo != 0
  | some .host => (k.off == 0x040 && k.lo == 30) || k.off == 0x058 || (k.off == 0x00C && k.lo == 0)
  | some .sw => k.off == 0x0E0
  | some .zone => (k.off == 0x080 && k.lo == 17) || k.off == 0x098
  | some .bist => keptBist k
  | some .therm => k.off == 0x044 && k.lo == 20
  | some .upd => (k.off == 0x044 && k.lo == 23) || k.off == 0x068
  | some .rport => k.off == 0x044 && decide (8 ≤ k.lo) && decide (k.lo ≤ 11)
  | some .topo =>
    [TOPO.STAT_NODE_ID_EFF, TOPO.STAT_ID_STATE, TOPO.STAT_SEEDED, TOPO.STAT_E_OPEN, TOPO.STAT_W_OPEN, TOPO.INCARN_INC].any
      (fun f => f.off == k.off && f.lo == k.lo)
  | _ => false

/-- Whether a soft reset keeps a register field of a page (R61): the fence, PG_FLT, sticky fields and what the chapters name. -/
def keptBySoftReset (p : Nat) (k : Key) : Bool :=
  (k.off == 0x00C && k.lo == 31) || k.off == 0x01C || keptByBlock p k ||
  (match kindOf p with
   | some kd => (fieldTable kd).any (fun f => f.off == k.off && f.lo == k.lo && f.acc == .stk)
   | none => false)

/-- The registers of a page as a soft reset leaves them (R61). -/
def Hub.softResetRegs (h : Hub) (p : Nat) : Hub :=
  { h with live := h.live.filter (fun e => e.1.page != p || keptBySoftReset p e.1) }

/-- What a block does before a soft reset takes its registers: a ring port leaves its link, a Prism engine stops. -/
def Hub.softResetBefore (h : Hub) (p : Nat) : Hub :=
  match kindOf p with
  | some .rport => h.setLink (instOf p) 0
  | some .prs => h.leaveRun (instOf p) 8
  | _ => h

/-- What a soft reset does to a block's own state (R61 and the block's chapter); `old` is the hub before it. -/
def Hub.softResetHook (h old : Hub) (p : Nat) : Hub :=
  match kindOf p with
  | some .flt => { h with flt := {} }
  | some .therm => { h with therm := {} }
  | some .time => (h.resetTime.alignTime).timeValidityHook h
  | some .topo =>
    ((h.setTopo (fun t => { seqX := t.seqX, seqT := t.seqT, leaving := t.leaving })).alignPorts).resteerIf old
  | some .rport => (h.setPort (instOf p) (fun s => { a0 := s.a0, a2 := s.a2 })).alignPorts
  | some .atr => h.resetAtr
  | some .sw => h.resetSwitch
  | some .qos => h.resetQos
  | some .brg => { h with brg := {} }
  | some .dram => h.alignDram
  | some .eth => { h with ether := {} }
  | some .host => { h with host := { mail := h.host.mail } }
  | some .mbx => { h with host := { h.host with mail := [] } }
  | some .trk => h.resetTrack (instOf p) (old.trackState (instOf p))
  | some .ch => h.resetChannel (instOf p)
  | some .can => h.resetCan (instOf p)
  | some .uart => h.resetSer p
  | some .spi => h.resetSer p
  | some .i2c => h.resetSer p
  | some .prs => h.resetPrs old (instOf p)
  | some .zone => h.resetZone (instOf p)
  | some .upd => h.resetUpd
  | some .bist => { h with bist := {} }
  | _ => h

/-- The register fields outside SYS that a system reset leaves as they are. -/
def keptByResetHook (k : Key) : Bool :=
  (kindOf k.page == some .bank && k.off == 0x044 && k.lo == 31) || (k.page == pBist && keptBist k)

/-- The straps have been sampled (R108): the host interface in effect and what else follows them. -/
def Hub.strapsHook (h : Hub) : Hub := h.strapHost

/-- The main time path leaves LOCKED or MASTER when the 25 MHz reference is lost (R183). -/
def Hub.timeRef25Lost (h : Hub) : Hub := if h.timeState = 2 ∨ h.timeState = 3 then h.setTime 4 else h

/-- The bank shed level changes (R332). -/
def Hub.shedHook (h : Hub) (_old new : Nat) : Hub := (h.alignShed new).alignSers

/-- A group of units loses its supply by a power gate: CAN message memory is cleared, the key slots are zeroed (R429, R550). -/
def Hub.powerGateHook (h : Hub) (g : Nat) : Hub :=
  if g = 3 then (List.range 4).foldl (fun h n => h.clearCan n) h else if g = 11 then h.clearKeys else h

/-! ### Re-initialising a block that was under test (R589, R595, R598) -/

/-- The memory of a page's block cleared, where a soft reset leaves it. -/
def Hub.clearMemory (h : Hub) (p : Nat) : Hub :=
  match kindOf p with
  | some .can => h.clearCan (instOf p)
  | some .stw => { h with stw := { h.stw with sram := [] } }
  | some .prs => { h with prsMem := Mem.clear h.prsMem (0x10000 * instOf p) (0x10000 * (instOf p + 1)) }
  | _ => h

/-- The own address of the local Ethernet port at its reset value, bytes of the unit ID (R8, R461). -/
def Hub.unitMac (h : Hub) : Hub :=
  let u := leBytes 5 h.uid
  let hi := 0x0200 + leNat (u.take 1)
  let lo := leNat (u.drop 1).reverse
  (((h.put pEth ETH.MAC_HI_ADDR hi).put pEth ETH.MAC_LO_ADDR lo).putCfg pEth ETH.MAC_HI_ADDR hi).putCfg pEth ETH.MAC_LO_ADDR lo

/-- A block re-initialised: its registers, staged and committed, take their reset values, its memories are zero and its state machines in
their reset states; the test of a fenced unit leaves the fence and PG_FLT (R589, R595). -/
def Hub.reinit (h : Hub) (unit : Bool) (p : Nat) : Hub :=
  let kept (k : Key) : Bool := k.page != p || (unit && ((k.off == 0x00C && k.lo == 31) || k.off == 0x01C)) || (p == pBist && keptBist k)
  let g := h.softResetBefore p
  let g := { g with live := g.live.filter (fun e => kept e.1), staged := g.staged.filter (fun e => e.1.page != p)
                    committed := g.committed.filter (fun e => e.1.page != p) }
  let g := (g.softResetHook h p).clearMemory p
  match kindOf p with
  | some .eth => g.unitMac
  | some .host => g.strapHost
  | _ => g

/-- A unit test no longer runs: the unit is re-initialised and UNIT shows the end (R595). -/
def Hub.closeUnitTest (h : Hub) (pass aborted : Bool) : Hub :=
  let u := h.bist.unit
  let h := (h.put pBist BIST.STAT_ELAPSED h.bistElapsed)
  let h := { h with bist := { h.bist with load := false, found := none } }
  let h := if kindOf u = some .zone then h.setZone (instOf u) (fun s => { s with probing := false }) else h
  let h := (unitPages u).foldl (fun g p => g.reinit true p) h
  let h := (h.put pBist BIST.UNIT_BUSY 0).syncAll
  let h := (((h.put pBist BIST.UNIT_BUSY 0).put pBist BIST.UNIT_DONE 1).put pBist BIST.UNIT_PASS (flag pass)).put pBist BIST.UNIT_ABORTED (flag aborted)
  (((h.put pBist BIST.STAT_STATE 0).put pBist BIST.STAT_ITEM 0).put pBist PG.STAT_BLOCK 0).irq pBist 1

/-- A running unit test ends early (R598). -/
def Hub.abortUnitTest (h : Hub) : Hub := if h.on pBist BIST.UNIT_BUSY then h.closeUnitTest false true else h

/-- A hub at its reset values that keeps what no reset reaches: the fuses, and the levels and voltages at the pins. -/
def Hub.fresh0 (h : Hub) : Hub :=
  let h := h.cutFuses
  let g : Hub := {
    free := h.free, clock := h.clock, out := h.out, edge := { h.edge with want := none }, fuses := h.fuses, prsMem := h.prsMem, flash := h.flash
    flashLog2 := h.flashLog2, sys := { bankMv := h.sys.bankMv }
    chans := (h.chans.map (fun e => (e.1, { ball := e.2.ball }))).filter (fun e => e.2 != ({} : ChState))
    cans := (h.cans.map (fun e => (e.1, { rx := e.2.rx }))).filter (fun e => e.2 != ({} : CanState)) }
  g.unitMac

/-- What the blocks do as a system reset ends: the SerDes PLLs lock, and the banks whose supply is present measure it and choose their classes anew (R328). -/
def Hub.afterReset (h : Hub) : Hub :=
  (List.range 16).foldl (fun g k => if g.on (pBank k) BANK.STAT_VOK then (g.measureBank k).chooseClass k else g) h.serdesPlls

/-- A hub as a power-on reset leaves it: only what no reset reaches is kept, and the level of the IO_SEL strap (R107, R108). -/
def Hub.powerOnHub (h : Hub) : Hub := { h.fresh0 with prsMem := [], live := h.live.filter (fun e => e.1 == ⟨pSys, 0x0CC, 0⟩) }

end Sys2Proof.Machine
end

