-- ==== Sys2Proof/Machine/Modes.lean ====
section
/-!
DEFINITION. The mode machine and the fault collector: entering a mode, Safe-stop, fences and releases, soft and system resets. Every block's events come here when they raise a fault.
Where the manual is open: DEDUCED, log entries 11 and 51.
-/
namespace Sys2Proof.Machine

open Reg

/-! ### Entering a mode (R64, R65) -/

/-- What R65 writes at a mode transition. -/
def Hub.recordMode (h : Hub) (m : Mode) (reason : Nat) : Hub :=
  let fb := flag (!h.mainInUse)
  let t := h.now
  let h := ((h.put pSys SYS.MODE_PREV (h.get pSys SYS.MODE_CUR)).put pSys SYS.MODE_REASON reason).put pSys SYS.MODE_CUR m.code
  let h := (h.put64 pSys SYS.MODE_TIME_LO_TLO SYS.MODE_TIME_HI_THI t).put pSys SYS.MODE_TFB fb
  (h.put pSys SYS.MODE_CNT_COUNT (h.get pSys SYS.MODE_CNT_COUNT + 1)).irq pSys 0

/-- The hub changes its mode at once: the record of R65, then what the blocks do in the new mode. Maintenance notes the mode it came from (R90); where
Armed ends at a sampling instant, the outputs take their values there (R82). -/
def Hub.changeMode (h : Hub) (m : Mode) (reason : Nat) : Hub :=
  let g := if m = .maintenance then h.put pSys SYS.MODE_RETURN (h.get pSys SYS.MODE_CUR) else h
  let g := (g.recordMode m reason).modeHook
  if h.mode = .armed ∧ (m = .running ∨ m = .degraded) then g.redrive else g

/-- The place of a change of mode among those whose conditions hold on one edge (R69). Shelf for loss of core supplies is made at once. -/
def modePlace : Mode → Nat
  | .safeStop => 0
  | .islanded => 1
  | .degraded => 2
  | _ => 3

/-- The hub enters a mode. Where more commands fall on the present edge, the first of the edge's conditions in the order of R69 decides at its end. -/
def Hub.enterMode (h : Hub) (m : Mode) (reason : Nat) : Hub :=
  let wanted : Hub := { h with edge := { h.edge with want := some (m, reason) } }
  match h.edge.want with
  | some w => if modePlace w.1 ≤ modePlace m then h else wanted
  | none => if h.edge.more then wanted else h.changeMode m reason

/-- The end of an edge: the hub makes the change of mode that its conditions call for (R69). -/
def Hub.endEdge (h : Hub) : Hub :=
  match h.edge.more, h.edge.want with
  | false, some w => ({ h with edge := { h.edge with want := none } }).changeMode w.1 w.2
  | _, _ => h

/-- Whether the hub is in a mode, or enters it at the end of this edge. -/
def Hub.bound (h : Hub) (m : Mode) : Bool := h.mode == m || h.edge.want.any (fun w => w.1 == m)

/-- Whether a change of mode that the present edge makes comes before any other one (R69). -/
def Hub.outranked (h : Hub) : Bool := h.edge.want.isSome

/-- SYS.REFUSE_CODE and REFUSE_LOC of a refusal that no page's check made: one check, at SYS.COMMIT (R60). -/
def Hub.refuseCode (h : Hub) (code : Nat) : Hub :=
  (((h.put pSys SYS.REFUSE_CODE_CODE code).put pSys SYS.REFUSE_LOC_COUNT 1).put pSys SYS.REFUSE_LOC_PAGE pSys).put
    pSys SYS.REFUSE_LOC_OFFSET 0x040

/-- R70: entry to Safe-stop or Shelf cancels a scheduled commit and refuses one that is still validating. -/
def Hub.cancelCommit (h : Hub) : Hub :=
  match h.get pSys SYS.COMMIT_STATE_STATE with
  | 2 => (h.put pSys SYS.COMMIT_STATE_LAST_RESULT 5).put pSys SYS.COMMIT_STATE_STATE 0
  | 1 => ((h.refuseCode 0x0A04).put pSys SYS.COMMIT_STATE_LAST_RESULT 4).put pSys SYS.COMMIT_STATE_STATE 0
  | _ => h

/-- The first cause of Safe-stop since power was applied (R92, R526). -/
def Hub.safeCause (h : Hub) (page src : Nat) : Hub :=
  if h.on pSys SYS.SAFE_CAUSE_VALID then h
  else
    let h := { h with sys := { h.sys with causeAt := some h.clock } }
    ((h.put pSys SYS.SAFE_CAUSE_VALID 1).put pSys SYS.SAFE_CAUSE_PAGE page).put pSys SYS.SAFE_CAUSE_SRC src

/-- Entry to Safe-stop (R92): the commit is cancelled, the expert levels close, the Annex stops, the outputs and zones become safe. -/
def Hub.safeStop (h : Hub) (reason page src : Nat) : Hub :=
  if h.bound .safeStop then h
  else
    let h := { h with sys := { h.sys with safeAt := some h.clock } }
    ((((h.cancelCommit).safeCause page src).closeExpert).annexStop.abortUnitTest).enterMode .safeStop reason

/-- A further fatal fault in Safe-stop: one on the edge of the entry gives its reason 0x61 where it is OVERTEMP, and SAFE_CAUSE the first of that edge in
ascending page order (R525, R526). -/
def Hub.fatalAgain (h : Hub) (page src : Nat) : Hub :=
  let now := some h.clock
  let hot := page = pTherm ∧ src = 1
  let h := if hot ∧ h.edge.want = some (.safeStop, 0x60) then { h with edge := { h.edge with want := some (.safeStop, 0x61) } }
    else if hot ∧ h.sys.safeAt = now ∧ h.mode = .safeStop ∧ h.get pSys SYS.MODE_REASON = 0x60 then h.put pSys SYS.MODE_REASON 0x61
    else h
  if h.sys.causeAt = now ∧ page < h.get pSys SYS.SAFE_CAUSE_PAGE then
    (h.put pSys SYS.SAFE_CAUSE_PAGE page).put pSys SYS.SAFE_CAUSE_SRC src
  else h

/-- A fatal fault (R516, R526): Safe-stop from any mode from Cellar on; in Waking it waits for the end of Waking (R520). -/
def Hub.fatal (h : Hub) (page src : Nat) : Hub :=
  if h.mode = .waking then
    (match h.sys.fatalWaiting with
     | some _ => h
     | none => { h with sys := { h.sys with fatalWaiting := some (page, src) } })
  else if h.bound .safeStop then h.fatalAgain page src
  else if h.mode.fromCellar then h.safeStop (if page = pTherm ∧ src = 1 then 0x61 else 0x60) page src
  else h

/-- The hub leaves Waking for a mode; a fatal fault recorded in Waking then acts (R520). -/
def Hub.leaveWaking (h : Hub) (m : Mode) (reason : Nat) : Hub :=
  let g := h.changeMode m reason
  match g.sys.fatalWaiting with
  | some (p, s) => ({ g with sys := { g.sys with fatalWaiting := none } }).fatal p s
  | none => g

/-! ### The fault collector (R516 to R522) -/

/-- The fence count of a unit (R521). -/
def Hub.fenceCount (h : Hub) (u : Nat) : Nat := Map.getD h.flt.counts u 0

/-- Whether a fence request of a unit is queued. -/
def Hub.fenceQueued (h : Hub) (u : Nat) : Bool := h.flt.queue.any (fun e => unitOf e.1 == u)

/-- The class in effect of a source (R516). -/
def Hub.faultClass (h : Hub) (p src : Nat) : Nat := slice (h.cfg p PG.FLT_CLASS) (2 * src) 2

/-- A corrected transition (R516). -/
def Hub.noteCorrected (h : Hub) : Hub :=
  let h := (h.irq pFlt 2).inc pFlt FLT.CNT_CORR_COUNT
  { h with sys := { h.sys with corrected := true } }

/-- A PG_FLT bit set, with PG_IRQ_RAW.FLT of its page (R36). -/
def Hub.setFault (h : Hub) (p src : Nat) : Hub :=
  ((h.put p PG.FLT_SRC (withBit (h.get p PG.FLT_SRC) src)).irq p 31).noteRisen (0x1000 + p) src

/-- Escalation to fatal (R522). -/
def Hub.escalate (h : Hub) (p src : Nat) : Hub := (h.put pFlt FLT.STAT_ESCALATED 1).fatal p src

/-- A contained fault (R516, R520, R522). `same` names the units whose request was made on this same edge (R525). -/
def Hub.contained (h : Hub) (p src : Nat) (same : List Nat) : Hub :=
  let u := unitOf p
  if h.fenced u then h
  else if same.contains u then h
  else if h.fenceQueued u then h.escalate p src
  else if h.cfg pFlt FLT.CFG_REPEAT_LIM ≤ h.fenceCount u then h.escalate p src
  else if 32 ≤ h.flt.queue.length then
    (if bitOf (h.get pFlt PG.FLT_SRC) 0 then h else (h.setFault pFlt 0).fatal pFlt 0)
  else { h with flt := { h.flt with queue := h.flt.queue ++ [(p, src)] } }

/-- The collector's reaction to a transition, by the class in effect (R516). -/
def Hub.collect (h : Hub) (p src : Nat) (same : List Nat) : Hub :=
  match h.faultClass p src with
  | 0 => h.noteCorrected
  | 1 => h.contained p src same
  | _ => h.fatal p src

/-- A transition that a block under test raises is withheld, but for a zone's DAMAGED in a LOAD ramp (R588, R597). -/
def Hub.withheld (h : Hub) (p src : Nat) : Bool := h.underTest p && !(kindOf p == some .zone && src == 3 && (h.zone (instOf p)).probing)

/-- A fault source whose condition arises: the sticky bit and, if it was 0, the collector's reaction (R514, R516). -/
def Hub.raise (h : Hub) (p src : Nat) : Hub :=
  if bitOf (h.get p PG.FLT_SRC) src || h.withheld p src then h else (h.setFault p src).collect p src []

/-- Transitions on one edge, in ascending page and bit (R520, R525). -/
def Hub.raiseAll (h : Hub) (l : List (Nat × Nat)) : Hub :=
  (l.foldl (fun (a : Hub × List Nat) e =>
    if bitOf (a.1.get e.1 PG.FLT_SRC) e.2 || a.1.withheld e.1 e.2 then a
    else
      let g := (a.1.setFault e.1 e.2).collect e.1 e.2 a.2
      (g, if a.1.fenceQueued (unitOf e.1) || !g.fenceQueued (unitOf e.1) then a.2 else unitOf e.1 :: a.2))
    (h, [])).1

/-- The fault sources that hooks have noted are judged, until none is left or `fuel` runs out. -/
def Hub.settleDue (h : Hub) : Nat → Hub
  | 0 => h
  | fuel + 1 =>
    match h.sys.due with
    | [] => h
    | l => Hub.settleDue (({ h with sys := { h.sys with due := [] } }).raiseAll l) fuel

/-- The end of a command that found the hub as `old`: the fault sources that its hooks noted are judged, the change of mode of its edge is made, the interrupt levels that have
risen are passed on, and what follows a fence of the Steward or a hold is brought up to date. -/
def Hub.finish (h old : Hub) : Hub := ((((h.settleDue 8).endEdge).settleDue 8).edges old).noteReaders.followHolds old

/-- The outcome of a command of the keep-alive domain, whose effect on the hub is `f` in every mode (R101). -/
def runAlways (s : State) (f : Hub → Hub) : Host.Outcome State Fault Refusal := .next { s with hub := (f s.hub.begin).finish s.hub }

/-- The outcome of an event of the reference monitors and the core PLLs, whose effect on the hub is `f`: none in Shelf, where nothing but the
keep-alive domain is powered (R101, R105). -/
def runPowered (s : State) (f : Hub → Hub) : Host.Outcome State Fault Refusal :=
  if s.hub.mode = .shelf then .next { s with hub := s.hub.begin } else runAlways s f

/-- The outcome of a command whose effect on the hub is `f`. It has none while the core does not run: in Shelf, without VKA or a core supply, and
before step 5 of R103 releases the core reset (R96, R100, R101, R103). -/
def run (s : State) (f : Hub → Hub) : Host.Outcome State Fault Refusal :=
  if s.hub.coreRuns then runAlways s f else .next { s with hub := s.hub.begin }

/-! ### Fencing and releasing a unit (R519 to R524) -/

/-- Whether any unit is fenced. -/
def Hub.anyFence (h : Hub) : Bool := usedPages.any (fun p => h.fenced p)

/-- SYS.MODE.FENCES brought up to date (R86). -/
def Hub.noteFences (h : Hub) : Hub := h.put pSys SYS.MODE_FENCES (flag h.anyFence)

/-- The first fence moves Running to Degraded; in Maintenance, RETURN follows (R90, R520). -/
def Hub.degrade (h : Hub) : Hub :=
  if h.mode = .running then h.enterMode .degraded 0x32
  else if h.mode = .maintenance ∧ h.get pSys SYS.MODE_RETURN = Mode.running.code then
    h.put pSys SYS.MODE_RETURN Mode.degraded.code
  else h

/-- The last release moves Degraded to Running; in Maintenance, RETURN follows (R90, R524). -/
def Hub.undegrade (h : Hub) : Hub :=
  if h.anyFence then h
  else if h.mode = .degraded then h.enterMode .running 0x33
  else if h.mode = .maintenance ∧ h.get pSys SYS.MODE_RETURN = Mode.degraded.code then
    h.put pSys SYS.MODE_RETURN Mode.running.code
  else h

/-- A unit fenced: its pages show it, its blocks react, its count rises (R519 to R521). -/
def Hub.fenceUnit (h : Hub) (u : Nat) : Hub :=
  let h := if u = pStw then h.abortUnitTest else h
  let h := (unitPages u).foldl (fun g p => (g.put p PG.STAT_FENCED 1).fenceHook p) h
  let h := { h with flt := { h.flt with counts := Map.put h.flt.counts u 0 (min 15 (h.fenceCount u + 1)) } }
  h.noteFences.degrade

/-- The soft reset of one page's block (R61). -/
def Hub.softReset (h : Hub) (p : Nat) : Hub :=
  if p = pSys ∨ p = pLc ∨ p = pStw then h
  else
    let g := ((h.softResetBefore p).softResetRegs p).softResetHook h p
    if p = pBist ∧ h.on pBist BIST.UNIT_BUSY then (unitPages h.bist.unit).foldl (fun g q => g.reinit true q) g else g

/-- A fenced unit released (R524). -/
def Hub.releaseUnit (h : Hub) (u : Nat) : Hub :=
  let h := (unitPages u).foldl (fun g p => g.softReset p) h
  let h := (unitPages u).foldl (fun g p => (g.put p PG.STAT_FENCED 0).releaseHook p) h
  let h := { h with flt := { h.flt with released := Map.put h.flt.released u 0 h.clock } }
  ((h.irq pFlt 1).inc pFlt FLT.CNT_REL_COUNT).noteFences.undegrade

/-! ### System resets (R107) -/

/-- The fields of SYS that a system reset leaves as they are: the keep-alive records of R107, what the supply and reference monitors show,
and the level of the IO_SEL strap, which is read at all times (R108). -/
def keptBySystemReset (k : Key) : Bool :=
  k.page == pSys &&
    (k.off == 0x0A4 || k.off == 0x0D4 || k.off == 0x0D8 || k.off == 0x094 || k.off == 0x0A0 || k.off == 0x0C4
      || k.off == 0x0C0 || (k.off == 0x0C8 && decide (k.lo < 2)) || (k.off == 0x0CC && k.lo == 0))

/-- The hub after a reset that reaches everything but the keep-alive records and the fuses (R107), before the mode is recorded. -/
def Hub.cleared (h : Hub) : Hub :=
  let g : Hub := h.fresh0
  { g with
    live := (h.live.filter (fun e => keptBySystemReset e.1 || keptByResetHook e.1)) }

/-- The step of R103 that a system reset enters: the first whose condition is unmet. A hub that still waits for its supplies, or for the
power-on hold, goes on waiting (R96, R107). -/
def Hub.resetStep (h : Hub) : Nat :=
  if !h.corePresent || h.sys.startup = 1 then 1
  else if h.sys.startup = 2 then 2
  else if h.sys.rstLow || h.get pSys SYS.CLK_STAT_REF25 = 0 then 3
  else 4

/-- A reset that reaches SYS: everything is cleared, the hub enters Waking with the reason and the cause given (R65, R107).
`bit` is the cause's bit in RST_CAUSE. -/
def Hub.systemReset (h : Hub) (reason bit : Nat) : Hub :=
  let prev := h.get pSys SYS.MODE_CUR
  let g := (h.cleared.put pSys SYS.MODE_CUR prev).put pSys SYS.RST_CAUSE_CAUSE (2 ^ bit)
  let g := { g with sys := { g.sys with startup := h.resetStep, rstLow := h.sys.rstLow, pwrEn := h.sys.pwrEn } }
  (g.changeMode .waking reason).afterReset

end Sys2Proof.Machine
end

