-- ==== Sys2Proof/Machine/Tracks.lean ====
section
/-!
DEFINITION. The Track unit's commands: sampling at a source, samples received, conversion, ages, presets, drift statistics and latched reads (R198 to R229).
Where the manual is open: DEDUCED, log entry 20.
-/
namespace Sys2Proof.Machine

open Reg

/-! ### Accepting a sample (R206, R207, R215, R221) -/

/-- What the checks of R206 decide: accepted, or the counter of the first check that fails. -/
inductive SampleVerdict where
  | accept | wrongSrc | reject | old
deriving DecidableEq, Repr

/-- The checks of R206 in their order. -/
def Hub.judgeSample (h : Hub) (k : Nat) (s : Sample) (fb enc : Bool) : SampleVerdict :=
  let want := h.cfg (pTrk k) TRK.CFG_SRC_NODE
  if !h.followed k then .reject
  else if want ≠ 0 ∧ want ≠ s.src then .wrongSrc
  else if fb || enc || !h.trackTime k then .reject
  else if h.ageLim k < tickDiff s.ts h.now then .old
  else
    match (h.track k).newest with
    | some n => if 0 < tickDiff s.ts n.ts then .accept else .old
    | none => .accept

/-- An accepted sample recorded: the newest sample, the counters and what STAT shows. Its Track's pass joins the passes with it; where the last one
has not ended, that is an overrun, and the next pass, which joins them once, uses the sample (R215). -/
def Hub.takeSample (h : Hub) (k : Nat) (s : Sample) : Hub :=
  let p := pTrk k
  let overdue := (h.track k).pass.isSome
  let joins := if overdue then !(h.track k).passAgain else h.bindsOf k != []
  let h := h.setTrack k (fun t =>
    if overdue then { t with newest := some s, passAgain := true }
    else { t with newest := some s, pass := if joins then some s else none })
  let h := if joins then { h with passes := h.passes ++ [k] } else h
  let h := ((h.inc p TRK.SAMPLES_RX_COUNT).put p TRK.STAT_RATE_RX s.rate).put p TRK.STAT_SRC_GEN s.gen
  if overdue then (h.inc p TRK.CONV_OVR_COUNT).raise p 1 else h

/-- The state machine at an accepted sample; `last` is the sample before it (R207, R208, R221). -/
def Hub.advanceTrack (h : Hub) (k : Nat) (s : Sample) (last : Option Sample) : Hub :=
  let p := pTrk k
  let fresh := match last with
    | some n => n.gen != s.gen
    | none => false
  let acquired (h : Hub) : Hub := (h.setTrack k (fun t => { t with inAcquire := true, passOld := t.passOld && t.pass != some s })).tryLive k
  if fresh then
    acquired (((((h.irq p 3).dropTrack k false (fun g => g.inc p TRK.PRESET_DROP_COUNT)).setTrackState k 1).setLock k 1))
  else
    match h.trackState k with
    | 3 => acquired ((h.setTrackState k 1).setLock k 1)
    | 1 =>
      let near := match last with
        | some n => decide (tickDiff s.ts n.ts ≤ h.ageLim k)
        | none => true
      acquired (h.setLock k (if near then (h.track k).lock + 1 else 1))
    | _ => h

/-- A sample put before the follower of Track k (R206); a fenced page takes none. -/
def Hub.offerSample (h : Hub) (k : Nat) (s : Sample) (fb enc : Bool) : Hub :=
  let p := pTrk k
  if h.fenced p then h
  else
    match h.judgeSample k s fb enc with
    | .wrongSrc => h.inc p TRK.WRONG_SRC_COUNT
    | .reject => h.inc p TRK.REJ_SAMPLE_COUNT
    | .old => h.inc p TRK.OLD_SAMPLE_COUNT
    | .accept =>
      let last := (h.track k).newest
      (h.takeSample k s).advanceTrack k s last

/-- The sample that a frame carries (R205). -/
def sampleOf (f : Frame) : Sample :=
  { ts := f.field 0 8, sub := f.field 8 1 % 8, pos := f.field 12 6, vel := toSigned 32 (f.field 20 4)
    acc := toSigned 32 (f.field 24 4), gen := f.field 28 2, number := f.field 10 2, rate := f.field 9 1 % 8, src := f.hdr.src }

/-- TRACK_SAMPLE: a sample that the topology unit delivered (R206). -/
def execTrackSample (frame : Frame) (s : State) : Host.Outcome State Fault Refusal :=
  run s fun h =>
    h.offerSample (frame.hdr.aux % 16) (sampleOf frame) (bitOf (frame.field 8 1) 3) (bitOf (frame.field 8 1) 4)

/-! ### Sampling at the source (R200 to R205, R221) -/

/-- The payload of a sample; FB and ENC_FAULT are its flags (R205). -/
def Sample.payload (s : Sample) (fb enc : Bool) : List Byte :=
  leBytes 8 s.ts ++ leBytes 1 (s.sub + 8 * flag fb + 16 * flag enc) ++ leBytes 1 s.rate ++ leBytes 2 s.number ++ leBytes 6 s.pos ++ leBytes 2 0
    ++ leBytes 4 (ofSigned 32 s.vel) ++ leBytes 4 (ofSigned 32 s.acc) ++ leBytes 2 s.gen ++ leBytes 2 0

/-- Whether a source takes samples now: in a mode that publishes, or Islanded, its page not fenced (R203, R226). -/
def Hub.sourceRuns (h : Hub) (k : Nat) : Bool :=
  h.followed k && h.isSource k && !h.fenced (pTrk k) && (h.modeEff.publishes || h.modeEff == .islanded)

/-- W in sample periods and the samples in a second (R200, R202). -/
def Hub.window (h : Hub) (k : Nat) : Nat := h.cfg (pTrk k) TRK.SRC_CFG_VEL_WIN
def Hub.samplesPerSec (h : Hub) (k : Nat) : Int := 32000 / (2 ^ h.cfg (pTrk k) TRK.SRC_CFG_RATE : Nat)

/-- A signed 32-bit field's value; what does not fit is an open value. -/
def Hub.fit32 (h : Hub) (x : Int) : Int × Hub :=
  if toSigned 32 (ofSigned 32 x) = x then (x, h) else (toSigned 32 h.fresh.1, h.fresh.2)

/-- V and A from the history, newest first; positions in 2^-16 count, results in 1/256 count per s and s² (R202). -/
def Hub.estimate (h : Hub) (k : Nat) (hist : List Nat) : Int × Int :=
  let w := h.window k
  let p (i : Nat) : Nat := hist.getD i 0
  let d1 := posDiff (p 0) (p w)
  let d2 := posDiff (p w) (p (2 * w))
  let f := h.samplesPerSec k
  if h.expert (pTrk k) TRK.ESTIM_USE TRK.ESTIM_ORDER 2 = 1 then (d1 * f / (256 * w), 0)
  else ((3 * d1 - d2) * f / (512 * w), (d1 - d2) * f * f / (256 * w * w))

/-- A source discards its history (R202). -/
def Hub.forgetHistory (h : Hub) (k : Nat) : Hub := h.setTrack k (fun t => { t with history := [] })

/-- An encoder error: ENC_ERR, and the history is discarded; until it has refilled, samples carry ENC_FAULT (R202, R226). -/
def Hub.encoderError (h : Hub) (k : Nat) : Hub := ((h.forgetHistory k).setTrack k (fun t => { t with encFault := true })).raise (pTrk k) 0

/-- The sample frame sent, and the sample put before the source's own context (R203, R204, R206). -/
def Hub.sendSample (h : Hub) (k : Nat) (s : Sample) (fb enc : Bool) : Hub :=
  let sends := h.modeEff.publishes && h.nodeId != 0
  let h := if sends then
      (h.originate { cls := .timed, hdr := { type := 0x02, dst := 4095, ten := 0xF, aux := k }, payload := s.payload fb enc }).inc
        (pTrk k) TRK.SAMPLES_TX_COUNT
    else h
  h.offerSample k s fb enc

/-- V and A of a sample: from the history where it holds 2W; a sample with ENC_FAULT, which no follower accepts, carries open values
(R202, R226; DEDUCED, log entry 20). -/
def Hub.motion (h : Hub) (k : Nat) (hist : List Nat) (full : Bool) : Int × Int × Hub :=
  let e := if full then h.estimate k hist else (toSigned 32 h.fresh.1, toSigned 32 h.fresh.2.fresh.1)
  let h := if full then h else h.fresh.2.fresh.2
  let v := h.fit32 e.1
  let a := v.2.fit32 e.2
  (v.1, a.1, a.2)

/-- A position read at a stamp, in 2^-16 count and eighths of a tick: it joins the history, which holds the positions of successive sample
instants only. With 2W of history, or while an encoder error lasts, a sample is sent (R202, R203, R226). `fb` says that the stamp is of the fall-back path (R205). SAMPLE counts every reading, also those before 2W of history, and
starts anew at enable and at a soft reset (R205 leaves both open: DESIGN CHOICE, log entry 20). -/
def Hub.sourcePosition (h : Hub) (k pos stamp : Nat) (fb : Bool) : Hub :=
  let n := 2 * h.window k + 1
  let t := h.track k
  let hist := if t.histGrid + 1 = t.grid then (pos :: t.history).take n else [pos]
  let full := hist.length == n
  let h := h.setTrack k (fun t =>
    { t with history := hist, histGrid := t.grid, smpCount := (t.smpCount + 1) % 65536, encFault := t.encFault && !full })
  if !full && !t.encFault then h
  else
    let m := h.motion k hist full
    m.2.2.sendSample k
      { ts := stamp / 8 % 2 ^ 64, sub := stamp % 8, pos := pos, vel := m.1, acc := m.2.1, gen := t.srcGen, number := t.smpCount
        rate := h.cfg (pTrk k) TRK.SRC_CFG_RATE, src := h.nodeId } fb (t.encFault && !full)

/-- The count turned round where INVERT is set (R201); its fraction turns with it (DESIGN CHOICE, log entry 20). -/
def Hub.turned (h : Hub) (k w n : Nat) : Nat := if h.cfgOn (pTrk k) TRK.SRC_CFG_INVERT then ofSigned w (-(n : Int)) else n % 2 ^ w

/-- A preset is done: SRC_GEN rises and the history goes (R221). -/
def Hub.presetDone (h : Hub) (k : Nat) : Hub :=
  h.setTrack k (fun t => { t with preset := false, ssiPreset := none, srcGen := (t.srcGen + 1) % 65536, history := [] })

/-- A quadrature pair's count set; both channels read it (R339). -/
def Hub.setPair (h : Hub) (a v : Nat) : Hub := (h.put (pCh a) CH.CNT_COUNT v).put (pCh (a + 1)) CH.CNT_COUNT v

/-- The fraction of a count since the last edge, in 2^-16 (R201). -/
def edgeFraction (edges : List (Nat × Bool)) (ts : Nat) : Nat :=
  match edges with
  | (t1, d1) :: (t2, d2) :: _ =>
    let a := (ts + 2 ^ 64 - t1) % 2 ^ 64
    let b := (t1 + 2 ^ 64 - t2) % 2 ^ 64
    if d1 = d2 ∧ b ≠ 0 ∧ a < 2 ^ 63 then min 65535 (a * 65536 / b) else 0
  | _ => 0

/-- The position of a quadrature source now (R201); a waiting preset is done first (R221). -/
def Hub.quadPosition (h : Hub) (k : Nat) : Nat × Hub :=
  let a := h.cfg (pTrk k) TRK.SRC_CFG_QCH
  if (h.track k).preset then
    let v := h.get (pTrk k) TRK.PRESET_VAL_COUNT
    (v * 65536, (h.setPair a (h.turned k 32 v)).presetDone k)
  else
    (h.turned k 48 (h.get (pCh a) CH.CNT_COUNT * 65536 + edgeFraction (h.ch a).edges (h.now8 % 2 ^ 64)), h)

/-- The sample period of a source in ticks (R200). -/
def Hub.samplePeriod (h : Hub) (k : Nat) : Nat := 15625 * 2 ^ h.cfg (pTrk k) TRK.SRC_CFG_RATE

/-- Whether main-path ring time stands at a whole multiple of the sample period, at which no sample has been taken yet: the tick of the
multiple, or the one after it where the servo's rate has stepped over that (R200). -/
def Hub.sampleDue (h : Hub) (k : Nat) : Bool :=
  decide (h.mainTicks % h.samplePeriod k < 2) && (h.track k).grid != h.mainTicks / h.samplePeriod k + 1

/-- An SSI encoder's read starts, where its controller may, TM after the last one (R382); a waiting preset takes its value (R201, R221, R383). -/
def Hub.startTrackRead (h : Hub) (k : Nat) : Hub :=
  let p := pSpi (h.cfg (pTrk k) TRK.SRC_CFG_SPI)
  let value := h.get (pTrk k) TRK.PRESET_VAL_COUNT
  if !h.runs p || h.serHeld p || h.cfg p SPI.CLK_ROLE != 2 then h
  else
    (h.startSsi p (h.ssiWait p)).setTrack k (fun t =>
      { t with ssiReading := true, preset := false, ssiPreset := if t.preset then some value else t.ssiPreset })

/-- SAMPLE_INSTANT: a source reads its encoder; a quadrature pair at once, an SSI encoder by a read that starts here (R200, R201). -/
def execSampleInstant (track : Nat) (s : State) : Host.Outcome State Fault Refusal :=
  run s fun h =>
    if track < 16 ∧ h.sourceRuns track ∧ h.sampleDue track ∧ !(h.track track).ssiReading then
      let h := h.setTrack track (fun t => { t with grid := h.mainTicks / h.samplePeriod track + 1 })
      match h.cfg (pTrk track) TRK.SRC_CFG_TYPE with
      | 1 => (h.quadPosition track).2.sourcePosition track (h.quadPosition track).1 (h.now8 % 2 ^ 67) h.onFallBack
      | 2 => h.startTrackRead track
      | _ => h
    else h

/-- An SSI value read for a Track, already Gray-decoded: unwound, put to the value of a preset that its sample instant took, and sampled at the
stamp of the read's first clock edge plus SSI_LAT (R201, R221). The value before the first read after enable or a soft reset is taken as 0 (the
manual gives none: DESIGN CHOICE, log entry 20). A source that takes no samples any more discards the value (R203, R226). -/
def Hub.ssiPosition (h : Hub) (k value : Nat) : Hub :=
  let n := h.cfg (pTrk k) TRK.SRC_CFG_SSI_BITS
  let t := h.track k
  let d := toSigned n ((value % 2 ^ n + 2 ^ n - t.ssiLast % 2 ^ n) % 2 ^ n)
  let count := ofSigned 32 ((t.ssiCount : Int) + d)
  let h := h.setTrack k (fun t => { t with ssiReading := false, ssiLast := value % 2 ^ n, ssiCount := count })
  let start := (h.ser (pSpi (h.cfg (pTrk k) TRK.SRC_CFG_SPI))).spi.ssiStart
  let ts := h.stampTime start.1 + 4 * h.expert (pTrk k) TRK.SSI_LAT_USE TRK.SSI_LAT_NS 0
  if !h.sourceRuns k then h
  else
    match t.ssiPreset with
    | some v => ((h.setTrack k (fun t => { t with ssiCount := h.turned k 32 v })).presetDone k).sourcePosition k (v * 65536) ts start.2
    | none =>
      if 0 < n ∧ d = -(2 ^ (n - 1) : Nat) then h.encoderError k
      else h.sourcePosition k (h.turned k 48 (count * 65536)) ts start.2

/-- The source Track whose SSI read a controller makes. -/
def Hub.ssiTrack (h : Hub) (spi : Nat) : Option Nat :=
  (List.range 16).find? (fun k => (h.track k).ssiReading && h.cfg (pTrk k) TRK.SRC_CFG_SPI == spi)

/-- A write of PRESET_CMD: the next sample instant presets the position (R221). -/
def Hub.writePreset (h : Hub) (k v : Nat) : Hub :=
  if slice v 16 16 = 0x5E7A ∧ bitOf v 0 ∧ h.isSource k then
    h.setTrack k (fun t => { t with preset := true })
  else h

/-- PRESET_CMD: with the key and GO, a source presets its position at the next sample instant (R221). -/
def execPresetCmd (req : Req) (track value : Nat) (s : State) : Host.Outcome State Fault Refusal :=
  run s fun h => h.writeDo req (pTrk track) 0x054 fun g => g.writePreset track value

/-! ### Conversion (R212, R214, R215, R218, R219) -/

/-- The sample that a conversion in the Track's present state uses; none where it converts nothing. -/
def Hub.conversionSample (h : Hub) (k : Nat) : Option Sample :=
  match h.trackState k with
  | 2 => (h.track k).newest
  | 3 => (h.track k).newest
  | 1 => if (h.track k).inAcquire then (h.track k).newest else none
  | _ => none

/-- Every pending action of a LIVE Track converted again with a sample; in ACQUIRE only those without F (R215, R219). -/
def Hub.convertAll (h : Hub) (k : Nat) (smp : Sample) : Hub :=
  let live := h.trackState k == 2
  (h.bindsOf k).foldl (fun g e =>
    if e.2.2.committed || (!live && e.2.2.fire != none) then g else g.convertAct smp e.1 e.2.1 e.2.2) h

/-- Whether a pass converts: not in STALE, and in ACQUIRE only with a sample accepted there (R218, R219). -/
def Hub.passConverts (h : Hub) (k : Nat) : Bool :=
  match h.trackState k with
  | 2 => true
  | 1 => !(h.track k).passOld
  | _ => false

/-- CONVERSION_PASS: the Track's pass, at the front of the passes, ends, having converted with the sample it started with; where one has been
accepted during it, the next pass starts with that (R215, R219). -/
def execConversionPass (track : Nat) (s : State) : Host.Outcome State Fault Refusal :=
  run s fun h =>
    match (h.track track).pass with
    | none => h
    | some smp =>
      if h.passes.head? ≠ some track then h
      else
        let h := if h.passConverts track then h.convertAll track smp else h
        { h with passes := h.passes.drop 1 }.setTrack track (fun t =>
          { t with pass := if t.passAgain then t.newest else none, passAgain := false, passOld := !t.inAcquire })

/-- CONVERSION: a newly queued positional action is converted for the first time (R212, R218, R219). -/
def execConversion (owner number : Nat) (s : State) : Host.Outcome State Fault Refusal :=
  run s fun h =>
    match h.binds.find? (fun e => e.1 == owner && e.2.1 == number && e.2.2.new) with
    | none => h
    | some e =>
      match h.conversionSample e.2.2.track with
      | none => h
      | some smp => h.convertAct smp owner number e.2.2

/-! ### Ages (R207, R218) -/

/-- AGE_LIM: a LIVE Track whose age exceeds AGE_LIM becomes STALE (R207). -/
def execAgeLim (track : Nat) (s : State) : Host.Outcome State Fault Refusal :=
  run s fun h =>
    match h.trackAge track with
    | some a => if h.trackState track = 2 ∧ h.ageLim track < a then h.setTrackState track 3 else h
    | none => h

/-- AGE_LIM2: the age of a Track that is not LIVE exceeds AGE_LIM2, and its EXTRAP actions go (R218). -/
def execAgeLim2 (track : Nat) (s : State) : Host.Outcome State Fault Refusal :=
  run s fun h =>
    if h.trackState track ≠ 2 ∧ h.beyondLim2 track then
      (h.bindsOf track).foldl (fun g e =>
        if e.2.2.committed then g else (g.dropAct e.1 e.2.1 false).inc (pTrk track) TRK.POL_DROP_COUNT) h
    else h

/-! ### Drift statistics (R222, R224) -/

/-- FB_MISS: no edge came within FB_WIN of the firing (R222). -/
def execFbMiss (track profile : Nat) (s : State) : Host.Outcome State Fault Refusal :=
  run s fun h =>
    match Map.find (h.track track).open_ profile with
    | none => h
    | some m => if tickDiff h.now m.firedAt < h.feedbackWindow track profile then h else h.missMeasure track profile

/-- The bins of the profiles named in a mask emptied, their DRIFT and MISSING bits cleared (R224). -/
def Hub.clearStats (h : Hub) (k mask : Nat) : Hub :=
  let p := pTrk k
  let keep (v : Nat) : Nat := (List.range 4).foldl (fun a q => if bitOf mask q then withoutBit a q else a) v
  ((h.setTrack k (fun t => { t with bins := t.bins.filter (fun e => !bitOf mask (e.1 / 8)) })).put
    p TRK.DRIFT_STAT_DRIFT (keep (h.get p TRK.DRIFT_STAT_DRIFT))).put p TRK.DRIFT_STAT_MISSING (keep (h.get p TRK.DRIFT_STAT_MISSING))

/-- STATS_CLR (R224). -/
def execStatsClr (req : Req) (track mask : Nat) (s : State) : Host.Outcome State Fault Refusal :=
  run s fun h => h.writeDo req (pTrk track) 0x1C4 fun g => g.clearStats track (mask % 16)

/-! ### Latched reads (R210, R227) -/

/-- SMP_TS_LO: the read latches the rest of the newest sample (R227). -/
def Hub.readSample (h : Hub) (k : Nat) : Nat × Hub :=
  let p := pTrk k
  match (h.track k).newest with
  | none => (h.get p TRK.SMP_TS_LO_TLO, h)
  | some s =>
    let h := ((h.put p TRK.SMP_TS_LO_TLO s.ts).put p TRK.SMP_TS_HI_THI (s.ts / 2 ^ 32)).put p TRK.SMP_POS_LO_PLO s.pos
    let h := ((h.put p TRK.SMP_POS_HI_PHI (s.pos / 2 ^ 32)).put p TRK.SMP_VEL_VEL (ofSigned 32 s.vel)).put
      p TRK.SMP_ACC_ACC (ofSigned 32 s.acc)
    (s.ts % 2 ^ 32, ((h.put p TRK.SMP_INFO_SAMPLE s.number).put p TRK.SMP_INFO_SUB s.sub).put p TRK.SMP_INFO_SRC s.src)

/-- SMP_TS_LO. -/
def execSmpTsLo (req : Req) (track : Nat) (s : State) : Host.Outcome State Fault Refusal :=
  run s fun h => h.read req (pTrk track) 0x068 fun g => g.readSample track

/-- NOW_POS_LO: the read latches p(t) and v(t) (R210). -/
def Hub.readPosition (h : Hub) (k : Nat) : Nat × Hub :=
  let p := pTrk k
  match (h.track k).newest with
  | none => (h.get p TRK.NOW_POS_LO_PLO, h)
  | some s =>
    let d := h.sinceTs s
    let x := positionAt s (h.horizon k) d
    let (v, h) := h.fit32 (velocityAt s (h.horizon k) d)
    (x % 2 ^ 32, ((h.put p TRK.NOW_POS_LO_PLO x).put p TRK.NOW_POS_HI_PHI (x / 2 ^ 32)).put p TRK.NOW_VEL_VEL (ofSigned 32 v))

/-- NOW_POS_LO. -/
def execNowPosLo (req : Req) (track : Nat) (s : State) : Host.Outcome State Fault Refusal :=
  run s fun h => h.read req (pTrk track) 0x084 fun g => g.readPosition track

end Sys2Proof.Machine
end

