-- ==== Sys2Proof/Machine/Atrium.lean ====
section
/-!
DEFINITION. The Atrium engine's commands: sampling and publishing, closing, slots received, the publish buffer and the latched read (R230 to R254).
Where the manual is open: DEDUCED, log entry 21.
-/
namespace Sys2Proof.Machine

open Reg

/-! ### What is sampled (R75, R232, R233) -/

/-- Whether a unit's page is fenced, so that its bytes are zero (R86). -/
def Hub.zeroIfFenced (h : Hub) (p : Nat) (bs : List Byte) : List Byte := if h.fenced p then bs.map (fun _ => 0) else bs

/-- The eight flags of a bank's channels as a byte; zero while the bank is fenced. -/
def Hub.bankByte (h : Hub) (k : Nat) (f : ChState → Bool) : Byte :=
  if h.fenced (pBank k) then 0
  else BitVec.ofNat 8 ((List.range 8).foldl (fun a i => a + (if f (h.ch (8 * k + i)) then 2 ^ i else 0)) 0)

/-- The status word of a zone (R510). -/
def Hub.zoneStatus (h : Hub) (z : Nat) : Nat :=
  let p := pZone z
  let s := Map.getD h.zones z {}
  h.get p ZONE.STAT_STATE + 8 * h.get p ZONE.CMD_ON + 16 * h.get p ZONE.STAT_PGOOD + 32 * flag s.sinceFast + 64 * flag s.sinceSlow
    + 128 * flag (h.on p ZONE.STAT_DMG_GATE || h.on p ZONE.STAT_DMG_OUT) + 256 * h.get p ZONE.STAT_VIN_UV
    + 512 * h.get p ZONE.STAT_VIN_OV + 1024 * flag s.sinceReverse + 2048 * flag (h.fenced p) + 4096 * h.get p ZONE.STAT_RETRY_CNT

/-- The eight bytes of a zone (R75); a current that its 16 bits do not hold is an open value. -/
def Hub.zoneBytes (h : Hub) (z : Nat) : List Byte × Hub :=
  let s := Map.getD h.zones z {}
  let fits := toSigned 16 (ofSigned 16 s.iMa) == s.iMa
  let i := if fits then ofSigned 16 s.iMa else h.fresh.1 % 2 ^ 16
  (h.zeroIfFenced (pZone z) (leBytes 2 s.voutMv ++ leBytes 2 i ++ leBytes 2 (h.zoneStatus z) ++ leBytes 2 0),
    if fits then h else h.fresh.2)

/-- Bytes 0x40 to 0x47 of the default slot: the mode, the fault summary, the bank supplies, the temperature; zero where they come from a
fenced unit (R75, R86). -/
def Hub.nodeStatus (h : Hub) : List Byte :=
  let banks := (List.range 16).foldl (fun a k => a + (if h.on (pBank k) BANK.STAT_VOK && !h.fenced (pBank k) then 2 ^ k else 0)) 0
  leBytes 1 h.mode.code ++ leBytes 1 (flag h.sys.corrected + 2 * flag h.anyFence) ++ leBytes 2 banks
    ++ h.zeroIfFenced pTherm (leBytes 2 (h.get pTherm THERM.STAT_TJ)) ++ leBytes 2 0

/-- The default slot (R75). -/
def Hub.defaultSlot (h : Hub) : List Byte × Hub :=
  let z := [0, 1, 2, 3].foldl (fun (a : List Byte × Hub) i =>
    let r := a.2.zoneBytes i
    (a.1 ++ r.1, r.2)) ([], h)
  ((List.range 16).map (fun k => h.bankByte k (fun c => c.filt)) ++ (List.range 16).map (fun k => h.bankByte k (fun c => c.changed))
    ++ z.1 ++ h.nodeStatus ++ leBytes 16 h.uid ++ leBytes 40 0, z.2)

/-- The bytes of a Track's position at S(n) (KIND 6 of R233). -/
def Hub.contextBytes (h : Hub) (c n : Nat) : List Byte :=
  match h.contexts[c]? with
  | none => leBytes 7 0 ++ leBytes 1 255
  | some k =>
    let state := h.trackState k
    h.zeroIfFenced (pTrk k)
      (match (h.track k).newest with
       | none => leBytes 6 0 ++ leBytes 1 state ++ leBytes 1 255
       | some s =>
         let t := h.samplingTick n
         leBytes 6 (positionAt s (h.horizon k) (sinceSample s (8 * t))) ++ leBytes 1 state
           ++ leBytes 1 (min 255 ((tickDiff t s.ts).toNat / 50000)))

/-- The bytes of a publish map source (R233). -/
def Hub.sourceBytes (h : Hub) (kind index n : Nat) : List Byte × Hub :=
  match kind with
  | 1 => ([h.bankByte index (fun c => c.filt)], h)
  | 2 => ([h.bankByte index (fun c => c.changed)], h)
  | 3 => (h.zeroIfFenced (pCh index) (leBytes 4 (h.get (pCh index) CH.CNT_COUNT)), h)
  | 4 =>
    let stamp := match (h.ch index).last with
      | some e => e.stamp
      | none => 0
    (h.zeroIfFenced (pCh index) (leBytes 8 stamp), h)
  | 5 => h.zoneBytes index
  | 6 => (h.contextBytes index n, h)
  | 7 => (h.zeroIfFenced (pPrs index) (leBytes 4 (h.get (pPrs index) PRS.PUBW_WORD)), h)
  | 8 => (h.nodeStatus, h)
  | _ => ([], h)

/-- Bytes written over a slot at an offset. -/
def overlay (slot : List Byte) (at_ : Nat) (bs : List Byte) : List Byte :=
  (slot.take at_ ++ bs ++ slot.drop (at_ + bs.length)).take slot.length

/-- The committed slot: the live publish buffer, overwritten by the publish map (R232, R233). -/
def Hub.committedSlot (h : Hub) (n : Nat) : List Byte × Hub :=
  (List.range 32).foldl (fun (a : List Byte × Hub) i =>
    let r := a.2.sourceBytes (h.cfg pAtr (ATR.PUB_MAP_KIND i)) (h.cfg pAtr (ATR.PUB_MAP_INDEX i)) n
    (overlay a.1 (h.cfg pAtr (ATR.PUB_MAP_DEST i)) r.1, r.2)) (Mem.readN h.atr.live 0 (h.cfg pAtr ATR.CFG_SLOT_LEN), h)

/-! ### Sampling and publishing (R234 to R238, R247) -/

/-- The publish buffer at S(n): a ready shadow becomes the live copy (R234). -/
def Hub.takeShadow (h : Hub) : Hub :=
  if h.on pAtr ATR.PUB_CTL_READY then (h.setAtr (fun a => { a with live := a.shadow })).put pAtr ATR.PUB_CTL_READY 0 else h

/-- The slot of an epoch stored in this node's own copy (R238, R242). -/
def Hub.keepOwn (h : Hub) (slot : List Byte) : Hub :=
  h.setAtr (fun a => { a with back := Map.set a.back h.nodeId (slot, false) })

/-- The slot check of R237. -/
def slotCheck (src aux : Nat) (slot : List Byte) : List Byte := leBytes 2 (crc16 (leBytes 2 src ++ leBytes 2 aux ++ slot))

/-- A slot published: the frame in both directions and the own copy (R237, R238). -/
def Hub.publishSlot (h : Hub) (n : Nat) (default : Bool) (slot : List Byte) : Hub :=
  let aux := (if default then 0x8000 else h.cfg pAtr ATR.CFG_LAYOUT * 0x1000) + n % 4096
  let h := h.originateFrom 4 { cls := .express, hdr := { type := 0x01, dst := 4095, ten := 0xF, aux := aux },
                               payload := slot ++ slotCheck h.nodeId aux slot }
  let h := ((h.keepOwn slot).atrCount 10 1).setAtr (fun a => { a with lastSlot := slot })
  (h.put pAtr ATR.STAT_PUBLISHING 1).put pAtr ATR.STAT_DEFAULT (flag default)

/-- An epoch in which nothing is sent (R236). -/
def Hub.skipPublish (h : Hub) : Hub := ((h.atrCount 11 1).put pAtr ATR.STAT_PUBLISHING 0).put pAtr ATR.STAT_DEFAULT 0

/-- At least one ring side works (R14). -/
def Hub.sideWorks (h : Hub) : Bool := h.link 0 == 4 || h.link 1 == 4

/-- What this node publishes at S(n), by mode and conditions (R14, R235, R236). -/
def Hub.publish (h : Hub) (n : Nat) : Hub :=
  if h.cfgOn pAtr PG.CTRL_EN = false ∨ h.fenced pAtr ∨ h.nodeId = 0 then h.skipPublish
  else if h.modeEff = .islanded then (h.committedSlot n).2.skipPublish.keepOwn (h.committedSlot n).1
  else if h.mainValid = false ∨ h.modeEff.publishes = false ∨ h.sideWorks = false then h.skipPublish
  else if h.defaultMode then
    (if h.defaultAllowed then h.defaultSlot.2.publishSlot n true h.defaultSlot.1 else h.skipPublish)
  else (h.committedSlot n).2.publishSlot n false (h.committedSlot n).1

/-- What counts "since the previous sampling instant" starts again (R75, R510, R527). -/
def Hub.sampledAll (h : Hub) : Hub :=
  let h := { h with sys := { h.sys with corrected := false } }
  let h := { h with chans := (h.chans.map (fun (e : Nat × ChState) => (e.1, { e.2 with changed := false }))).filter (fun e => e.2 != ({} : ChState)) }
  { h with zones := (h.zones.map (fun (e : Nat × ZoneState) =>
      (e.1, { e.2 with sinceFast := false, sinceSlow := false, sinceReverse := false }))).filter (fun e => e.2 != ({} : ZoneState)) }

/-- The epochs skipped between the last sampling instant and this one (R247). -/
def Hub.noteSkipped (h : Hub) (n : Nat) : Hub :=
  match h.atr.last with
  | none => h
  | some m =>
    if n ≤ m + 1 then h
    else ((h.atrCount 13 (n - m - 1)).irq pAtr 3).setAtr (fun a => { a with skipped := true })

/-- The open epoch becomes `n`, sampled under the committed values (R231, R248). -/
def Hub.openSampled (h : Hub) (n : Nat) : Hub :=
  let joined := h.ringJoined && h.mainValid
  let h := if joined then h else { h with sys := { h.sys with rejoined := false } }
  h.setAtr (fun a => { a with
    back := if a.open_ = some n then a.back else []
    open_ := some n, sampled := true, layout := h.committed.filter (fun e => e.1.page == pAtr), joined := joined })

/-- SAMPLING_INSTANT: ring time has reached S(n) for an epoch above the last sampled one. An epoch still open closes first; an engine that is
not enabled samples nothing and counts the epoch (R231 to R238, R245, R247). -/
def execSamplingInstant (epoch : Nat) (s : State) : Host.Outcome State Fault Refusal :=
  run s fun h =>
    if !h.mode.fromTransparent || !h.mayOpen epoch then h
    else
      let h := if h.atrOn then (h.closeOpen.noteSkipped epoch).takeShadow.driveOutputs.openSampled epoch else h
      ((h.setAtr (fun a => { a with last := some epoch, sampledAt := some h.clock })).publish epoch).sampledAll

/-! ### Slots received (R239) -/

/-- Why a slot frame is refused, or none (R239). The checks are made in order. -/
inductive SlotVerdict where
  | accept | shape | uncovered | late | epoch | repeated | tag | short | check
deriving DecidableEq, Repr

/-- The checks of R239 on a delivered slot frame. -/
def Hub.judgeSlot (h : Hub) (f : Frame) : SlotVerdict :=
  let x := f.hdr
  let ws := h.atrWindows.filter (fun w => w.covers x.src)
  let slot := f.payload.take (x.len - 2)
  let e := x.aux % 4096
  if x.len < 18 ∨ 1026 < x.len ∨ (x.len - 2) % 8 ≠ 0 then .shape
  else if ws = [] then .uncovered
  else
    let n := h.openEpoch
    if e ≠ n % 4096 then (if e = (n + 4095) % 4096 then .late else .epoch)
    else if (Map.find h.atr.back x.src).any (fun b => b.2) then .repeated
    else if ws.any (fun w => if bitOf x.aux 15 then !w.defOk else slice x.aux 12 3 != w.tag) then .tag
    else if ws.any (fun w => decide (x.len - 2 < w.ofs + w.len)) then .short
    else if f.payload.drop (x.len - 2) ≠ slotCheck x.src x.aux slot then .check
    else .accept

/-- ATRIUM_SLOT: a slot frame that the topology unit delivered (R239). In Islanded the slot of another node stays invalid (R88). -/
def execAtriumSlot (frame : Frame) (s : State) : Host.Outcome State Fault Refusal :=
  run s fun h =>
    if !h.atrOn || h.fenced pAtr then h
    else
      let h := h.openNow
      let x := frame.hdr
      match h.judgeSlot frame with
      | .accept =>
        if h.modeEff = .islanded then h
        else (h.atrCount 1 1).setAtr (fun a => { a with back := Map.set a.back x.src (frame.payload.take (x.len - 2), true) })
      | .shape => h.atrCount 5 1
      | .uncovered => h
      | .late =>
        (((h.atrCount 2 1).put pAtr ATR.LATE_LAST_NODE x.src).put pAtr ATR.LATE_LAST_EPOCH x.aux).irq pAtr 2
      | .epoch => h.atrCount 3 1
      | .repeated => h.atrCount 4 1
      | .tag => h.atrCount 8 1
      | .short => h.atrCount 7 1
      | .check => (h.atrCount 6 1).raise pAtr 0

/-! ### The close (R231, R241) -/

/-- CLOSE_INSTANT: ring time has reached C(n) of the open epoch, which has been sampled (R230, R231, R241). A fenced engine closes none (R249). -/
def execCloseInstant (s : State) : Host.Outcome State Fault Refusal :=
  run s fun h =>
    match h.atr.open_ with
    | none => h
    | some n => if h.now < h.closeTick n then h else h.closeOpen

/-! ### The publish buffer and the latched read (R234, R243, R253) -/

/-- READY: the write of 1 to PUB_CTL.READY marks the shadow ready (R234). On the edge of a sampling instant the instant comes first (`edgeRank`). -/
def execReady (req : Req) (s : State) : Host.Outcome State Fault Refusal :=
  run s fun h => h.writeDo req pAtr 0x04C fun g => g.put pAtr ATR.PUB_CTL_READY 1

/-- A write to the shadow: by the owner of the page, and not while READY is 1 (R41, R234). -/
def Hub.writeShadow (h : Hub) (req : Req) (offset : Nat) (bs : List Byte) : Hub × Bool :=
  if !h.mayWrite req pAtr then (h.ownErr req ((0x300000 + offset) / 4096) (offset % 4096), false)
  else if h.mode = .safeStop then (h, false)
  else if h.on pAtr ATR.PUB_CTL_READY then (h.atrCount 12 1, false)
  else (h.setAtr (fun a => { a with shadow := Mem.writeN a.shadow offset bs }), true)

/-- PUBLISH_BUFFER_WRITE: `size` bytes at an aligned offset of the shadow (R234, R243). -/
def execPublishBufferWrite (req : Req) (offset size value : Nat) (s : State) : Host.Outcome State Fault Refusal :=
  run s fun h =>
    if (size = 1 ∨ size = 2 ∨ size = 4 ∨ size = 8) ∧ offset % size = 0 ∧ offset + size ≤ 1024 then
      let r := h.writeShadow req offset (leBytes size value)
      r.1.hear req (0x80300000 + offset) (if r.2 then 0 else if h.mayWrite req pAtr then stBusy else stOwner)
    else (h.accErr req ((0x300000 + offset) / 4096) (offset % 4096)).hear req (0x80300000 + offset) stBadSize

/-- The read of EPOCH_LO latches EPOCH_HI and VALID (R253). -/
def Hub.readEpoch (h : Hub) : Nat × Hub :=
  let d := h.atr.desc
  (d.number % 2 ^ 32, ((h.put pAtr ATR.EPOCH_HI_NHI (d.number / 2 ^ 32)).put pAtr ATR.VALID_COVERED d.covered).put
    pAtr ATR.VALID_COUNT d.valid)

/-- EPOCH_LO. -/
def execEpochLo (req : Req) (s : State) : Host.Outcome State Fault Refusal :=
  run s fun h => h.read req pAtr 0x054 Hub.readEpoch

end Sys2Proof.Machine
end

