-- ==== Sys2Proof/Machine/SendOps.lean ====
section
/-!
DEFINITION. Frames sent whole on a ring port, with what is inserted as they leave, and the orderly leave of the ring
(R121, R127, R132, R163, R177, R180, R181, R304).
Where the manual is open: DEDUCED, log entry 22.
-/
namespace Sys2Proof.Machine

open Reg

/-- A port's delay filter changed. -/
def Hub.setPd (h : Hub) (port : Nat) (f : PdState → PdState) : Hub := h.setPort port (fun p => { p with pd := f p.pd })

/-! ### What goes in as a frame leaves (R177, R180, R181) -/

/-- Bytes of a payload replaced from an offset on. -/
def patch (bs : List Byte) (i : Nat) (v : List Byte) : List Byte := bs.take i ++ v ++ bs.drop (i + v.length)

/-- A sync or delay frame with what is inserted at its transmit stamp `tx`, in 2^-16 tick (R177, R180, R181). -/
def Hub.stampOut (h : Hub) (port : Nat) (tx : Int) (t : TxItem) : Frame :=
  let f := t.frame
  if f.hdr.type = 0x03 ∧ f.hdr.len = 40 ∧ 20 ≤ f.payload.length then
    match t.rx with
    | none =>
      let origin := (tx / 8192 % (2 ^ 67 : Nat)).toNat
      { f with payload := patch f.payload 0 (leBytes 8 (origin / 8) ++ leBytes 1 (origin % 8)) }
    | some rx =>
      let d := tx - h.stamp (other port) false rx + (h.dIn (other port)).getD 0
      { f with payload := patch f.payload 12 (leBytes 8 (ofSigned 64 (toSigned 64 (f.field 12 8) + d))) }
  else if f.hdr.type = 0x33 ∧ f.cls = .link then
    match t.rx with
    | some rx => { f with payload := patch f.payload 4 (leBytes 8 (ofSigned 64 (tx - h.stamp port false rx))) }
    | none => f
  else f

/-- A delay request notes its REQ_ID and t1 as it leaves (R177). -/
def Hub.noteRequest (h : Hub) (port : Nat) (tx : Int) (f : Frame) : Hub :=
  if f.hdr.type = 0x32 ∧ f.cls = .link then h.setPd port (fun d => { d with waiting := some (f.field 0 2, tx) }) else h

/-- A frame sent on a ring port, counted (R141). -/
def Hub.countTx (h : Hub) (port : Nat) (f : Frame) : Hub :=
  h.setPort port (fun p => { p with txFrames := (p.txFrames + 1) % 2 ^ 64, txBytes := (p.txBytes + f.sentLength) % 2 ^ 64 })

/-- A cell of a frame fails its check as the frame is sent: the fault source and its counts (R304). -/
def Hub.cellBad (h : Hub) (dram : Bool) : Hub :=
  let p := if dram then pDram else pSw
  (h.sourceEffect p 1).raise p 1

/-- A whole frame sent on a ring port; `c8` is the instant of its /S/ on C in eighths of a tick, `bad` a failing cell (R121, R132, R304). -/
def Hub.sendWhole (h : Hub) (port c8 : Nat) (bad : Bool) (t : TxItem) : Hub :=
  let tx := h.stamp port true c8
  let f := h.stampOut port tx t
  let check := if bad then Check.stomped else t.check
  let h := (((h.emit (.frame port f check)).noteRequest port tx f).countTx port f).watch port true ((tx / 8192) % (2 ^ 64 : Nat)).toNat f
  if bad then h.cellBad false else h

/-! ### Leaving (R163) -/

/-- Everything that waits on a port in the classes above Bulk is sent, in the order of R127; their stamps are those of the present instant, for
R163 gives the frames no time of their own (DEDUCED, log entry 22). -/
def Hub.flushPort (h : Hub) (port : Nat) : Hub :=
  let p := h.port port
  let g := h.setPort port (fun p => { p with transitX := [], ownX := [], transitT := [], ownT := [], links := [] })
  (p.transitX ++ p.ownX ++ p.transitT ++ p.ownT ++ p.links).foldl (fun g t => g.sendWhole port h.now8 false t) g

/-- The node leaves the ring in an orderly way: LEAVE, keep-alives with LEAVING, and the queued Bulk frames discarded (R163). -/
def Hub.leaveRing (h : Hub) : Hub :=
  let h := (h.announce 3 0 0 0).setTopo (fun t => { t with leaving := true })
  let h := [0, 1].foldl (fun g p => if g.link p = 4 ∨ g.link p = 5 then (g.sendKeepAlive p).flushPort p else g) h
  let bulk (e : Nat × List VFrame) : Bool := e.1 % 3 == 2
  let n := h.sw.queues.foldl (fun a e => a + e.2.length) 0 + h.sw.bulk.length + h.sw.opening.length
    + (h.sw.voq.filter bulk).foldl (fun a e => a + e.2.length) 0
  let h := h.addTo pTopo TOPO.LEAVE_DROP_COUNT n
  { h with sw := { h.sw with queues := [], bulk := [], opening := [], voq := h.sw.voq.filter (fun e => !bulk e) } }

end Sys2Proof.Machine
end

