-- ==== Sys2Proof/Machine/Reactions.lean ====
section
/-!
DEFINITION. What the blocks do when a supply comes or goes, when the hub leaves the ring and when its configuration is reverted.
Where the manual is open: DEDUCED, log entries 22, 32 and 40.
-/
namespace Sys2Proof.Machine

open Reg

/-- Every SerDes link loses its link: ring ports, local Ethernet, PCI Express (R99, R106). -/
def Hub.serdesLost (h : Hub) : Hub := (((h.serdesPlls.portSignalLost 0).portSignalLost 1).etherDown).pcieLost

/-- VDD_FP is lost: every zone turns off and reports an undervoltage (R99). -/
def Hub.fieldPowerLost (h : Hub) : Hub :=
  [0, 1, 2, 3].foldl (fun h z =>
    let new := !(h.zone z).outSeen
    let h := (h.put (pZone z) ZONE.STAT_VIN_UV 1).zoneVinOut z
    if new && h.on (pZone z) ZONE.CMD_ON then h.raise (pZone z) 4 else h) h

/-- VDD_FP has become present: the zones' own samples decide what follows (R492). -/
def Hub.fieldPowerPresent (h : Hub) : Hub := h

/-- VDD_MEM is lost: the DRAM controller is fenced from Cellar on, with no fault source of its own, and the DRAM contents are lost (R99). -/
def Hub.memoryLost (h : Hub) : Hub :=
  let h := { h with dram := [] }
  if !h.mode.fromCellar || h.fenced pDram then h
  else
    let f := h.fresh
    ((((f.2.put pFlt FLT.LAST_FENCE_SRC f.1).put pFlt FLT.LAST_FENCE_PAGE pDram).inc pFlt FLT.CNT_FENCE_COUNT).irq pFlt 0).fenceUnit pDram

/-- VDD_BANK[k] is lost (R99). -/
def Hub.bankLost (h : Hub) (k : Nat) : Hub := h.bankWent k

/-- VDD_BANK[k] has become present at a measured voltage (R327, R328). -/
def Hub.bankPresent (h : Hub) (k mv : Nat) : Hub := h.bankCame k mv

/-- The topology unit announces the node's leave on both ports (R163). -/
def Hub.announceLeave (h : Hub) : Hub := h.leaveRing

/-- Pending timed actions and queued transmit data are discarded and counted in COMMIT_DROPS (R79). -/
def Hub.discardWork (h : Hub) : Hub :=
  let h := h.chans.foldl (fun g e => g.flushQueue e.1 true) h
  let h := serialPages.foldl (fun g p => g.discardSer p) h
  let h := (List.range 32).foldl (fun g e => g.discardPrs e) h
  (List.range 4).foldl (fun g n => g.countCanWork n) h

/-- The first phase after a phase whose items are selected; 6 where none is left (R587). -/
def nextPhase (items after : Nat) : Nat :=
  let runs (p : Nat) : Bool := match p with
    | 1 => bitOf items 0
    | 2 => bitOf items 2
    | 3 => bitOf items 3
    | 4 => bitOf items 1
    | _ => items % 8 != 0
  match ([1, 2, 3, 4, 5].filter (fun p => decide (after < p))).find? runs with
  | some p => p
  | none => 6

/-- The item that STAT.ITEM shows in a phase: 1 MEM, 2 LOGIC, 3 SERDES, 4 FSENSE (R599). -/
def phaseItem (items phase : Nat) : Nat :=
  match phase with
  | 1 => 1 | 2 => 3 | 3 => 4 | 4 => 2
  | 5 => if bitOf items 2 then 3 else if bitOf items 0 then 1 else 2
  | _ => 0

/-- The full self-test enters a phase; the final phase ends the host's PCI Express link (R587). -/
def Hub.enterPhase (h : Hub) (phase : Nat) : Hub :=
  let h := if phase = 5 then h.pcieLost else h
  let h := ((h.put pBist BIST.STAT_STATE 1).put pBist PG.STAT_BLOCK 1).put pBist BIST.STAT_ITEM (phaseItem h.bist.items phase)
  ({ h with bist := { h.bist with phase := phase } }).syncAll

/-- The full self-test starts (R586, R587). -/
def Hub.startSelfTest (h : Hub) : Hub :=
  let sel := h.get pBist BIST.SEL_ITEMS
  let items := if sel = 0 then 15 else sel
  let h := (h.put pBist BIST.RESULT_DONE 0).put pBist BIST.RESULT_PASS 0
  { h with bist := { items := items, lc := h.lifecycle, deploy := h.deployment, began := h.ns } }.enterPhase (nextPhase items 0)

/-- The TX_FAULT input of a port is heeded while its management pins are active: high, it takes the port out of UP (R133, R138). -/
def Hub.txFaulty (h : Hub) (port : Nat) : Bool :=
  h.cfgOn (pRport port) RPORT.CFG_SFP_MGMT && h.on (pRport port) RPORT.STAT_SFP_TXFAULT

/-- TX_FAULT is high on a port whose management pins are active: the fault source, and DOWN from UP (R138, R140). -/
def Hub.txFault (h : Hub) (port : Nat) : Hub :=
  if h.txFaulty port then (if h.link port = 4 then h.setLink port 6 else h).raise (pRport port) 3 else h

/-- The ring side of a commit: the node's ID, the ports that are permitted, and the rates and equaliser settings (R133, R136, R142), and a TX_FAULT
input that is high as its pins become active (R138). A RATE changed while the port is neither UP nor OFF takes effect at once, the link state
staying: R136 names UP alone (DESIGN CHOICE, log entry 55). -/
def Hub.commitRing (h old : Hub) : Hub :=
  let h := (h.commitId old.idFixed (old.cfg pTopo TOPO.CFG_NODE_ID)).alignPorts
  [0, 1].foldl (fun g i =>
    let p := pRport i
    let g := g.rateWarn i
    let g := if old.cfgOn p RPORT.CFG_SFP_MGMT then g else g.txFault i
    let moved := [RPORT.CFG_RATE, RPORT.TX_EQ_USE, RPORT.TX_EQ_PRE, RPORT.TX_EQ_MAIN, RPORT.TX_EQ_POST, RPORT.RX_EQ_USE,
      RPORT.RX_EQ_CTLE, RPORT.RX_EQ_DFE_FREEZE].any (fun f => g.cfg p f != old.cfg p f)
    if !moved then g
    else
      let g := if g.link i = 4 then g.setLink i 6 else g
      if g.link i = 0 ∨ g.cfg p RPORT.CFG_RATE = old.cfg p RPORT.CFG_RATE then g else g.beginPass i) h

/-- A commit's effect on a Track (R207, R220). -/
def Hub.commitTrack (h old : Hub) (k : Nat) : Hub :=
  let p := pTrk k
  let differs (fs : List Fld) : Bool := fs.any (fun f => h.cfg p f != old.cfg p f)
  let source := differs [TRK.SRC_CFG_TYPE, TRK.SRC_CFG_INVERT, TRK.SRC_CFG_SSI_GRAY, TRK.SRC_CFG_SSI_BITS, TRK.SRC_CFG_SPI,
    TRK.SRC_CFG_RATE, TRK.SRC_CFG_VEL_WIN, TRK.SRC_CFG_QCH]
  let moved := source || differs [TRK.CFG_ROLE, TRK.CFG_SRC_NODE, TRK.SSI_LAT_USE, TRK.SSI_LAT_NS, TRK.ESTIM_USE, TRK.ESTIM_ORDER]
  let h := h.alignTrack k
  let h := if source then h.setTrack k (fun t => { t with history := [], encFault := false, ssiPreset := none, ssiReading := false }) else h
  if moved ∧ h.followed k ∧ old.followed k ∧ h.trackState k ≠ 4 then (h.setTrackState k 1).setLock k 0 else h.tryLive k

/-- What the blocks do at the edge at which committed values change; `old` are the committed values before it (R55, R56). -/
def Hub.commitHook (h : Hub) (old : RegFile) : Hub :=
  let o := { h with committed := old }
  let h := ((h.commitRing o).alignTime.commitPrio).timeValidityHook o
  let h := (List.range 16).foldl (fun g k => (g.commitTrack o k).bankCommit k) h
  let h := (List.range 128).foldl (fun g c => g.commitChannel o c) h
  let h := (List.range 4).foldl (fun g n => g.commitCan o n) h
  let h := (h.alignShed (h.get pTherm THERM.STAT_LEVEL)).commitAtr o
  let h := serialPages.foldl (fun g p => g.commitSer o p) h
  let h := (List.range 32).foldl (fun g e => g.commitPrs o e) h
  ((h.commitSwitch o).alignEther.alignPreempt.alignHost.alignZones).commitTenants

end Sys2Proof.Machine
end

