-- ==== Sys2Proof/Machine/System.lean ====
section
/-!
DEFINITION. Register pages, the expert level, staging and the commit commands (R31 to R54, R61).
Where the manual is open: DEDUCED, log entries 8, 16 and 37.
-/
namespace Sys2Proof.Machine

open Reg

/-! ### A write to fields that have no row of their own (R6, R7, R45, R48, R54) -/

/-- Whether a requester may stage the OWNER field (PG_CTRL, R628). -/
def Hub.mayStage (h : Hub) (req : Req) (f : Fld) : Bool :=
  if f.off = 0x008 ∧ f.lo = 24 then h.sysOwner req else true

/-- One field written with a value, by its access type (R6). -/
def Hub.writeField (h : Hub) (req : Req) (p : Nat) (f : Fld) (x : Nat) : Hub :=
  match f.acc with
  | .rw => h.put p f x
  | .w1c => h.put p f (h.get p f ^^^ (h.get p f &&& x))
  | .w1s => h.put p f (h.get p f ||| x)
  | .stg => if h.mayStage req f then h.put p f x else h
  | _ => h

/-- Whether a word written to fields would change a staged value (R54). -/
def Hub.changesStaged (h : Hub) (req : Req) (p : Nat) (fs : List Fld) (v : Nat) : Bool :=
  fs.any (fun f => f.acc == .stg && h.mayStage req f && slice v f.lo f.w != h.get p f)

/-- Every field of a register written with its bits of a word. -/
def Hub.writeFields (h : Hub) (req : Req) (p : Nat) (fs : List Fld) (v : Nat) : Hub :=
  fs.foldl (fun g f => g.writeField req p f (slice v f.lo f.w)) h

/-- Whether an offset lies at the expert level (R35). -/
def expertOffset (off : Nat) : Bool := decide (0x400 ≤ off) && decide (off < 0xC00)

/-- The fields of the register at an offset of a page; none at an unused page or where no register lies (R34). -/
def pageFields (p off : Nat) : List Fld :=
  match kindOf p with
  | some k => fieldsAt k off
  | none => []

/-- A write to a register whose fields only store (R34, R45, R48, R54). -/
def Hub.plainWrite (h : Hub) (req : Req) (p off v : Nat) : Hub × Bool :=
  if expertOffset off && !h.on p PG.STAT_XOPEN then (h, true)
  else if h.commitBusy && h.changesStaged req p (pageFields p off) v then (h.blocked, false)
  else (h.writeFields req p (pageFields p off) v, true)

/-! ### The expert level (R44 to R46) -/

/-- PG_CTRL.XKEY written: 0xE7 opens the page's expert level, any other value closes it (R44, R46). XOPEN follows the key also on a page that
has no expert registers, SYS among them, where the manual says nothing of it (DESIGN CHOICE, log entry 16). -/
def Hub.xkey (h : Hub) (p v : Nat) : Hub := h.put p PG.STAT_XOPEN (flag (v % 256 == 0xE7))

/-- XKEY_OPEN: 0xE7 written to PG_CTRL.XKEY, every other field as read back (R44). -/
def execXkeyOpen (req : Req) (page : Nat) (s : State) : Host.Outcome State Fault Refusal :=
  run s fun h => h.writeDo req page 0x008 fun g => g.xkey page 0xE7

/-- XKEY_CLOSE: another value written to PG_CTRL.XKEY (R46). -/
def execXkeyClose (req : Req) (page value : Nat) (s : State) : Host.Outcome State Fault Refusal :=
  run s fun h => h.writeDo req page 0x008 fun g => g.xkey page value

/-- SRST: 1 written to PG_CTRL.SRST (R61). -/
def execSrst (req : Req) (page : Nat) (s : State) : Host.Outcome State Fault Refusal :=
  run s fun h => h.writeDo req page 0x008 fun g => g.softReset page

/-! ### Interrupt flags and fault bits (R36 to R38) -/

/-- PG_IRQ_RAW cleared by a mask; the flags of the page that the hardware sets on the same edge, by this command or an earlier one of the edge,
stay set (R37, R627). -/
def Hub.clearIrq (h : Hub) (p mask setNow : Nat) : Hub :=
  h.put p PG.IRQ_RAW ((h.get p PG.IRQ_RAW ^^^ (h.get p PG.IRQ_RAW &&& mask)) ||| pageFlags p setNow ||| Map.getD h.edge.risen p 0)

/-- PG_FLT cleared by a mask; the sources still active set their bits again, and those transitions are judged (R38, R525). -/
def Hub.clearFlt (h : Hub) (p mask active : Nat) : Hub :=
  let g := h.put p PG.FLT_SRC ((h.get p PG.FLT_SRC ^^^ (h.get p PG.FLT_SRC &&& mask)) ||| Map.getD h.edge.risen (0x1000 + p) 0)
  g.raiseAll (((List.range 16).filter (fun b => bitOf active b)).map (fun b => (p, b)))

/-- PG_IRQ_RAW_CLEAR: `setNow` are the flags that the hardware sets on the same edge (R37). -/
def execPgIrqRawClear (req : Req) (page mask setNow : Nat) (s : State) : Host.Outcome State Fault Refusal :=
  run s fun h => h.writeDo req page 0x010 fun g => g.clearIrq page mask setNow

/-- PG_FLT_CLEAR: `active` are the sources whose condition is still present (R38). -/
def execPgFltClear (req : Req) (page mask active : Nat) (s : State) : Host.Outcome State Fault Refusal :=
  run s fun h => h.writeDo req page 0x01C fun g => g.clearFlt page mask active

/-! ### Staging and the commit commands (R48 to R54) -/

/-- PG_SEAL.SEALED of every page: whether a matching seal covers the committed values. -/
def Hub.markSealed (h : Hub) (b : Bool) : Hub := usedPages.foldl (fun g p => g.put p PG.SEAL_SEALED (flag b)) h

/-- One register file whose entries of a page are those of another. -/
def copyPage (into from_ : RegFile) (p : Nat) : RegFile :=
  (from_.filter (fun e => e.1.page == p)).foldl (fun r e => RegFile.insert r e.1 e.2)
    (into.filter (fun e => e.1.page != p))

/-- PG_SEAL.DISCARD written 1: the page's staged values become its committed ones; refused while a commit runs (R54). -/
def Hub.discardPage (h : Hub) (p : Nat) : Hub × Bool :=
  if h.commitBusy then (h.blocked, false) else ({ h with staged := copyPage h.staged h.committed p }, true)

/-- DISCARD. -/
def execDiscard (req : Req) (page : Nat) (s : State) : Host.Outcome State Fault Refusal :=
  run s fun h => h.write req page 0x024 (fun g => g.discardPage page) stStaging

/-- The end of a commit attempt: its result, IDLE, and every expert level closed (R46, R51). -/
def Hub.endAttempt (h : Hub) (result : Nat) : Hub :=
  let h := (h.put pSys SYS.COMMIT_STATE_LAST_RESULT result).put pSys SYS.COMMIT_STATE_STATE 0
  ({ h with sys := { h.sys with commitCmd := 0 } }).closeExpert

/-- What a refusal does to the mode: Transparent becomes Held (R59, R65). -/
def Hub.refusedMode (h : Hub) : Hub := if h.mode = .transparent then h.enterMode .held 0x22 else h

/-- A commit attempt refused with a code that no page's check gives (R50, R52, R53). -/
def Hub.refuseAttempt (h : Hub) (code : Nat) : Hub := ((h.refuseCode code).endAttempt 4).refusedMode

/-- The modes in which commit commands are refused with 0x0A04 (R50). -/
def noCommit : Mode → Bool
  | .shelf => true | .waking => true | .cellar => true | .test => true | .safeStop => true
  | _ => false

/-- Whether a COMMIT_AT instant lies at least 1 ms and at most 10 s ahead, in ticks of 2 ns (R52). -/
def commitTimeOk (now t : Nat) : Bool := decide (now + 500000 ≤ t) && decide (t ≤ now + 5000000000)

/-- The instant that SYS.COMMIT_TIME holds. -/
def Hub.commitTime (h : Hub) : Nat := h.get64 pSys SYS.COMMIT_TIME_LO_TLO SYS.COMMIT_TIME_HI_THI

/-- A commit command other than ABORT (R49 to R54, R59). One that comes while another commit runs is refused with 0x0A03; beyond the code, its
place and the refusal's effect on the mode it changes nothing: BLOCKED, COMMIT_DROPS, LAST_RESULT and the expert levels are those of the
running commit (DESIGN CHOICE, log entry 37). -/
def Hub.commitCommand (h : Hub) (cmd : Nat) : Hub :=
  if h.commitBusy then (h.refuseCode 0x0A03).refusedMode
  else
    let h := (h.put pSys SYS.COMMIT_STATE_BLOCKED 0).put pSys SYS.COMMIT_DROPS_DROPS 0
    if noCommit h.mode then h.refuseAttempt 0x0A04
    else if cmd = 3 ∧ commitTimeOk h.now h.commitTime = false then h.refuseAttempt 0x0A01
    else
      let h := h.put pSys SYS.COMMIT_STATE_STATE 1
      { h with sys := { h.sys with commitCmd := cmd, commitMode := h.get pSys SYS.MODE_CUR } }

/-- ABORT cancels a scheduled commit; in any other state it has no effect (R52). -/
def Hub.abortCommit (h : Hub) : Hub := if h.get pSys SYS.COMMIT_STATE_STATE = 2 then h.endAttempt 5 else h

/-- A write of SYS.COMMIT (R49). -/
def Hub.writeCommit (h : Hub) (req : Req) (v : Nat) : Hub × Bool :=
  let cmd := v % 16
  if slice v 16 16 = 0xA5C3 ∧ (cmd = 1 ∨ cmd = 2 ∨ cmd = 3 ∨ cmd = 4) then (h.commitCommand cmd, true)
  else if slice v 16 16 = 0xA5C3 ∧ cmd = 0xF then (h.abortCommit, true)
  else (h.accErr req pSys 0x040, false)

/-- VALIDATE. -/
def execValidate (req : Req) (s : State) : Host.Outcome State Fault Refusal :=
  run s fun h => h.write req pSys 0x040 fun g => g.writeCommit req 0xA5C30001

/-- COMMIT_NOW. -/
def execCommitNow (req : Req) (s : State) : Host.Outcome State Fault Refusal :=
  run s fun h => h.write req pSys 0x040 fun g => g.writeCommit req 0xA5C30002

/-- COMMIT_AT. -/
def execCommitAt (req : Req) (s : State) : Host.Outcome State Fault Refusal :=
  run s fun h => h.write req pSys 0x040 fun g => g.writeCommit req 0xA5C30003

/-- COMMIT_EPOCH. -/
def execCommitEpoch (req : Req) (s : State) : Host.Outcome State Fault Refusal :=
  run s fun h => h.write req pSys 0x040 fun g => g.writeCommit req 0xA5C30004

/-- ABORT. -/
def execAbort (req : Req) (s : State) : Host.Outcome State Fault Refusal :=
  run s fun h => h.write req pSys 0x040 fun g => g.writeCommit req 0xA5C3000F

/-- COMMIT_REFUSED_LATE: the COMMIT_AT instant arrives while the hub is still validating (R53). -/
def execCommitRefusedLate (s : State) : Host.Outcome State Fault Refusal :=
  run s fun h =>
    if h.get pSys SYS.COMMIT_STATE_STATE = 1 ∧ h.sys.commitCmd = 3 then h.refuseAttempt 0x0A02 else h

end Sys2Proof.Machine
end

