-- ==== Sys2Proof/Machine/Bridge.lean ====
section
/-!
DEFINITION. The bridge's responses, timeouts and interrupt messages (R265 to R274).
Where the manual is open: DEDUCED, log entry 23.
-/
namespace Sys2Proof.Machine

open Reg

/-! ### Responses (R265 to R267) -/

/-- The open read that a response matches: its slot and the read (R267). -/
def Hub.matchedRead (h : Hub) (f : Frame) : Option (Nat × OpenRead) :=
  let x := f.hdr
  if 0x8000 ≤ x.tag then none
  else
    let i := x.tag % 256
    match (h.slot i).read with
    | some r => if (h.slot i).gen = x.tag / 256 ∧ r.dst = x.src ∧ r.ten = x.ten then some (i, r) else none
    | none => none

/-- An unmatched response: discarded, counted and recorded (R267). -/
def Hub.unmatched (h : Hub) (f : Frame) : Hub :=
  let x := f.hdr
  let h := ((h.put pBrg BRG.UNM_WRITE (f.field 1 1 % 2)).put pBrg BRG.UNM_TEN x.ten).put pBrg BRG.UNM_SRC x.src
  let h := (h.put pBrg BRG.UNM_STATUS (f.field 0 1)).put pBrg (latched BRG.UNM_TAG_TAG) x.tag
  ((h.inc pBrg BRG.UNMATCHED_COUNT).irq pBrg 1).raise pBrg 4

/-- READ_RESPONSE: a delivered response completes its open read, or is logged as unmatched; a fenced bridge discards it (R261, R262, R267, R280). -/
def execReadResponse (frame : Frame) (s : State) : Host.Outcome State Fault Refusal :=
  run s fun h =>
    if frame.hdr.type ≠ 0x0A ∨ h.fenced pBrg then h
    else
      match h.matchedRead frame with
      | none => h.unmatched frame
      | some (i, r) =>
        let ok := frame.field 2 2 + 8 == frame.hdr.len
        let st := if ok then frame.field 0 1 else 0x0B
        let bytes := if st = 0 then frame.payload.drop 8 else []
        (h.freeRead i false).complete r.origin false r.bulk r.dst (if st = 0 then r.addr else r.addr / 2 ^ 32 * 2 ^ 32 + frame.field 4 4) st bytes

/-- RD_TO: an open read has had no matched response for CFG.RD_TO; its slot rests (R265, R266). -/
def execRdTo (slot : Nat) (s : State) : Host.Outcome State Fault Refusal :=
  run s fun h =>
    match (h.slot slot).read with
    | none => h
    | some r =>
      (((h.inc pBrg BRG.TIMEOUT_COUNT).freeRead slot true).complete r.origin false r.bulk r.dst r.addr 0x0D []).raise pBrg 3

/-- TAG_SLOT_RELEASE: 50 ms after a timeout freed it, a slot may be assigned again (R265). -/
def execTagSlotRelease (slot : Nat) (s : State) : Host.Outcome State Fault Refusal :=
  run s fun h => (h.setSlot slot { h.slot slot with resting := false }).pump

/-! ### Interrupt messages sent (R271, R272) -/

/-- Whether an IRQ_OUT entry is enabled. -/
def Hub.irqOutOn (h : Hub) (i : Nat) : Bool := h.cfgOn pBrg (BRG.IRQ_OUT_DEST_EN i)

/-- The message of an IRQ_OUT entry handed to the bridge (R271). -/
def Hub.sendInterrupt (h : Hub) (i : Nat) : Hub :=
  let sw := h.cfgOn pBrg (BRG.IRQ_OUT_SRC_SW i)
  let page := if sw then 0 else h.cfg pBrg (BRG.IRQ_OUT_SRC_PAGE i)
  let bits := if sw then 0 else h.irqPend page
  let payload := leBytes 2 (h.cfg pBrg (BRG.IRQ_OUT_DEST_VECTOR i)) ++ leBytes 2 page ++ leBytes 4 bits ++ leBytes 8 h.now
  h.submit { frame := { cls := if h.cfgOn pBrg (BRG.IRQ_OUT_DEST_CLS i) then .bulk else .express, payload := payload,
                        hdr := { type := 0x0C, ten := h.cfg pBrg (BRG.IRQ_OUT_DEST_TEN i), dst := h.cfg pBrg (BRG.IRQ_OUT_DEST_DST i),
                                 len := payload.length } } }

/-- The spacing of an entry set. -/
def Hub.setIrqOut (h : Hub) (i : Nat) (x : IrqOut) : Hub := h.setBrg (fun b => { b with irqOut := Map.put b.irqOut i {} x })

/-- An event of an IRQ_OUT entry: its message is sent, or merged into the next where less than 10 µs have passed (R272). -/
def Hub.interruptEvent (h : Hub) (i : Nat) : Hub :=
  if !h.irqOutOn i || h.fenced pBrg then h
  else if (Map.getD h.brg.irqOut i {}).spacing then h.setIrqOut i { spacing := true, merged := true }
  else (h.setIrqOut i { spacing := true }).sendInterrupt i

/-- INTERRUPT_MESSAGE_SEND: the PG_IRQ_PEND bit of an entry with SW = 0 has gone from 0 to 1 (R272). -/
def execInterruptMessageSend (entry : Nat) (s : State) : Host.Outcome State Fault Refusal :=
  run s fun h =>
    if entry < 32 ∧ h.cfgOn pBrg (BRG.IRQ_OUT_SRC_SW entry) = false ∧
        bitOf (h.irqPend (h.cfg pBrg (BRG.IRQ_OUT_SRC_PAGE entry))) (h.cfg pBrg (BRG.IRQ_OUT_SRC_BIT entry)) = true then
      h.interruptEvent entry
    else h

/-- MERGED_INTERRUPT_MESSAGE: 10 µs after an entry's last message, the events merged since are sent in one (R272). -/
def execMergedInterruptMessage (entry : Nat) (s : State) : Host.Outcome State Fault Refusal :=
  run s fun h =>
    if entry ≥ 32 then h
    else if (Map.getD h.brg.irqOut entry {}).merged ∧ h.irqOutOn entry ∧ h.fenced pBrg = false then
      (h.setIrqOut entry { spacing := true }).sendInterrupt entry
    else h.setIrqOut entry {}

/-- A write of an entry's number to IRQ_SEND (R272). -/
def Hub.writeIrqSend (h : Hub) (v : Nat) : Hub :=
  if h.cfgOn pBrg (BRG.IRQ_OUT_SRC_SW (v % 32)) then h.interruptEvent (v % 32) else h

/-- IRQ_SEND. -/
def execIrqSend (req : Req) (value : Nat) (s : State) : Host.Outcome State Fault Refusal :=
  run s fun h => h.writeDo req pBrg 0x064 fun g => g.writeIrqSend value

/-! ### Interrupt messages received (R273, R274) -/

/-- A message taken to its sink, or discarded where its vector does not accept it (R274). -/
def Hub.sinkInterrupt (h : Hub) (f : Frame) : Hub :=
  let v := f.field 0 2 % 64
  let i := h.cfg pBrg (BRG.IRQ_IN_INDEX v)
  if !h.cfgOn pBrg (BRG.IRQ_IN_EN v) || !bitOf (h.cfg pBrg (BRG.IRQ_IN_TEN_MASK v)) f.hdr.ten then h.inc pBrg BRG.IRQ_DROP_COUNT
  else
    let h := h.inc pBrg BRG.IRQ_RX_COUNT
    match h.cfg pBrg (BRG.IRQ_IN_SINK v) with
    | 0 => h.signal i
    | 1 => h.ring (h.cfg pMbx MBX.DBCFG_IRQ_SIDE) (2 ^ (i % 32))
    | _ => h.coreInput i

/-- Whether the window of a message's arrival path shows that every earlier Express frame of its origin came before it (R273). -/
def Hub.pathWhole (h : Hub) (port src : Nat) : Bool :=
  match Map.find h.topo.windows (windowKey src .express port) with
  | some w => w.gaps == [] && !w.dropped
  | none => true

/-- Whether the other path has caught up with a message, is empty, or its port is not UP (R273). -/
def Hub.otherCaughtUp (h : Hub) (port : Nat) (x : Header) : Bool :=
  match Map.find h.topo.windows (windowKey x.src .express (other port)) with
  | none => true
  | some w => decide ((w.high + 65536 - x.seq) % 65536 < 0x8000) || h.link (other port) != 4

/-- INTERRUPT_MESSAGE: a delivered message goes to its sink at once, or counts as held until the other path has caught up, which it may have
done already (R273). -/
def execInterruptMessage (port : Nat) (frame : Frame) (s : State) : Host.Outcome State Fault Refusal :=
  run s fun h =>
    if frame.hdr.type ≠ 0x0C ∨ h.fenced pBrg then h
    else if frame.cls = .bulk ∨ h.pathWhole port frame.hdr.src then h.sinkInterrupt frame
    else
      let h := h.inc pBrg BRG.IRQ_HELD_COUNT
      if h.otherCaughtUp port frame.hdr then h.sinkInterrupt frame else h.setBrg (fun b => { b with held := b.held ++ [(port, frame)] })

/-- The oldest held message of an origin and a sequence number. -/
def Hub.heldMessage (h : Hub) (src seq : Nat) : Option (Nat × Frame) :=
  h.brg.held.find? (fun e => e.2.hdr.src == src && e.2.hdr.seq == seq)

/-- A held message is held no longer. -/
def Hub.unhold (h : Hub) (e : Nat × Frame) : Hub := h.setBrg (fun b => { b with held := dropFirst e b.held })

/-- IRQ_HELD_RELEASE: the other path has caught up with a held message, is empty, or its port is not UP (R273). -/
def execIrqHeldRelease (src seq : Nat) (s : State) : Host.Outcome State Fault Refusal :=
  run s fun h =>
    match h.heldMessage src seq with
    | none => h
    | some e => if h.otherCaughtUp e.1 e.2.hdr then (h.unhold e).sinkInterrupt e.2 else h

/-- IRQ_HOLD: a message has been held for CFG.IRQ_HOLD (R273). -/
def execIrqHold (src seq : Nat) (s : State) : Host.Outcome State Fault Refusal :=
  run s fun h =>
    match h.heldMessage src seq with
    | none => h
    | some e => (((h.unhold e).inc pBrg BRG.IRQ_LATE_COUNT).irq pBrg 2).sinkInterrupt e.2

end Sys2Proof.Machine
end

