-- ==== Sys2Proof/Machine/Requests.lean ====
section
/-!
DEFINITION. Mode requests and the transitions that no request makes (R72 to R94, R100, R586).
Where the manual is open: DEDUCED, log entry 9.
-/
namespace Sys2Proof.Machine

open Reg

/-! ### MODE_REQ (R93, R94) -/

/-- The modes in which a request is accepted (R92, R93). -/
def requestMode (cmd : Nat) (m : Mode) : Bool :=
  match cmd with
  | 1 => m == .held || m == .armed
  | 2 => m == .transparent || m == .held || m == .armed || m == .running || m == .degraded
  | 3 => m == .maintenance
  | 4 => m.fromTransparent
  | 5 => m.fromTransparent && m != .safeStop
  | 6 => m == .transparent || m == .held
  | 7 => m.fromCellar
  | _ => false

/-- Whether a requester may send a request: the owner of SYS and the secure world; the local host SAFESTOP and RESTART (R93). -/
def Hub.requestAllowed (h : Hub) (req : Req) (cmd : Nat) : Bool :=
  h.sysOwner req || (req == .host && (cmd == 5 || cmd == 7))

/-- The outcome of a request (MODE_REQ_STAT.RESULT, R94): 0 accepted, 1 wrong key or command, 2 not in this mode, 3 requester,
4 lifecycle, 5 commit in progress. -/
def Hub.requestResult (h : Hub) (req : Req) (key cmd : Nat) : Nat :=
  if key ≠ 0x6D0E ∨ cmd = 0 ∨ 7 < cmd then 1
  else if !requestMode cmd h.mode then 2
  else if !h.requestAllowed req cmd then 3
  else if cmd = 6 ∧ ¬ (h.lifecycle = 1 ∨ h.lifecycle = 4) then 4
  else if h.commitBusy ∧ ¬ (cmd = 5 ∨ cmd = 7) then 5
  else 0

/-- REVERT: every staged and committed value takes its reset value, except SEAL_CODE (R79). -/
def Hub.revert (h : Hub) : Hub :=
  let old := h.committed
  let h := (({ h.discardWork with staged := [], committed := [] }).unitMac).markSealed false
  ((h.put pSys SYS.SEAL_STATE_STATE 0).commitHook old).enterMode .transparent 0x24

/-- Entry to Maintenance: RETURN takes the mode the hub came from (R90). -/
def Hub.maintEnter (h : Hub) : Hub := h.enterMode .maintenance 0x50

/-- The return from Maintenance (R90). -/
def Hub.maintExit (h : Hub) : Hub := h.abortUnitTest.enterMode (Mode.ofCode (h.get pSys SYS.MODE_RETURN)) 0x51

/-- The last two steps of R100: the mode becomes Shelf and PWR_EN goes low. -/
def Hub.enterShelf (h : Hub) (reason : Nat) (byRequest : Bool) : Hub :=
  let h := h.cancelCommit.changeMode .shelf reason
  ({ h with sys := { h.sys with pwrEn := false, shelfByRequest := byRequest, wakeSeen := 0, slots := [] } }).emit (.pwrEn false)

/-- SHELF by request: the leave is announced before the ring forwarding ends (R100, R163). -/
def Hub.shelfByRequest (h : Hub) : Hub := h.announceLeave.enterShelf 0x70 true

/-- The effect of an accepted request (R93); one whose change of mode another condition of the edge comes before has none (R69). -/
def Hub.performRequest (h : Hub) (cmd : Nat) : Hub :=
  match cmd with
  | 1 => if h.outranked then h else h.revert
  | 2 => h.maintEnter
  | 3 => if h.outranked then h else h.maintExit
  | 4 => if h.outranked then h else h.shelfByRequest
  | 5 => h.safeStop 0x62 pSys 0
  | 6 => if h.outranked then h else (h.changeMode .test 0x13).startSelfTest
  | 7 => h.systemReset 0x03 3
  | _ => h

/-- A write of SYS.MODE_REQ (R93, R94). A requester that R41 keeps out of SYS gets an error response, except the local host's SAFESTOP and RESTART. -/
def Hub.writeModeReq (h : Hub) (req : Req) (v : Nat) : Hub × Bool :=
  let key := slice v 16 16
  let cmd := v % 16
  let res := h.requestResult req key cmd
  let g := (h.put pSys SYS.MODE_REQ_STAT_RESULT res).put pSys SYS.MODE_REQ_STAT_LAST_CMD cmd
  let open_ := h.mayWrite req pSys || (req == .host && key == 0x6D0E && (cmd == 5 || cmd == 7))
  if !open_ then (g.ownErr req pSys 0x084, false)
  else if res = 0 then (g.performRequest cmd, true)
  else (g, true)

/-- Whether a write of SYS.MODE_REQ does not reach the register: no host can make it, an Annex does not run, or SYS is under test (R463, R538, R588). -/
def Hub.modeReqShut (h : Hub) (req : Req) : Bool := h.hostTurned req pSys || (h.annexTurned req pSys 0x084 true).isSome || h.underTest pSys

/-- A write of SYS.MODE_REQ by a requester, with its completion. -/
def Hub.modeRequest (h : Hub) (req : Req) (v : Nat) : Hub :=
  if h.modeReqShut req then ((h.annexTurned req pSys 0x084 true).getD h).hear req (pageAddr pSys 0x084) stBusy
  else (h.writeModeReq req v).1.hear req (pageAddr pSys 0x084) (if (h.writeModeReq req v).2 then 0 else stOwner)

/-- REVERT. -/
def execRevert (req : Req) (s : State) : Host.Outcome State Fault Refusal := run s fun h => h.modeRequest req 0x6D0E0001

/-- MAINT_ENTER. -/
def execMaintEnter (req : Req) (s : State) : Host.Outcome State Fault Refusal := run s fun h => h.modeRequest req 0x6D0E0002

/-- MAINT_EXIT. -/
def execMaintExit (req : Req) (s : State) : Host.Outcome State Fault Refusal := run s fun h => h.modeRequest req 0x6D0E0003

/-- SHELF. -/
def execShelf (req : Req) (s : State) : Host.Outcome State Fault Refusal := run s fun h => h.modeRequest req 0x6D0E0004

/-- SAFESTOP. -/
def execSafestop (req : Req) (s : State) : Host.Outcome State Fault Refusal := run s fun h => h.modeRequest req 0x6D0E0005

/-- TEST. -/
def execTest (req : Req) (s : State) : Host.Outcome State Fault Refusal := run s fun h => h.modeRequest req 0x6D0E0006

/-- RESTART. -/
def execRestart (req : Req) (s : State) : Host.Outcome State Fault Refusal := run s fun h => h.modeRequest req 0x6D0E0007

/-! ### Armed (R80 to R84) -/

/-- The arm conditions that SYS.ARM_WAIT shows unmet (R81). -/
def Hub.armUnmet (h : Hub) : Nat :=
  let time := h.cfgOn pSys SYS.MODE_CFG_NEED_TIME && !h.mainValid
  let track := h.cfgOn pSys SYS.MODE_CFG_NEED_TRACK && h.tracksUnlocked != 0
  let epoch := h.cfgOn pSys SYS.MODE_CFG_NEED_EPOCH && !h.sys.epochMet
  flag time + 2 * flag track + 4 * flag epoch

/-- Whether this edge is one at which the hub may leave Armed: with NEED_EPOCH, that of a sampling instant S(m) with epoch m − 1 closed and
sampled at or after the commit instant (R81, R82). -/
def Hub.armInstant (h : Hub) : Bool :=
  !h.cfgOn pSys SYS.MODE_CFG_NEED_EPOCH ||
    (h.samplesNow && h.atr.last == some (h.atr.desc.number + 1) && decide (0 ≤ tickDiff h.atr.desc.sampled h.sys.lastT))

/-- ARMED_TO_RUNNING: every enabled arm condition holds at an edge that R82 allows; Running, or Degraded where a unit is fenced. In
Maintenance with RETURN Armed, RETURN takes that mode, and the hub does what it does (R90). -/
def execArmedToRunning (s : State) : Host.Outcome State Fault Refusal :=
  run s fun h =>
    if h.armUnmet ≠ 0 ∨ h.armInstant = false then h
    else
      let m : Mode := if h.anyFence then .degraded else .running
      if h.mode = .armed then h.enterMode m (if h.anyFence then 0x31 else 0x30)
      else if h.mode = .maintenance ∧ h.get pSys SYS.MODE_RETURN = Mode.armed.code then ((h.put pSys SYS.MODE_RETURN m.code).modeHook).redrive
      else h

/-- ARMED_WAIT_10S: SYS.MODE has shown Armed for 10 s without change (R84). -/
def execArmedWait10s (s : State) : Host.Outcome State Fault Refusal :=
  run s fun h => if h.mode = .armed then h.irq pSys 1 else h

/-! ### Islanded (R87 to R91) -/

/-- RING_LOST (R87, R91). -/
def execRingLost (s : State) : Host.Outcome State Fault Refusal :=
  run s fun h =>
    let back := Mode.ofCode (h.get pSys SYS.MODE_RETURN)
    if h.ringLost ∧ (h.mode = .running ∨ h.mode = .degraded ∨
        (h.mode = .maintenance ∧ (back = .running ∨ back = .degraded))) then
      let h := { h with sys := { h.sys with rejoined := false } }
      h.enterMode .islanded 0x40
    else h

/-- RING_REJOINED: at a sampling instant, an epoch sampled after the rejoin having closed (R89). -/
def execRingRejoined (s : State) : Host.Outcome State Fault Refusal :=
  run s fun h =>
    if h.mode = .islanded ∧ h.ringJoined ∧ h.mainValid ∧ h.sys.rejoined ∧ h.samplesNow then
      h.enterMode (if h.anyFence then .degraded else .running) 0x41
    else h

end Sys2Proof.Machine
end

