-- ==== Sys2Proof/Machine/Supplies.lean ====
section
/-!
DEFINITION. Supplies, start-up, clocks, resets and gates (R95 to R113).
Where the manual is open: DEDUCED, log entries 10, 11 and 17.
-/
namespace Sys2Proof.Machine

open Reg

/-! ### Supplies (R95 to R99) -/

/-- The monitor of a domain shows it present or not. -/
def Hub.setPresent (h : Hub) (d : Supply) (b : Bool) : Hub :=
  match d with
  | .bank k => h.put pSys SYS.SUPPLY_STAT_BANK (putBit (h.get pSys SYS.SUPPLY_STAT_BANK) (k % 16) b)
  | d => h.put pSys SYS.SUPPLY_STAT_DOM (putBit (h.get pSys SYS.SUPPLY_STAT_DOM) d.bit b)

/-- SYS.SUPPLY_LOST records a lost domain. -/
def Hub.recordLost (h : Hub) (d : Supply) : Hub :=
  match d with
  | .vka => h
  | .bank k => h.put pSys SYS.SUPPLY_LOST_BANK (withBit (h.get pSys SYS.SUPPLY_LOST_BANK) (k % 16))
  | d => h.put pSys SYS.SUPPLY_LOST_DOM (withBit (h.get pSys SYS.SUPPLY_LOST_DOM) d.bit)

/-- The core supplies: VDD_CORE, VDD_SRAM, VDD_SDH and VDD_IO (R96). -/
def isCore (d : Supply) : Bool := d == .core || d == .sram || d == .sdh || d == .io

/-- The start-up sequence at a step of R103. -/
def Hub.startupAt (h : Hub) (n : Nat) : Hub := { h with sys := { h.sys with startup := n } }

/-- A power-on reset: everything except the fuses, into Waking with reason 0x01 (R65, R107). -/
def Hub.powerOn (h : Hub) : Hub := (h.powerOnHub).recordMode .waking 0x01

/-- The present level of the IO_SEL strap, which the keep-alive domain reads (R108). -/
def Hub.strapIo (h : Hub) (b : Bool) : Hub := h.put pSys SYS.STRAPS_IO_SEL (flag b)

/-- POWER_ON: VKA has become present, and the keep-alive domain reads IO_SEL (R107, R108). -/
def execPowerOn (ioSel : Bool) (s : State) : Host.Outcome State Fault Refusal := runAlways s fun h => h.powerOn.strapIo ioSel

/-- What a domain that has become present lets the hub do (R103, R327). -/
def Hub.supplyCame (h : Hub) (d : Supply) (mv : Nat) : Hub :=
  match d with
  | .bank k => h.bankPresent (k % 16) mv
  | .fp => h.fieldPowerPresent
  | .sd => h.serdesPlls
  | _ => if h.mode = .waking ∧ h.sys.startup = 1 ∧ h.corePresent then h.startupAt 2 else h

/-- SUPPLY_PRESENT: a domain has stayed above its Good threshold for 50 µs; `millivolts` is a bank's measured voltage (R95, R327). -/
def execSupplyPresent (domain : Supply) (millivolts : Nat) (s : State) : Host.Outcome State Fault Refusal :=
  runAlways s fun h => if h.present domain then h else (h.setPresent domain true).supplyCame domain millivolts

/-- The reaction to a lost domain (R99). -/
def Hub.supplyWent (h : Hub) (d : Supply) : Hub :=
  match d with
  | .vka => (h.powerOn).setPresent .vka false
  | .sd => h.serdesLost
  | .mem => h.memoryLost
  | .fp => h.fieldPowerLost
  | .bank k => h.bankLost (k % 16)
  | _ =>
    if h.mode = .shelf then h
    else if h.mode = .waking then (h.enterShelf 0x71 false).startupAt 1
    else h.enterShelf 0x71 false

/-- SUPPLY_LOST: a domain has stayed below its Lost threshold for 2 µs (R95, R99). -/
def execSupplyLost (domain : Supply) (s : State) : Host.Outcome State Fault Refusal :=
  runAlways s fun h => if h.present domain then ((h.setPresent domain false).recordLost domain).supplyWent domain else h

/-! ### Shelf and wake (R100 to R103) -/

/-- The wake pattern, its last slot first: 0xB2CD after four 0 slots (R458). -/
def wakePattern : List Bool := (List.range 20).map (fun i => bitOf 0xB2CD i)

/-- What the wake detector has read after an event, while it is kept powered (R458). -/
def Hub.noteSlot (h : Hub) (e : Wake) : Hub :=
  match e with
  | .slot r =>
    let l := if h.on pSys SYS.KA_CFG_ETH_WATCH then (r.map (fun b => (b :: h.sys.slots).take 20)).getD [] else []
    { h with sys := { h.sys with slots := l } }
  | _ => h

/-- Whether a wake event qualifies in the present Shelf (R102). -/
def Hub.wakeQualifies (h : Hub) (e : Wake) : Bool :=
  match e with
  | .east => h.sys.shelfByRequest
  | .west => h.sys.shelfByRequest
  | .slot _ => h.on pSys SYS.KA_CFG_ETH_WATCH && h.sys.slots == wakePattern
  | .pin => true
  | .supply => !h.sys.shelfByRequest && h.corePresent

/-- Whether a wake event is enabled (R102). -/
def Hub.wakeEnabled (h : Hub) (e : Wake) : Bool :=
  match e with
  | .east => h.on pSys SYS.KA_CFG_WAKE_EAST
  | .west => h.on pSys SYS.KA_CFG_WAKE_WEST
  | .slot _ => h.on pSys SYS.KA_CFG_ETH_WATCH
  | .pin => h.on pSys SYS.KA_CFG_WAKE_PIN
  | .supply => true

/-- SYS.WAKE_CAUSE takes the events that had qualified, as bits. -/
def Hub.putWakeCause (h : Hub) (bits : Nat) : Hub :=
  (((((h.put pSys SYS.WAKE_CAUSE_POR (bits % 2)).put pSys SYS.WAKE_CAUSE_EAST (bits / 2 % 2)).put
    pSys SYS.WAKE_CAUSE_WEST (bits / 4 % 2)).put pSys SYS.WAKE_CAUSE_ETH (bits / 8 % 2)).put
    pSys SYS.WAKE_CAUSE_PIN (bits / 16 % 2)).put pSys SYS.WAKE_CAUSE_SUPPLY (bits / 32 % 2)

/-- The hub leaves Shelf: the Shelf-exit reset, reason 0x02, PWR_EN high, and the start-up sequence from its first unmet step (R102, R103, R107). -/
def Hub.leaveShelf (h : Hub) (bits : Nat) : Hub :=
  let g := (h.systemReset 0x02 1).putWakeCause bits
  let g : Hub := { g with
    prsMem := [], sys := { g.sys with pwrEn := true, startup := if h.corePresent then 2 else 1 }
    live := g.live.filter (fun e => !(e.1.page == pBist && keptBist e.1) && !(e.1.page == pSys && e.1.off == 0x0C8)) }
  g.serdesPlls.emit (.pwrEn true)

/-- What a wake event does in Shelf (R102). -/
def Hub.wake (h : Hub) (e : Wake) : Hub :=
  if h.wakeQualifies e then
    let bits := withBit h.sys.wakeSeen e.bit
    if h.wakeEnabled e then h.leaveShelf bits else { h with sys := { h.sys with wakeSeen := bits } }
  else h

/-- WAKE_EVENT: in Shelf, a wake event, or a slot of the Ethernet wake detector, which completes the pattern or does not (R102, R458). -/
def execWakeEvent (event : Wake) (s : State) : Host.Outcome State Fault Refusal :=
  runAlways s fun h => if h.mode = .shelf then (h.noteSlot event).wake event else h

/-- The fatal source REF25_LOST of SYS (R106). -/
def Hub.raiseRef25 (h : Hub) : Hub := h.raise pSys 0

/-- Step 3 of R103 begins, and its limit with it. -/
def Hub.atStepThree (h : Hub) : Hub := { h with sys := { h.sys with startup := 3, refLate := false } }

/-- Step 3 of R103 ends where its condition is met: a valid 25 MHz reference, or a valid 156.25 MHz reference once 20 ms have passed (R103, R106).
RST_N low holds the hub there (R107). -/
def Hub.proceed (h : Hub) : Hub :=
  if h.mode ≠ .waking ∨ h.sys.startup ≠ 3 ∨ h.corePresent = false ∨ h.sys.rstLow then h
  else if h.on pSys SYS.CLK_STAT_REF25 then (h.put pSys SYS.CLK_STAT_REF_SRC 0).startupAt 4
  else if h.sys.refLate ∧ h.on pSys SYS.CLK_STAT_REF156 then ((h.put pSys SYS.CLK_STAT_REF_SRC 1).startupAt 4).raiseRef25
  else h

/-- POWER_ON_HOLD_END: step 2 of R103 ends. -/
def execPowerOnHoldEnd (s : State) : Host.Outcome State Fault Refusal :=
  runPowered s fun h => if h.mode = .waking ∧ h.sys.startup = 2 ∧ h.corePresent then h.atStepThree.proceed else h

/-! ### Clocks (R104 to R106) -/

/-- REFERENCE_VALID: 4,096 consecutive good edges; at step 3 of R103 it may let the hub proceed. -/
def execReferenceValid (is25 : Bool) (s : State) : Host.Outcome State Fault Refusal :=
  runPowered s fun h =>
    if is25 then (h.put pSys SYS.CLK_STAT_REF25 1).proceed else ((h.put pSys SYS.CLK_STAT_REF156 1).serdesPlls).proceed

/-- REFERENCE_WAIT_LIMIT: 20 ms in step 3 without a valid 25 MHz reference; the hub proceeds on the 156.25 MHz reference, as soon as that is valid
(R103, R106). -/
def execReferenceWaitLimit (s : State) : Host.Outcome State Fault Refusal :=
  runPowered s fun h =>
    if h.mode = .waking ∧ h.sys.startup = 3 then ({ h with sys := { h.sys with refLate := true } }).proceed else h

/-- CORE_PLL_LOCK: the core PLLs lock, the straps are sampled, core reset is released and the boot ROM starts (R103, R108). -/
def execCorePllLock (cellarN bootsel ioSel : Bool) (hostsel : Nat) (s : State) : Host.Outcome State Fault Refusal :=
  runPowered s fun h =>
    if h.mode = .waking ∧ h.sys.startup = 4 ∧ h.corePresent then
      let h := ((h.put pSys SYS.CLK_STAT_PLL625 1).put pSys SYS.CLK_STAT_PLL500 1).put pSys SYS.CLK_STAT_PLL250 1
      let h := ((h.put pSys SYS.STRAPS_CELLAR_N (flag cellarN)).put pSys SYS.STRAPS_BOOTSEL (flag bootsel)).put
        pSys SYS.STRAPS_HOSTSEL hostsel
      (((h.strapIo ioSel).strapsHook).startupAt 0).startRom
    else h

/-- REF25_LOST: the 25 MHz reference is lost with 156.25 MHz valid (R105, R106). -/
def execRef25Lost (s : State) : Host.Outcome State Fault Refusal :=
  runPowered s fun h =>
    if h.on pSys SYS.CLK_STAT_REF25 ∧ h.on pSys SYS.CLK_STAT_REF156 then
      ((h.put pSys SYS.CLK_STAT_REF25 0).timeRef25Lost).raiseRef25
    else h

/-- CORE_PLL_SWITCHOVER: the core PLLs run from the 156.25 MHz reference (R106). -/
def execCorePllSwitchover (s : State) : Host.Outcome State Fault Refusal :=
  runPowered s fun h =>
    if h.get pSys SYS.CLK_STAT_REF25 = 0 ∧ h.on pSys SYS.CLK_STAT_REF156 then h.put pSys SYS.CLK_STAT_REF_SRC 1 else h

/-- REF156_LOST: the 156.25 MHz reference is lost with 25 MHz valid; every SerDes link goes down (R106). -/
def execRef156Lost (s : State) : Host.Outcome State Fault Refusal :=
  runPowered s fun h =>
    if h.on pSys SYS.CLK_STAT_REF156 ∧ h.on pSys SYS.CLK_STAT_REF25 then
      (h.put pSys SYS.CLK_STAT_REF156 0).serdesLost
    else h

/-- CLOCK_LOSS: both references are lost; a system reset returns the hub to step 3 of R103 (R106, R107). -/
def execClockLoss (s : State) : Host.Outcome State Fault Refusal :=
  runPowered s fun h => ((h.put pSys SYS.CLK_STAT_REF25 0).put pSys SYS.CLK_STAT_REF156 0).systemReset 0x03 4

/-- PLL_UNLOCK: core PLL `pll` (0 625, 1 500, 2 250 MHz) is out of lock for 1 µs with its reference valid (R106). -/
def execPllUnlock (pll : Nat) (s : State) : Host.Outcome State Fault Refusal :=
  run s fun h =>
    if h.on pSys (if h.on pSys SYS.CLK_STAT_REF_SRC then SYS.CLK_STAT_REF156 else SYS.CLK_STAT_REF25) = false then h
    else
      let h := match pll % 3 with
        | 0 => h.put pSys SYS.CLK_STAT_PLL625 0
        | 1 => h.put pSys SYS.CLK_STAT_PLL500 0
        | _ => h.put pSys SYS.CLK_STAT_PLL250 0
      h.raise pSys 1

/-! ### Resets (R107) -/

/-- RST_N: low for at least 1 µs; a system reset, held in step 3 while it stays low. In Shelf no reset but a wake event leads out (R65). -/
def execRstN (s : State) : Host.Outcome State Fault Refusal :=
  runAlways s fun h =>
    let h := { h with sys := { h.sys with rstLow := true } }
    if h.mode = .shelf then h else h.systemReset 0x03 2

/-- RST_N_RELEASE: RST_N rises; start-up proceeds from step 3 where its condition is met. -/
def execRstNRelease (s : State) : Host.Outcome State Fault Refusal :=
  runAlways s fun h =>
    ({ h with sys := { h.sys with rstLow := false } }).proceed

/-! ### Gates (R109 to R113) -/

/-- The pages of a gate group (R109); group 11, the Steward coprocessor, has none. -/
def groupPages (g : Nat) : List Nat := usedPages.filter (fun p => gateGroup p == some g)

/-- The gate state requested for a group: 0b11 is treated as 0b00. -/
def Hub.gateWanted (h : Hub) (g : Nat) : Nat :=
  let v := slice (h.get pSys SYS.GATE_REQ_REQ) (2 * g) 2
  if v = 3 then 0 else v

/-- Whether a group is held (R110). -/
def Hub.gateHeld (h : Hub) (g : Nat) : Bool := bitOf (h.get pSys SYS.GATE_HOLD_HOLD) g

/-- Whether a group's own units allow it to be gated: every page disabled or fenced, the coprocessor idle (R110). -/
def Hub.gateUnitsIdle (h : Hub) (g : Nat) : Bool :=
  (groupPages g).all (fun p => !h.cfgOn p PG.CTRL_EN || h.fenced p) && (g != 11 || h.coprocessorIdle)

/-- The gate state in effect of a group set. -/
def Hub.setGateState (h : Hub) (g v : Nat) : Hub :=
  let old := h.get pSys SYS.GATE_STAT_STATE
  h.put pSys SYS.GATE_STAT_STATE (old - slice old (2 * g) 2 * 4 ^ g + v * 4 ^ g)

/-- A gated group whose request is withdrawn begins to be ungated (R110, R111). -/
def Hub.beginUngate (h : Hub) (g : Nat) : Hub :=
  if h.gateState g ≠ 0 ∧ h.gateWanted g = 0 ∧ !h.sys.ungating.contains g then
    { h with sys := { h.sys with ungating := h.sys.ungating ++ [g] } }
  else h

/-- GATE_REQ written; the groups asked to be on begin to be ungated, whatever HOLD is (R110). -/
def Hub.writeGateReq (h : Hub) (v : Nat) : Hub :=
  (List.range 12).foldl (fun g i => g.beginUngate i) (h.put pSys SYS.GATE_REQ_REQ v)

/-- GATE_REQ: the owner of SYS, the secure world and the Annex may write it, whoever owns SYS (R110). -/
def execGateReq (req : Req) (value : Nat) (s : State) : Host.Outcome State Fault Refusal :=
  run s fun h => h.writeDo req pSys 0x0DC fun g => g.writeGateReq value

/-- GATE_HOLD written: only the secure world changes it (R110). -/
def Hub.writeGateHold (h : Hub) (req : Req) (v : Nat) : Hub := if req = .secure then h.put pSys SYS.GATE_HOLD_HOLD v else h

/-- GATE_HOLD. -/
def execGateHold (req : Req) (value : Nat) (s : State) : Host.Outcome State Fault Refusal :=
  run s fun h => h.writeDo req pSys 0x0E0 fun g => g.writeGateHold req value

/-- The blocks of a group that leaves a power gate behave as after a soft reset, with their register values kept (R111). -/
def Hub.leavePowerGate (h : Hub) (group : Nat) : Hub :=
  if h.gateState group = 2 then (groupPages group).foldl (fun g p => (g.softResetBefore p).softResetHook g p) h else h

/-- GATE_TAKE_EFFECT: a pending request whose conditions hold takes effect (R110, R111). -/
def execGateTakeEffect (group : Nat) (s : State) : Host.Outcome State Fault Refusal :=
  run s fun h =>
    if group < 12 ∧ h.gateWanted group ≠ 0 ∧ h.gateHeld group = false ∧ h.gateUnitsIdle group then
      let want := h.gateWanted group
      let h := if want = 2 then h.powerGateHook group else h.leavePowerGate group
      let h := (groupPages group).foldl (fun g p => g.alignBlock p) (h.setGateState group want)
      { h with sys := { h.sys with ungating := h.sys.ungating.filter (fun g => g != group) } }
    else h

/-- UNGATE_COMPLETE: the group runs again; after a power gate its pages behave as after a soft reset, keeping their register values (R111). -/
def execUngateComplete (group : Nat) (s : State) : Host.Outcome State Fault Refusal :=
  run s fun h =>
    if h.sys.ungating.contains group then
      let h := h.leavePowerGate group
      let h := { h.setGateState group 0 with sys := { h.sys with ungating := h.sys.ungating.filter (fun g => g != group) } }
      (groupPages group).foldl (fun g p => g.alignBlock p) h
    else h

end Sys2Proof.Machine
end

