-- ==== Sys2Proof/Machine/CommitOps.lean ====
section
/-!
DEFINITION. The commit itself: every committed value takes its staged value, and the blocks take them (R51, R55, R56, R65, R90, R112, R185).
Where the manual is open: DEDUCED, log entry 37.
-/
namespace Sys2Proof.Machine

open Reg

/-! ### The commit instant (R51, R55, R56, R65, R90, R112) -/

/-- Whether a page's entries differ between two register files. -/
def pageDiffers (a b : RegFile) (p : Nat) : Bool := a.filter (fun e => e.1.page == p) != b.filter (fun e => e.1.page == p)

/-- The number of the next commit: 0xFFFF_FFFF is followed by 1 (SYS.COMMIT_GEN). -/
def nextGen (g : Nat) : Nat := if g = 0xFFFFFFFF then 1 else g + 1

/-- PG_SEAL.EPOCH of every page whose committed values the commit changed. -/
def Hub.markEpoch (h : Hub) (old : RegFile) (gen : Nat) : Hub :=
  usedPages.foldl (fun g p => if pageDiffers old h.committed p then g.put p PG.SEAL_EPOCH gen else g) h

/-- The gated groups with a page that is now enabled lose their gate request (R112). -/
def Hub.commitGates (h : Hub) : Hub :=
  (List.range 12).foldl (fun g i =>
    if g.gateState i ≠ 0 ∧ (groupPages i).any (fun p => g.cfgOn p PG.CTRL_EN) then
      let req := g.get pSys SYS.GATE_REQ_REQ
      (g.put pSys SYS.GATE_REQ_REQ (req - slice req (2 * i) 2 * 4 ^ i)).beginUngate i
    else g) h

/-- What an accepted commit does to the mode (R65, R90). -/
def Hub.acceptedMode (h : Hub) (sealed : Bool) : Hub :=
  if h.mode = .transparent ∨ h.mode = .held then
    if sealed then h.enterMode .armed 0x20 else h.enterMode .held 0x21
  else if h.mode = .maintenance ∧ sealed ∧
      (h.get pSys SYS.MODE_RETURN = Mode.transparent.code ∨ h.get pSys SYS.MODE_RETURN = Mode.held.code) then
    (h.put pSys SYS.MODE_RETURN Mode.armed.code).modeHook
  else h

/-- REFUSE_CODE and REFUSE_LOC after a successful commit (R60). -/
def Hub.clearRefusal (h : Hub) : Hub :=
  (((h.put pSys SYS.REFUSE_CODE_CODE 0).put pSys SYS.REFUSE_LOC_COUNT 0).put pSys SYS.REFUSE_LOC_PAGE 0).put pSys SYS.REFUSE_LOC_OFFSET 0

/-- The records of a commit: its number, the seal, its result, and the instant that the epoch condition of R81 compares with. -/
def Hub.recordCommit (h : Hub) (old : RegFile) : Hub :=
  let sealed := h.sys.commitSealed
  let gen := nextGen (h.get pSys SYS.COMMIT_GEN_GEN)
  let h := (((h.put pSys SYS.COMMIT_GEN_GEN gen).markEpoch old gen).markSealed sealed).put pSys SYS.SEAL_STATE_STATE (if sealed then 2 else 1)
  let h := (h.put pSys SYS.COMMIT_STATE_FALLBACK (flag (!h.mainInUse))).clearRefusal.endAttempt (if sealed then 2 else 3)
  { h with prior := old, sys := { h.sys with lastT := h.now, epochMet := false, commit8 := 8 * h.time.c } }

/-- The commit: every committed value takes its staged value, and the blocks take them (R51, R55). -/
def Hub.commit (h : Hub) : Hub :=
  let old := h.committed
  let sealed := h.sys.commitSealed
  ((({ h with committed := h.staged }).recordCommit old).commitGates.commitHook old).acceptedMode sealed

/-- The instant of the commit that is scheduled: COMMIT_TIME, or the next sampling instant after a ring time (R52). COMMIT_TIME is read as it stands, so
a write of it after the command moves T (DESIGN CHOICE, log entry 37). -/
def Hub.scheduledFor (h : Hub) (now : Nat) : Option Nat :=
  if h.get pSys SYS.COMMIT_STATE_STATE ≠ 2 then none
  else if h.sys.commitCmd = 3 then some h.commitTime
  else if h.sys.commitCmd = 4 then some ((now / (500 * h.cfg pAtr ATR.CFG_CYCLE) + 1) * (500 * h.cfg pAtr ATR.CFG_CYCLE))
  else none

/-- A scheduled commit whose instant the ring time has passed since it read `before` is committed at this edge (R185). -/
def Hub.commitPassed (h : Hub) (before : Nat) : Hub :=
  match h.scheduledFor before with
  | some t => if before < t ∧ t ≤ h.now then h.commit else h
  | none => h

end Sys2Proof.Machine
end

