-- ==== Sys2Proof/Machine/HostPort.lean ====
section
/-!
DEFINITION. The host port: its PCI Express function, its vectors and its DMA queue pairs (R463 to R478).
Where the manual is open: DEDUCED, log entry 24; PRESUMED, log entry 43.
-/
namespace Sys2Proof.Machine

open Reg

/-! ### The PCI Express function (R464, R477, R483, R487) -/

/-- PERST_N: a fundamental or hot reset of the host port (R107, R477). -/
def execPerstN (s : State) : Host.Outcome State Fault Refusal := run s fun h => h.perst

/-- PCIE_LINK_UP: the link comes up at a rate (1 2.5, 2 5.0, 3 8.0 GT/s) and a width (1 ×1, 2 ×2). -/
def execPcieLinkUp (rate width : Nat) (s : State) : Host.Outcome State Fault Refusal :=
  run s fun h =>
    if h.hostIf ≠ 1 ∨ h.mode = .waking ∨ h.serdesReady = false ∨ h.gated pHost ∨ rate % 4 = 0 ∨ 3 < rate ∨ width = 0 ∨ 2 < width then h
    else (((h.putIrq pHost HOST.STAT_LINK_UP 1 0).put pHost HOST.STAT_RATE rate).put pHost HOST.STAT_WIDTH width).alignHost

/-- PCIE_LINK_DOWN: the link is lost (R477, R487). -/
def execPcieLinkDown (s : State) : Host.Outcome State Fault Refusal := run s fun h => h.pcieLost

/-- The `i`-th byte of a number, the lowest first. -/
def byteOf (v i : Nat) : Nat := v / 256 ^ i % 256

/-- What the manual gives of a byte of configuration space: the value of its fixed bits, the bits that a write sets, and the bits left open; none where
it gives nothing. The type 0 header and the capabilities have the form of the base specification, and the capabilities for power management, MSI-X and
PCI Express stand at 0x40, 0x50 and 0x70 (R464, R465; PRESUMED and DESIGN CHOICE, log entry 43). -/
def Hub.configByte (h : Hub) (off : Nat) : Option (Nat × Nat × Nat) :=
  let page := 4096 * pHost
  if off < 0x002 then some (byteOf (h.get pHost HOST.PCI_ID_VENDOR) off, 0, 0)
  else if off < 0x004 then some (byteOf (h.get pHost HOST.PCI_ID_DEVICE) (off - 2), 0, 0)
  else if 0x54 ≤ off ∧ off < 0x58 then some (byteOf (page + 0xC00) (off - 0x54), 0, 0)
  else if 0x58 ≤ off ∧ off < 0x5C then some (byteOf (page + 0x060) (off - 0x58), 0, 0)
  else
    match off with
    | 0x006 => some (0x10, 0, 0)
    | 0x00A => some (0x80, 0, 0)
    | 0x00B => some (0x08, 0, 0)
    | 0x00E => some (0x00, 0, 0)
    | 0x010 => some (0x04, 0, 0) | 0x011 => some (0, 0, 0) | 0x012 => some (0, 0, 0) | 0x013 => some (0, 0xFF, 0)
    | 0x014 => some (0, 0xFF, 0) | 0x015 => some (0, 0xFF, 0) | 0x016 => some (0, 0xFF, 0) | 0x017 => some (0, 0xFF, 0)
    | 0x018 => some (0x04, 0, 0) | 0x019 => some (0, 0, 0) | 0x01A => some (0, 0, 0) | 0x01B => some (0, 0xE0, 0)
    | 0x01C => some (0, 0xFF, 0) | 0x01D => some (0, 0xFF, 0) | 0x01E => some (0, 0xFF, 0) | 0x01F => some (0, 0xFF, 0)
    | 0x020 => some (0x04, 0, 0) | 0x021 => some (0, 0, 0) | 0x022 => some (0, 0, 0) | 0x023 => some (0, 0xF0, 0)
    | 0x024 => some (0, 0xFF, 0) | 0x025 => some (0, 0xFF, 0) | 0x026 => some (0, 0xFF, 0) | 0x027 => some (0, 0xFF, 0)
    | 0x034 => some (0x40, 0, 0)
    | 0x03D => some (0, 0, 0)
    | 0x040 => some (0x01, 0, 0) | 0x041 => some (0x50, 0, 0) | 0x042 => some (0x03, 0, 0) | 0x043 => some (0, 0, 0)
    | 0x044 => some (3 * h.get pHost HOST.STAT_D3, 0, 0xFC)
    | 0x050 => some (0x11, 0, 0) | 0x051 => some (0x70, 0, 0) | 0x052 => some (63, 0, 0) | 0x053 => some (0, 0xC0, 0)
    | 0x070 => some (0x10, 0, 0) | 0x071 => some (0, 0, 0) | 0x072 => some (0x02, 0, 0) | 0x073 => some (0, 0, 0)
    | 0x074 => some (0x21, 0, 0xC0)
    | 0x07C => some (0x23, 0, 0) | 0x07D => some (0x08, 0, 0xF0)
    | 0x082 => some (h.get pHost HOST.STAT_RATE + 16 * h.get pHost HOST.STAT_WIDTH, 0, 0)
    | _ => none

/-- The bits of a byte of configuration space that the manual fixes. -/
def Hub.configFixed (h : Hub) (off : Nat) : Option Nat :=
  (h.configByte off).bind (fun x => if x.2.1 = 0 ∧ x.2.2 = 0 then some x.1 else none)

/-- A byte of configuration space read: its fixed bits, those written last, and free ones where the manual gives none; bit 2 of byte 4 is Bus Master
Enable (R464). -/
def Hub.readConfig (h : Hub) (off : Nat) : Nat × Hub :=
  let stored := Map.getD h.host.config off none
  match h.configByte off with
  | some (v, written, open_) =>
    if open_ = 0 then (v + (stored.getD 0 &&& written), h) else (v + (h.fresh.1 &&& open_), h.fresh.2)
  | none =>
    let r : Nat × Hub := match stored with
      | some v => (v, h)
      | none => (h.fresh.1 % 256, h.fresh.2)
    (if off = 4 then putBit r.1 2 (h.on pHost HOST.STAT_BME) else r.1, r.2)

/-- Bus Master Enable set or cleared (R464, R472). -/
def Hub.setBusMaster (h : Hub) (on : Bool) : Hub := (h.put pHost HOST.STAT_BME (flag on)).alignHost

/-- D3hot entered or left for D0 (R464, R477). -/
def Hub.setD3 (h : Hub) (on : Bool) : Hub := (h.put pHost HOST.STAT_D3 (flag on)).alignHost

/-- A byte of configuration space written: a power state other than D0 and D3hot changes nothing (R464). -/
def Hub.writeConfig (h : Hub) (off v : Nat) : Hub :=
  if off = 0x44 then (if v % 4 = 3 then h.setD3 true else if v % 4 = 0 then h.setD3 false else h)
  else if (h.configFixed off).isSome then h
  else
    let h := { h with host := { h.host with config := Map.put h.host.config off none (some (v % 256)) } }
    if off = 4 then h.setBusMaster (bitOf v 2) else h

/-- PCIE_CONFIGURATION_REQUEST: served while the link is up, by a fenced port too (R464, R487). -/
def execPcieConfigurationRequest (change : PcieChange) (s : State) : Host.Outcome State Fault Refusal :=
  run s fun h =>
    if h.hostIf ≠ 1 ∨ h.on pHost HOST.STAT_LINK_UP = false then h
    else
      match change with
      | .read off => (h.readConfig off).2.emit (.config off (h.readConfig off).1)
      | .byte off v => h.writeConfig off v
      | .busMaster on => h.setBusMaster on
      | .d3hot on => h.setD3 on

/-! ### Vectors (R471, R478) -/

/-- A W1C write of VPEND_LO or VPEND_HI. -/
def Hub.writeVpend (h : Hub) (f : Fld) (v : Nat) : Hub := h.put pHost f (h.get pHost f - (h.get pHost f &&& v))

/-- VPEND: pending vectors 0 to 31, or 32 to 63, are cleared. -/
def execVpend (req : Req) (high : Bool) (bits : Nat) (s : State) : Host.Outcome State Fault Refusal :=
  run s fun h =>
    let f := if high then HOST.VPEND_HI_PEND else HOST.VPEND_LO_PEND
    h.writeDo req pHost f.off fun g => g.writeVpend f bits

/-- MSI_X_SEND: the message of a pending vector is sent, its mask being clear and the function able to send (R478). -/
def execMsiXSend (vector : Nat) (s : State) : Host.Outcome State Fault Refusal :=
  run s fun h =>
    if vector < 64 ∧ h.vectorPending vector ∧ h.pcieUp ∧ h.vectorMasked vector = false then
      (h.setPending vector false).emit (.msix vector)
    else h

/-- QSPI_BAD: an undefined command byte is ignored until HQ_CS_N rises, and counted (R469). -/
def execQspiBad (s : State) : Host.Outcome State Fault Refusal :=
  run s fun h => if h.hostIf = 2 then h.inc pHost HOST.QSPI_BAD_COUNT else h

/-! ### Transmit rings (R472 to R475) -/

/-- A write of TX_PROD. -/
def Hub.writeTxProd (h : Hub) (q v : Nat) : Hub := h.put pHost (HOST.QP_TX_PROD_IDX q) v

/-- TX_PROD: the host hands descriptors over (R473). -/
def execTxProd (req : Req) (qp value : Nat) (s : State) : Host.Outcome State Fault Refusal :=
  run s fun h => h.writeDo req pHost (0x11C + 64 * (qp % 8)) fun g => g.writeTxProd (qp % 8) value

/-- The entries of a transmit ring. -/
def Hub.txEntries (h : Hub) (q : Nat) : Nat := 2 ^ h.get pHost (HOST.QP_CFG_TX_SIZE q)

/-- The entries of a receive ring. -/
def Hub.rxEntries (h : Hub) (q : Nat) : Nat := 2 ^ h.get pHost (HOST.QP_CFG_RX_SIZE q)

/-- Whether a queue pair's next descriptor may be fetched: it runs, TX_PROD is ahead, and its last descriptor waits neither to be issued nor for
tokens or a slot (R473, R475). -/
def Hub.fetchable (h : Hub) (q : Nat) : Bool :=
  h.qpState q == 1 && (h.qp q).next != h.get pHost (HOST.QP_TX_PROD_IDX q) % h.txEntries q && (h.qp q).descs.all (fun d => d.issued)
    && h.waitingDescs q == []

/-- The queue pair whose turn it is: the first from the turn on that may fetch (R475). -/
def Hub.fetchTurn (h : Hub) : Option Nat := ((List.range 8).map (fun i => (h.host.turn + i) % 8)).find? (fun q => h.fetchable q)

/-- DESCRIPTOR_FETCH: the next transmit descriptor of the queue pair whose turn it is, its eight words as host memory holds them; an operation that R473
does not name completes with 0x0B (R473, R475). -/
def execDescriptorFetch (qp : Nat) (words : List Nat) (s : State) : Host.Outcome State Fault Refusal :=
  run s fun h =>
    let x := h.qp qp
    if h.fetchTurn ≠ some qp then h
    else
      let op := slice (words.getD 0 0) 28 4
      let bad := op = 0 ∨ 3 < op
      let d : Desc := { idx := x.next, words := words, stamp := h.now8 % 2 ^ 64, issued := bad, status := if bad then some 0x0B else none }
      let h := { h with host := { h.host with turn := (qp + 1) % 8 } }
      h.setQp qp { x with next := (x.next + 1) % h.txEntries qp, descs := x.descs ++ [d] }

/-- The descriptor of an operation that a queue pair has fetched and not issued. -/
def Hub.pendingDesc (h : Hub) (q op : Nat) : Option Desc :=
  if h.qpState q = 1 then (h.qp q).descs.find? (fun d => !d.issued && slice (d.word 0) 28 4 == op) else none

/-- A descriptor is issued. -/
def Hub.markIssued (h : Hub) (q idx : Nat) : Hub :=
  let x := h.qp q
  h.setQp q { x with descs := x.descs.map (fun d => if d.idx = idx then { d with issued := true } else d) }

/-- The 16 bytes ahead of a tunnelled Ethernet frame (R452). -/
def tunnelHeader (flen : Nat) (tagged express : Bool) (pcp stamp : Nat) : List Byte :=
  leBytes 2 flen ++ leBytes 1 (flag tagged + 2 * flag express) ++ leBytes 1 pcp ++ leBytes 4 0 ++ leBytes 8 stamp

/-- Whether an Ethernet frame carries an IEEE 802.1Q tag, and its priority code point. -/
def vlanOf (e : List Byte) : Bool × Nat :=
  if beNat ((e.drop 12).take 2) = 0x8100 then (true, beNat ((e.drop 14).take 2) / 8192) else (false, 0)

/-- DESCRIPTOR_TUNNEL: the buffer, an Ethernet frame without FCS, is sent as a tunnelled frame (R474). -/
def execDescriptorTunnel (qp : Nat) (buffer : List Byte) (s : State) : Host.Outcome State Fault Refusal :=
  run s fun h =>
    match h.pendingDesc qp 3 with
    | none => h
    | some d =>
      let h := h.markIssued qp d.idx
      let ten := h.cfg pBrg BRG.ISSUE_HOST_TEN
      let len := d.word 0 % 65536
      let v := vlanOf buffer
      if len < 60 ∨ 9212 < len then h.descriptorDone qp d.idx 0x0B []
      else if h.tenantOn ten = false then h.descriptorDone qp d.idx 0x0E []
      else
        let payload := tunnelHeader len v.1 false v.2 d.stamp ++ buffer.take len
        h.arrive { ingress := 3, egress := 8, pri := h.get pHost (HOST.QP_CFG_PRI qp), qp := some qp, origin := .dma qp d.idx,
                   frame := { cls := .bulk, payload := payload,
                              hdr := { type := 0x18, ten := ten, group := bitOf (d.word 1) 12, dst := d.word 1 % 4096, len := payload.length } } }

/-- DESCRIPTOR_COMPLETE: the oldest descriptor of a queue pair has its outcome; word 6 is written, then TX_CONS advances in the write-back
area, and VEC_TX fires where the descriptor asks for it (R473, R475). -/
def execDescriptorComplete (qp : Nat) (s : State) : Host.Outcome State Fault Refusal :=
  run s fun h =>
    match (h.qp qp).descs with
    | [] => h
    | d :: l =>
      match d.status with
      | none => h
      | some st =>
        if h.qpState qp ≠ 1 then h
        else
          let base := h.get64 pHost (HOST.QP_TX_BASE_LO_ADDR qp) (HOST.QP_TX_BASE_HI_ADDR qp)
          let cons := (d.idx + 1) % h.txEntries qp
          let h := (h.setQp qp { h.qp qp with descs := l }).emits
            [.hostWrite (base + 32 * d.idx + 24) (leBytes 4 (2 ^ 31 + st * 65536)), .hostWrite (h.writeBack qp) (leBytes 4 cons)]
          let h := (h.put pHost (HOST.QP_STAT_TX_CONS qp) cons).inc pHost (HOST.QP_TX_DONE_COUNT qp)
          if bitOf (d.word 0) 26 then h.signal (h.get pHost (HOST.QP_CFG_VEC_TX qp)) else h

/-! ### Stopping (R472, R477) -/

/-- QP_STOP: a queue pair leaves running: EN is written 0 (`err` 0), or a host memory read was refused (1) or not answered in 50 ms (2). -/
def execQpStop (qp err : Nat) (s : State) : Host.Outcome State Fault Refusal :=
  run s fun h =>
    if qp ≥ 8 ∨ 2 < err then h
    else if err = 0 then h.disableQp qp
    else if h.qpState qp ≠ 1 then h
    else (((h.stopQp qp).put pHost (HOST.QP_STAT_STATE qp) 2).put pHost (HOST.QP_STAT_ERR qp) err).raise pHost 1

/-- DRAIN_END: the last issued read of a draining queue pair has finished; one whose EN is still 1 runs again where it may (R472, R477). -/
def execDrainEnd (qp : Nat) (s : State) : Host.Outcome State Fault Refusal :=
  run s fun h =>
    if h.qpState qp = 3 ∧ (h.qp qp).descs.all (fun d => d.status.isSome) then
      ((h.setQp qp { h.qp qp with descs := [] }).put pHost (HOST.QP_STAT_STATE qp) 0).startQp qp
    else h

/-! ### Receive rings (R476) -/

/-- A write of RX_TAIL: receive descriptors up to it are available. -/
def Hub.writeRxTail (h : Hub) (q v : Nat) : Hub :=
  let n := h.rxEntries q
  let x := h.qp q
  let more := match x.rxLast with
    | some l => (v % n + n - l) % n
    | none => v % n + 1
  (h.setQp q { x with rxAvail := min n (x.rxAvail + more), rxLast := some (v % n) }).put pHost (HOST.QP_RX_TAIL_IDX q) v

/-- RX_TAIL. -/
def execRxTail (req : Req) (qp value : Nat) (s : State) : Host.Outcome State Fault Refusal :=
  run s fun h => h.writeDo req pHost (0x120 + 64 * (qp % 8)) fun g => g.writeRxTail (qp % 8) value

/-- A frame cut over receive buffers, each an address and a size: the address and the part of each; none where they do not hold it. -/
def cutBuffers : List (Nat × Nat) → List Byte → Option (List (Nat × List Byte))
  | _, [] => some []
  | [], _ => none
  | (a, n) :: bs, data => (cutBuffers bs (data.drop n)).map (fun r => (a, data.take n) :: r)

/-- The words 3 to 7 that the hub writes to a receive descriptor (R476). -/
def rxWords (f : Frame) (len : Nat) (more : Bool) : List Byte :=
  leBytes 4 (2 ^ 31 + flag more * 2 ^ 30 + len) ++ leBytes 4 (f.hdr.src + f.hdr.ten * 4096 + 0x18 * 65536) ++ ((f.payload.drop 8).take 8) ++ leBytes 4 0

/-- The descriptors of a frame written, from index `i` on. -/
def Hub.writeRx (h : Hub) (q : Nat) (f : Frame) : Nat → List (Nat × List Byte) → Hub
  | _, [] => h
  | i, (a, part) :: l =>
    let base := h.get64 pHost (HOST.QP_RX_BASE_LO_ADDR q) (HOST.QP_RX_BASE_HI_ADDR q)
    (h.emits [.hostWrite a part, .hostWrite (base + 32 * i + 12) (rxWords f part.length (l != []))]).writeRx q f ((i + 1) % h.rxEntries q) l

/-- A tunnelled frame offered to the host (R476). `buffers` are the host's receive buffers from RX_HEAD on. -/
def Hub.offerHost (h : Hub) (f : Frame) (buffers : List (Nat × Nat)) : Hub :=
  let q := slice (h.cfg pHost HOST.RXMAP_QP) (3 * (f.field 3 1 % 8)) 3
  if h.qpState q ≠ 1 ∨ bitOf (h.get pHost (HOST.QP_CFG_RX_MASK q)) f.hdr.ten = false then h
  else
    let x := h.qp q
    match cutBuffers (buffers.take x.rxAvail) (f.payload.drop 16) with
    | none => h.inc pHost (HOST.QP_RX_NOBUF_COUNT q)
    | some parts =>
      let head := h.get pHost (HOST.QP_RX_HEAD_IDX q)
      let next := (head + parts.length) % h.rxEntries q
      let h := (h.writeRx q f head parts).setQp q { x with rxAvail := x.rxAvail - parts.length }
      ((h.put pHost (HOST.QP_RX_HEAD_IDX q) next).emit (.hostWrite (h.writeBack q + 4) (leBytes 4 next))).signal (h.get pHost (HOST.QP_CFG_VEC_RX q))

end Sys2Proof.Machine
end

