-- ==== Sys2Proof/Machine/Ring.lean ====
section
/-!
DEFINITION. The ring ports: reception, the transit decision, bring-up and the modules (R114 to R141, R152, R155, R630 to R632).
Where the manual is open: DEDUCED, log entries 15 and 22; PRESUMED, log entry 13.
-/
namespace Sys2Proof.Machine

open Reg

/-! ### Duplicate discard (R155) -/

/-- Whether a sequence number lies in a gap record. -/
def inGap (gaps : List (Nat × Nat)) (s : Nat) : Bool :=
  gaps.any (fun g => decide ((s + 65536 - g.1) % 65536 < g.2))

/-- Whether a path's window shows that it has carried a sequence number. -/
def seenBy (w : Option Window) (s : Nat) : Bool :=
  match w with
  | none => false
  | some x =>
    decide ((s + 65536 - x.first) % 65536 ≤ (x.high + 65536 - x.first) % 65536) && !inGap x.gaps s

/-- A gap record below a new F removed, or trimmed to start at F (R155). -/
def trimGap (f : Nat) (g : Nat × Nat) : Option (Nat × Nat) :=
  let before := (f + 65536 - g.1) % 65536
  if 0x8000 ≤ before then some g
  else if g.2 ≤ before then none
  else some (f, g.2 - before)

/-- A window after a sequence number, and whether a gap record was dropped; none where the number is not newer on this path. -/
def advance (w : Option Window) (s : Nat) : Option (Window × Bool) :=
  match w with
  | none => some ({ first := s, high := s }, false)
  | some x =>
    let d := (s + 65536 - x.high) % 65536
    if d = 0 ∨ 0x8000 ≤ d then none
    else
      let full := decide (1 < d) && decide (4 ≤ x.gaps.length)
      let gaps := if 1 < d then
          (if 4 ≤ x.gaps.length then x.gaps.drop 1 else x.gaps) ++ [((x.high + 1) % 65536, d - 1)]
        else x.gaps
      let y : Window := { x with high := s, gaps := gaps, dropped := x.dropped || full }
      if 0x7FFF < (s + 65536 - x.first) % 65536 then
        let f := (s + 65536 - 0x7FFF) % 65536
        some ({ y with first := f, gaps := y.gaps.filterMap (trimGap f) }, full)
      else some (y, full)

/-- The switch port that a delivered frame is bound for, by its type (R11). -/
def localPort (t : Nat) : Nat :=
  if t = 0x01 then 4 else if t = 0x18 then 2 else if t = 0x19 then 6 else if t = 0x1A then 7 else 5

/-- A frame of a class or a length that its type does not allow is discarded at its delivery, and counted (R123, R631). -/
def Hub.countClass (h : Hub) (port : Nat) (f : Frame) : Hub :=
  if f.known && !(f.classOk && f.lenOk) then h.portCount port RPORT.CLASS_ERR_COUNT else h

/-- The ring time of a received /S/, in eighths of a tick (R132, R301). -/
def Hub.rxTime (h : Hub) (port stamp : Nat) : Nat := ((h.stamp port false stamp / 8192) % (2 ^ 64 : Nat)).toNat

/-- An Express or Timed frame taken off the transit path for this node: Track samples and time syncs go to their units, the rest to the switch
core, with the configuration its start delimiter came under (R11, R12, R56). -/
def Hub.tap (h : Hub) (port stamp : Nat) (f : Frame) : Hub :=
  let h := h.countClass port f
  if !f.delivers then h
  else if f.hdr.type = 0x02 ∨ f.hdr.type = 0x03 then h.emit (.deliver port f)
  else h.putBefore { ingress := port, egress := localPort f.hdr.type, frame := f, stamp := h.rxTime port stamp, old := h.beforeCommit stamp }

/-- An Express or Timed frame received whole for this node: delivered unless the other path has carried it (R155). -/
def Hub.deliverOnce (h : Hub) (port stamp : Nat) (f : Frame) : Hub :=
  let key := windowKey f.hdr.src f.cls port
  let other_ := Map.find h.topo.windows (windowKey f.hdr.src f.cls (other port))
  match advance (Map.find h.topo.windows key) f.hdr.seq with
  | none => h.inc pTopo TOPO.STALE_SEQ_COUNT
  | some (w, dropped) =>
    let h := h.setTopo (fun t => { t with windows := Map.set t.windows key w })
    let h := if dropped then (h.inc pTopo TOPO.GAP_OVF_COUNT).raise pTopo 1 else h
    if seenBy other_ f.hdr.seq then h.inc pTopo TOPO.DUP_DISCARD_COUNT else h.tap port stamp f

/-! ### The transit decision (R124, R152) -/

/-- Whether this node is in a group (the group window of R167). -/
def Hub.inGroup (h : Hub) (g : Nat) : Bool := bitOf (Mem.read h.topo.groups (g / 8)).toNat (g % 8)

/-- The row of R152 that a frame takes: deliver, forward, counted in STRIP. -/
def Hub.transitRow (h : Hub) (x : Header) : Bool × Bool × Bool :=
  let own := h.nodeId
  if own ≠ 0 ∧ x.src = own ∧ x.wrapped = false then (false, false, true)
  else if own ≠ 0 ∧ x.src = own then (false, true, false)
  else if own ≠ 0 ∧ x.group = false ∧ x.dst = own then (true, false, false)
  else if x.group = false ∧ x.dst = 4095 then (own != 0, true, false)
  else if x.group = true ∧ h.inGroup x.dst = true then (own != 0, true, false)
  else (false, true, false)

/-- Whether the transit path of a port cuts through: the other port's rate is the same or lower (R130, R131). -/
def Hub.cutsThrough (h : Hub) (port : Nat) : Bool :=
  decide (h.get (pRport port) RPORT.STAT_RATE_EFF ≤ h.get (pRport (other port)) RPORT.STAT_RATE_EFF)

/-- An Express or Timed frame sent on toward the other port (R130, R131, R137). One that turns out bad is half gone where the path cuts through, and
ends with a stomped check; else it is not sent. -/
def Hub.forwardFast (h : Hub) (port stamp : Nat) (f : Frame) (good : Bool) : Hub :=
  if !good && !h.cutsThrough port then h
  else h.sendOn (other port) true { frame := { f with hdr := f.hdr.hop }, check := if good then .good else .stomped, rx := some stamp }

/-- Whether a frame is a topology announcement, which the topology unit reads from either path (R149, R151). -/
def announces (f : Frame) : Bool := f.hdr.type == 0x10 && f.lenOk && f.cls == .express

/-- Whether a Bulk frame goes before the switch core for this node, and for the other port (R12, R123, R152). -/
def Hub.bulkPaths (h : Hub) (f : Frame) : Bool × Bool :=
  let row := h.transitRow f.hdr
  (row.1 && f.delivers, row.2.1 && !f.hdr.spent)

/-- A Bulk frame received whole: one for this node whose class or length its type does not allow is counted (R123, R631), and the sessions of KIND 1
see one that enters the switch core (R300). -/
def Hub.bulkWhole (h : Hub) (port stamp : Nat) (f : Frame) : Hub :=
  let h := if (h.transitRow f.hdr).1 then h.countClass port f else h
  if h.bulkPaths f = (false, false) ∨ h.fenced pSw then h else h.watchFlow port (h.rxTime port stamp) f

/-- A Bulk frame put before the switch core, for this node and for the other port (R12, R152, R288); a fenced switch core discards it (R305). -/
def Hub.presentBulk (h : Hub) (port stamp : Nat) (part : Part) (f : Frame) : Hub :=
  let a : Arrival := { ingress := port, frame := f, part := part, stamp := h.rxTime port stamp, old := h.beforeCommit stamp }
  let (d, forward) := h.bulkPaths f
  let h := if part = .whole then h.bulkWhole port stamp f else h
  if !d && !forward then h
  else if h.fenced pSw then h.fenceDrop 1
  else if d then h.putBefore { a with egress := localPort f.hdr.type, also := if forward then some (other port) else none }
  else h.putBefore { a with egress := other port }

/-- The transit decision on a valid header that is not a link frame's (R123, R124, R152): `part` is what is there of a Bulk frame, and whether an
Express or Timed one is whole and good, which alone is delivered (R126, R155). The manual leaves open whether a frame of undefined TYPE, which R123
does not deliver, passes R155, and whether an announcement of a new incarnation does before its origin's windows are emptied: both do, and the
emptying comes after (DESIGN CHOICE, log entry 18). -/
def Hub.route (h : Hub) (port stamp : Nat) (part : Part) (f : Frame) : Hub :=
  let row := h.transitRow f.hdr
  let good := part == .whole
  let h := if row.2.2 then (if good then h.loopReturn port stamp f else h).inc pTopo TOPO.STRIP_COUNT else h
  let h := if f.known then h else h.portCount port RPORT.UNK_TYPE_COUNT
  let h := if f.hdr.spent then h.portCount port RPORT.HOPS_DROP_COUNT else h
  let forward := row.2.1 && !f.hdr.spent
  if f.cls = .bulk then h.presentBulk port stamp part f
  else
    let h := if announces f && good then h.emit (.deliver port f) else h
    let h := if row.1 && good then h.deliverOnce port stamp f else h
    if forward then h.forwardFast port stamp f good else h

/-! ### Reception (R116, R126, R632) -/

/-- A valid frame counted (R141). -/
def Hub.countRx (h : Hub) (port : Nat) (f : Frame) : Hub :=
  h.setPort port (fun p => { p with rxFrames := (p.rxFrames + 1) % 2 ^ 64, rxBytes := (p.rxBytes + f.length) % 2 ^ 64 })

/-- A port reaches UP, and leaves it again where its module's TX_FAULT is high (R133, R138). -/
def Hub.linkUp (h : Hub) (port : Nat) : Hub :=
  let h := h.setLink port 4
  if h.txFaulty port then h.setLink port 6 else h

/-- A SETTLING port whose locks are back returns to UP at a valid frame (R133). -/
def Hub.settle (h : Hub) (port : Nat) : Hub :=
  if h.link port = 5 ∧ h.on (pRport port) RPORT.STAT_CDR_LOCK ∧ h.on (pRport port) RPORT.STAT_BLOCK_LOCK then h.linkUp port else h

/-- Whether the port acts on a link frame of a type in its state (R632). -/
def linkActs (type link : Nat) : Bool :=
  if type = 0x30 then link == 3 || link == 4 || link == 7
  else if type = 0x31 then link == 4 || link == 5
  else if type = 0x32 ∨ type = 0x33 then link == 4
  else false

/-- The HELLO frames of a port are no longer consecutive: a frame between them was not valid. R133 does not say what breaks the row; here a frame that
fails its checks, a foreign one and a runt do, and a valid frame that is no HELLO, one of a wrong LEN and a bad continuation fragment do not
(DESIGN CHOICE, log entry 15). -/
def Hub.breakHellos (h : Hub) (port : Nat) : Hub := h.setPort port (fun p => { p with hellos := 0 })

/-- The sessions of the Periscope see a frame received on a ring port (R300). -/
def Hub.seeRx (h : Hub) (port stamp : Nat) (f : Frame) : Hub := h.watch port false (h.rxTime port stamp) f

/-- A valid frame of a port: a link frame is handed on in the states that act on it; any other is routed while the port is UP. A link frame of a
wrong LEN takes no part in bring-up (R123, R631, R632). -/
def Hub.receive (h : Hub) (port stamp : Nat) (f : Frame) : Hub :=
  let h := h.countRx port f
  if f.cls = .link then
    if !f.known then (h.settle port).portCount port RPORT.UNK_TYPE_COUNT
    else if !f.classOk then (h.settle port).portCount port RPORT.CLASS_ERR_COUNT
    else if !f.lenOk then h.portCount port RPORT.CLASS_ERR_COUNT
    else
      let h := h.settle port
      if linkActs f.hdr.type (h.link port) then h.emit (.deliver port f) else h
  else
    let h := h.settle port
    if h.link port = 4 then (h.seeRx port stamp f).route port stamp .whole f else h.portCount port RPORT.SETTLE_DROP_COUNT

/-- A frame with a valid header that fails a later check: its transit is ended, its cells are freed (R126, R288). -/
def Hub.spoilt (h : Hub) (port stamp : Nat) (f : Frame) : Hub :=
  let h := h.breakHellos port
  if f.cls ≠ .link ∧ h.link port = 4 then h.route port stamp .bad f else h

/-- A Bulk first fragment that finds a frame open: the open frame is discarded and counted (R129). -/
def Hub.freshBulk (h : Hub) (port : Nat) (c : Cls) : Hub :=
  if c = .bulk ∧ (h.port port).rxOpen.isSome then (h.portCount port RPORT.FRAG_ERR_COUNT).dropOpen port else h

/-- A Bulk first fragment: the frame is open, and its header is decided on where the port is UP (R129, R288, R632). -/
def Hub.openBulk (h : Hub) (port stamp : Nat) (bs : List Byte) : Hub :=
  let up := h.link port == 4
  let h := h.setPort port (fun p => { p with rxOpen := some { bytes := bs, next := 1, stamp := stamp, routed := up } })
  if up then h.route port stamp .header { cls := .bulk, hdr := Header.decode bs } else h

/-- The outcome of a received frame's checks (R126, R129, R630). -/
def Hub.judged (h : Hub) (port stamp : Nat) (r : RxResult) : Hub :=
  match r with
  | .runt => (h.breakHellos port).portCount port RPORT.RUNT_COUNT
  | .headerError => (h.breakHellos port).portCount port RPORT.HDR_ERR_COUNT
  | .oversize => (h.breakHellos port).portCount port RPORT.OVERSIZE_COUNT
  | .lengthError f => (h.portCount port RPORT.LEN_ERR_COUNT).spoilt port stamp f
  | .crcError f => (h.portCount port RPORT.CRC_ERR_COUNT).spoilt port stamp f
  | .stomped f => (h.portCount port RPORT.STOMPED_COUNT).spoilt port stamp f
  | .fragment bs good =>
    if good then h.openBulk port stamp bs
    else (h.portCount port RPORT.FRAG_ERR_COUNT).spoilt port stamp { cls := .bulk, hdr := Header.decode bs }
  | .whole f => h.receive port stamp f

/-- The outcome of the checks of a frame that was in progress as the elastic buffer overflowed or underflowed: a CRC error (R119). -/
def spoiltResult (r : RxResult) : RxResult :=
  match r with
  | .whole f => .crcError f
  | .stomped f => .crcError f
  | .lengthError f => .crcError f
  | .fragment bs _ => .crcError { cls := .bulk, hdr := Header.decode bs }
  | r => r

/-- Whether the frame whose /S/ came at `stamp` was in progress at the last failure of the port's elastic buffer, which is thereby dealt with (R119). -/
def Hub.takeSpoil (h : Hub) (port stamp : Nat) : Bool × Hub :=
  match (h.port port).spoilAt with
  | none => (false, h)
  | some t => (decide (stamp ≤ t), h.setPort port (fun p => { p with spoilAt := none }))

/-- TRANSIT_FRAME: the bytes between a start delimiter and /T/ arrive on a port, `stamp` being the instant of /S/ in 0.25 ns;
`lane4` marks a start in lane 4 (R116, R117, R126, R152). One whose start delimiter came before the last commit instant is received under the
configuration before it (R56). A continuation fragment is the matter of BULK_FRAGMENT. -/
def execTransitFrame (port stamp sd : Nat) (lane4 : Bool) (body : List Byte) (s : State) : Host.Outcome State Fault Refusal :=
  run s fun h =>
    if port ≥ 2 ∨ h.link port = 0 then h
    else if lane4 then (h.breakHellos port).portCount port RPORT.FOREIGN_COUNT
    else
      match sdOf sd with
      | none => (h.breakHellos port).portCount port RPORT.FOREIGN_COUNT
      | some (.continuation _) => h
      | some (.frame c) =>
        let sp := h.takeSpoil port stamp
        let r := judge c body
        sp.2.underPrior (h.beforeCommit stamp) (fun g => (g.freshBulk port c).judged port stamp (if sp.1 then spoiltResult r else r))

/-- A Bulk frame that a continuation brings to its end (R126, R288, R632). -/
def Hub.endBulk (h : Hub) (port : Nat) (o : OpenRx) (r : RxResult) : Hub :=
  match r with
  | .whole f =>
    if o.routed then
      ((((h.setPort port (fun p => { p with rxOpen := none })).countRx port f).seeRx port o.stamp f).bulkWhole port o.stamp f).completeBulk port f
    else (h.dropOpen port).receive port o.stamp f
  | .stomped _ => (h.dropOpen port).portCount port RPORT.STOMPED_COUNT
  | _ => (h.dropOpen port).portCount port RPORT.CRC_ERR_COUNT

/-- A continuation fragment for an open frame: it ends the frame, or ends at a boundary after at least one byte more of it (R129, R630). -/
def Hub.continueBulk (h : Hub) (port : Nat) (o : OpenRx) (body : List Byte) : Hub :=
  let part := body.take (body.length - 4)
  let chk := leNat (body.drop (body.length - 4))
  let bs := o.bytes ++ part
  let x := Header.decode bs
  if body.length < 4 then (h.dropOpen port).portCount port RPORT.LEN_ERR_COUNT
  else if bs.length = 20 + x.len then h.endBulk port o (judgeWhole .bulk bs chk)
  else if part ≠ [] ∧ bs.length < 20 + x.len ∧ bs.length % 60 = 0 then
    if chk = fragmentCheck bs then h.setPort port (fun p => { p with rxOpen := some { o with bytes := bs, next := o.next + 1 } })
    else (h.dropOpen port).portCount port RPORT.FRAG_ERR_COUNT
  else (h.dropOpen port).portCount port RPORT.LEN_ERR_COUNT

/-- BULK_FRAGMENT: a Bulk continuation fragment (R129), under the configuration that the frame began in (R56). One that comes first after a failure of
the port's elastic buffer is taken as the frame in progress then (R119; DEDUCED, log entry 22). -/
def execBulkFragment (port sd : Nat) (body : List Byte) (s : State) : Host.Outcome State Fault Refusal :=
  run s fun h =>
    if port ≥ 2 ∨ h.link port = 0 then h
    else
      match sdOf sd, (h.port port).rxOpen with
      | some (.continuation _), none => h.portCount port RPORT.FRAG_ERR_COUNT
      | some (.continuation m), some o =>
        if (h.port port).spoilAt.isSome then ((h.takeSpoil port 0).2.portCount port RPORT.CRC_ERR_COUNT).dropOpen port
        else if o.next % 4 = m then h.underPrior (h.beforeCommit o.stamp) (fun g => g.continueBulk port o body)
        else (h.portCount port RPORT.FRAG_ERR_COUNT).dropOpen port
      | some (.frame _), _ => h
      | none, _ => h.portCount port RPORT.FOREIGN_COUNT

/-! ### Bring-up (R133 to R136) -/

/-- The rate that follows another in the AUTO order, skipping those that the module rules out (R135). -/
def Hub.rateAfter (h : Hub) (port r : Nat) : Nat :=
  let a := r % 3 + 1
  let b := a % 3 + 1
  if !h.rateSkipped port a then a else if !h.rateSkipped port b then b else r

/-- Under AUTO the port moves to the next try rate, and after a full pass without LOCKING its dwell is drawn afresh: a free value, since the manual
names a generator and not its law; a fixed rate stays (R135). -/
def Hub.nextRate (h : Hub) (port : Nat) : Hub :=
  if h.cfg (pRport port) RPORT.CFG_RATE = 0 then
    let r := h.get (pRport port) RPORT.STAT_RATE_EFF
    let n := h.rateAfter port r
    let d := h.fresh
    let h :=
      if r < n then h
      else if (h.port port).pass then d.2.setPort port (fun p => { p with dwell := some (16 + d.1 % 16) })
      else h.setPort port (fun p => { p with pass := true })
    h.put (pRport port) RPORT.STAT_RATE_EFF n
  else h

/-- A failed rejoin attempt in Islanded (R89). -/
def Hub.rejoinFailed (h : Hub) : Hub := if h.mode = .islanded then h.irq pSys 2 else h

/-- The level of a port's RX_LOS pin noted; whether the port sees a loss of signal by it, the pin being in use (R138). -/
def Hub.noteLos (h : Hub) (port : Nat) (los : Bool) : Hub × Bool :=
  (h.put (pRport port) RPORT.STAT_SFP_LOS (flag los), los && h.cfgOn (pRport port) RPORT.CFG_SFP_MGMT)

/-- A port is no longer parked, nor held to face a leaving node (R164). -/
def Hub.unpark (h : Hub) (port : Nat) : Hub := (h.setPark port false).setPort port (fun p => { p with peerLeaving := false })

/-- Whether a ring port's SerDes works: its supply and reference are present, and its pins are not held (R98, R106). -/
def Hub.ringWorks (h : Hub) : Bool := h.serdesReady && !h.pinsHeld .ring

/-- RECEIVE_ENERGY: a port in WAIT_SIGNAL sees energy, `los` being the level of RX_LOS, which must be low; a parked port unparks (R133, R138, R164). -/
def execReceiveEnergy (port : Nat) (los : Bool) (s : State) : Host.Outcome State Fault Refusal :=
  run s fun h =>
    let n := h.noteLos port los
    if port ≥ 2 then h
    else if n.1.link port = 1 ∧ n.2 = false ∧ n.1.ringWorks then ((n.1.unpark port).put (pRport port) RPORT.STAT_PLL_LOCK 1).setLink port 2
    else n.1

/-- AUTO_DWELL: the dwell on a try rate expires (R135). -/
def execAutoDwell (port : Nat) (s : State) : Host.Outcome State Fault Refusal :=
  run s fun h => if h.link port = 1 ∧ h.cfg (pRport port) RPORT.CFG_RATE = 0 then h.nextRate port else h

/-- BLOCK_LOCK: CDR lock and block lock or synchronisation are acquired, in LOCKING, or regained in SETTLING (R133). -/
def execBlockLock (port : Nat) (s : State) : Host.Outcome State Fault Refusal :=
  run s fun h =>
    let locked := ((h.put (pRport port) RPORT.STAT_CDR_LOCK 1).put (pRport port) RPORT.STAT_BLOCK_LOCK 1).put
      (pRport port) RPORT.STAT_HI_BER 0
    if h.ringWorks = false then h
    else if h.link port = 2 then locked.setLink port 3
    else if h.link port = 5 then locked
    else h

/-- LOCKING_TIMEOUT: 1 ms in LOCKING without both locks (R133). -/
def execLockingTimeout (port : Nat) (s : State) : Host.Outcome State Fault Refusal :=
  run s fun h => if h.link port = 2 then ((h.setLink port 1).nextRate port).rejoinFailed else h

/-- The rates that a port accepts, as a HELLO carries them (R134). -/
def Hub.helloRates (h : Hub) (port : Nat) : Nat :=
  match h.cfg (pRport port) RPORT.CFG_RATE with
  | 1 => 1
  | 2 => 2
  | 3 => 4
  | _ => 7

/-- The payload of a HELLO (R134). SEEN: a valid HELLO arrived within the last 30 µs. -/
def Hub.helloPayload (h : Hub) (port : Nat) : List Byte :=
  let seen := match (h.port port).helloAt with
    | some c => decide (h.clock ≤ c + 15000)
    | none => false
  leBytes 1 1 ++ leBytes 1 (flag seen * 128 + port * 64 + h.helloRates port) ++ leBytes 2 h.nodeId ++ leBytes 16 h.uid
    ++ leBytes 2 3 ++ leBytes 1 (h.get pSys SYS.MODE_CUR) ++ leBytes 1 0

/-- HELLO_SEND: in HELLO every 10 µs, in REFUSED every 100 ms (R133, R134). -/
def execHelloSend (port : Nat) (s : State) : Host.Outcome State Fault Refusal :=
  run s fun h => if h.link port = 3 ∨ h.link port = 7 then h.sendLink port 0x30 (h.helloPayload port) else h

/-- Why a peer's HELLO is refused: 0 not, 1 same port name, 2 own unit ID, 3 version (R133, STAT.REFUSE); where several hold, the first in that order
(DESIGN CHOICE, log entry 15). -/
def Hub.refusal (h : Hub) (port : Nat) (f : Frame) : Nat :=
  if bitOf (f.field 1 1) 6 = decide (port = 1) then 1
  else if f.field 4 16 = h.uid then 2
  else if f.field 0 1 ≠ 1 then 3
  else 0

/-- What a HELLO tells of the peer (RPORT.PEER, PEER_UID). -/
def Hub.notePeer (h : Hub) (port : Nat) (f : Frame) : Hub :=
  let p := pRport port
  let h := (((h.put p RPORT.PEER_VER (f.field 0 1)).put p RPORT.PEER_RATES (f.field 1 1)).put p RPORT.PEER_NODE (f.field 2 2)).put
    p RPORT.PEER_MODE (f.field 22 1)
  let h := h.put p RPORT.STAT_PEER_WEST (flag (bitOf (f.field 1 1) 6))
  let h := ((h.put p (RPORT.PEER_UID_UID 0) (f.field 4 4)).put p (RPORT.PEER_UID_UID 1) (f.field 8 4)).put
    p (RPORT.PEER_UID_UID 2) (f.field 12 4)
  (h.put p (RPORT.PEER_UID_UID 3) (f.field 16 4)).setPort port (fun s => { s with helloAt := some h.clock })

/-- HELLO: a valid HELLO frame received in HELLO, UP or REFUSED (R133, R632). -/
def execHello (port : Nat) (frame : Frame) (s : State) : Host.Outcome State Fault Refusal :=
  run s fun h =>
    let st := h.link port
    if !(st == 3 || st == 4 || st == 7) then h
    else
      let h := h.notePeer port frame
      let why := h.refusal port frame
      if st = 3 then
        if why ≠ 0 then ((h.put (pRport port) RPORT.STAT_REFUSE why).setLink port 7).rejoinFailed.raise (pRport port) 1
        else
          let n := (h.port port).hellos + 1
          let h := h.setPort port (fun p => { p with hellos := n })
          if 3 ≤ n ∧ bitOf (frame.field 1 1) 7 then h.linkUp port else h
      else if st = 7 ∧ why = 0 then h.setLink port 3
      else if st = 7 then h.put (pRport port) RPORT.STAT_REFUSE why
      else h

/-- HELLO_TIMEOUT: 1 ms in HELLO without reaching UP (R133). -/
def execHelloTimeout (port : Nat) (s : State) : Host.Outcome State Fault Refusal :=
  run s fun h => if h.link port = 3 then (h.setLink port 1).rejoinFailed else h

/-- Code violations seen on a port since the last command that brought some (RPORT.SYM_ERR). -/
def Hub.countSymbols (h : Hub) (port n : Nat) : Hub := h.addTo (pRport port) RPORT.SYM_ERR_COUNT n

/-- LOSS_OF_LOCK: an UP port loses signal, CDR lock or block lock; `los` is the level of RX_LOS, `symbols` the code violations seen since the last
command that brought some (R133, R138, R141). -/
def execLossOfLock (port : Nat) (los : Bool) (symbols : Nat) (s : State) : Host.Outcome State Fault Refusal :=
  run s fun h =>
    if port ≥ 2 then h
    else
      let h := (h.noteLos port los).1.countSymbols port symbols
      if h.link port = 4 then h.portSignalLost port else h

/-- HI_BER: hi_ber at 10.3125 Gbaud, or at the other rates loss of synchronisation for 1 µs, which STAT.BLOCK_LOCK follows, on an UP port, with the
code violations seen (R133, R140, R141). -/
def execHiBer (port symbols : Nat) (s : State) : Host.Outcome State Fault Refusal :=
  run s fun h =>
    if port ≥ 2 then h
    else
      let h := h.countSymbols port symbols
      if h.link port = 4 then
        let g := (h.put (pRport port) RPORT.STAT_HI_BER 1).setLink port 6
        (if g.get (pRport port) RPORT.STAT_RATE_EFF = 1 then g else g.put (pRport port) RPORT.STAT_BLOCK_LOCK 0).raise (pRport port) 2
      else h

/-- SETTLING_TIMEOUT: 12 µs since the port left UP (R133). -/
def execSettlingTimeout (port : Nat) (s : State) : Host.Outcome State Fault Refusal :=
  run s fun h => if h.link port = 5 then h.setLink port 6 else h

/-- DOWN_HOLD_END: 100 µs in DOWN (R133). -/
def execDownHoldEnd (port : Nat) (s : State) : Host.Outcome State Fault Refusal :=
  run s fun h => if h.link port = 6 then h.setLink port 1 else h

/-- BULK_HOLD: the oldest Bulk frame of a queue, held for a port that is not UP, or not open again, has been there for BULK_HOLD (R137). -/
def execBulkHold (port queue : Nat) (s : State) : Host.Outcome State Fault Refusal :=
  run s fun h =>
    let key := port * 16 + queue
    match Map.getD h.sw.queues key [] with
    | [] => h
    | f :: q =>
      if port < 2 ∧ queue < 16 ∧ (h.link port ≠ 4 ∨ h.portOpen port = false) ∧
          f.since + 50000 * h.cfg (pRport port) RPORT.CFG_BULK_HOLD ≤ h.clock then
        ({ h with sw := { h.sw with queues := Map.put h.sw.queues key [] q } }).portCount port RPORT.HOLD_TO_COUNT
      else h

/-- KEEP_ALIVE_LOSS: an UP port's idle time reaches 10 µs (R148). -/
def execKeepAliveLoss (port : Nat) (s : State) : Host.Outcome State Fault Refusal :=
  run s fun h => if h.link port = 4 then h.setLink port 6 else h

/-- SERDES_PLL_UNLOCK: the port's SerDes PLL is out of lock for 1 µs with its reference valid (R140). -/
def execSerdesPllUnlock (port : Nat) (s : State) : Host.Outcome State Fault Refusal :=
  run s fun h =>
    if port < 2 ∧ h.on pSys SYS.CLK_STAT_REF156 then (h.put (pRport port) RPORT.STAT_PLL_LOCK 0).raise (pRport port) 0 else h

/-! ### Modules (R138, R139) -/

/-- TX_FAULT: the module's TX_FAULT input changes (R138, R140). With SFP_MGMT = 0 the level has no effect. -/
def execTxFault (port : Nat) (high : Bool) (s : State) : Host.Outcome State Fault Refusal :=
  run s fun h =>
    if port ≥ 2 then h
    else
      (h.put (pRport port) RPORT.STAT_SFP_TXFAULT (flag high)).txFault port

/-- The pages of a port's module as read, from byte 0 on. -/
def pageOf (bs : List Byte) : Map Byte := Mem.writeN [] 0 (bs.take 256)

/-- MOD_ABS: a module is removed, or inserted and its A0h page read; a page that the module does not acknowledge sets SFP_I2C (R138, R139). With
SFP_MGMT = 0 only the level of the pin is known. -/
def execModAbs (port : Nat) (absent acknowledged : Bool) (a0 : List Byte) (s : State) : Host.Outcome State Fault Refusal :=
  run s fun h =>
    if port ≥ 2 then h
    else
      let h := h.put (pRport port) RPORT.STAT_SFP_PRESENT (flag (!absent))
      let h := if absent then h.setPort port (fun p => { p with a0 := [], a2 := [] }) else h
      if h.cfgOn (pRport port) RPORT.CFG_SFP_MGMT = false then h.rateWarn port
      else
        let h := h.irq (pRport port) 1
        if absent then h.rateWarn port
        else if acknowledged then (h.setPort port (fun p => { p with a0 := pageOf a0 })).rateWarn port
        else h.raise (pRport port) 5

/-- SFP_A2_READ: the periodic read of a module's A2h page, where it announces diagnostics (R139). -/
def execSfpA2Read (port : Nat) (acknowledged : Bool) (a2 : List Byte) (s : State) : Host.Outcome State Fault Refusal :=
  run s fun h =>
    if port < 2 ∧ h.modulePresent port ∧
        bitOf (Mem.read (h.port port).a0 92).toNat 6 then
      (if acknowledged then h.setPort port (fun p => { p with a2 := pageOf a2 }) else h.raise (pRport port) 5)
    else h

end Sys2Proof.Machine
end

