-- ==== Sys2Proof/Machine/Can.lean ====
section
/-!
DEFINITION. The commands and events of the CAN FD controllers (R423 to R445).
Where the manual is open: DEDUCED, log entry 26; free REC, log entry 45.
-/
namespace Sys2Proof.Machine

open Reg

/-! ### Message memory (R430 to R432) -/

/-- The bits of a word of an object that software may not write (R431). -/
def hardwareBits (j : Nat) : Nat :=
  match j with
  | 0 => 0x8FC0FFFF
  | 2 => 0x10000000
  | 4 => 0xFFFFFFFF
  | 5 => 0xFFFFFFFF
  | 6 => 0x0000FFFF
  | _ => 0

/-- The object and the byte in it that an offset of the window reaches (R430). -/
def Hub.objectAt (h : Hub) (n off : Nat) : Nat × Nat := (8 * h.get (pCan n) CAN.OBJ_BANK_BANK + (off - 0xC00) / 128, (off - 0xC00) % 128)

/-- A write to the window of message memory; refused on an object that the controller owns (R430, R432). -/
def Hub.writeObject (h : Hub) (n off size v : Nat) : Hub × Bool :=
  let (i, b) := h.objectAt n off
  if b < 32 ∧ size ≠ 4 then (h, false)
  else if h.objOwned n i then (h.inc (pCan n) CAN.OBJ_BUSY_COUNT, false)
  else if b < 32 then
    let keep := hardwareBits (b / 4)
    let old := h.objWord n i (b / 4)
    (h.setObjWord n i (b / 4) ((old &&& keep) ||| (v % 2 ^ 32 - (v % 2 ^ 32 &&& keep))), true)
  else (h.setCan n (fun c => { c with mem := Mem.setWord c.mem (128 * i + b) size v }), true)

/-- A read of the window of message memory; none where the form is not taken (R430). -/
def Hub.readObject (h : Hub) (n off size : Nat) : Option Nat :=
  let (i, b) := h.objectAt n off
  if b < 32 ∧ size ≠ 4 then none else some (Mem.word (h.can n).mem (128 * i + b) size)

/-! ### GO and CANCEL (R432, R433) -/

/-- Whether a reserved bit of an object is not zero (R431, R433). -/
def Hub.reservedSet (h : Hub) (n i : Nat) : Bool :=
  slice (h.objWord n i 0) 16 6 != 0 || slice (h.objWord n i 1) 29 2 != 0 || slice (h.objWord n i 2) 4 24 != 0
    || slice (h.objWord n i 3) 29 3 != 0 || slice (h.objWord n i 6) 16 16 != 0 || (h.objWord n i 7) != 0
    || (Mem.readN (h.can n).mem (128 * i + 0x60) 32).any (fun b => b != 0)

/-- Whether GO refuses an object under the cases counted in TX_REF (R433). -/
def Hub.goRefused (h : Hub) (n i : Nat) : Bool :=
  let t := h.objType n i
  let w2 := h.objWord n i 2
  let send := t == 1 &&
    ((!bitOf (h.objWord n i 1) 31 && decide (0x7FF < slice (h.objWord n i 1) 0 29)) || (bitOf w2 29 && bitOf w2 31) || (bitOf w2 30 && !bitOf w2 31)
      || (bitOf w2 31 && !h.cfgOn (pCan n) CAN.CFG_FD_EN) || (bitOf w2 30 && !h.cfgOn (pCan n) CAN.CFG_BRS_EN) || h.reservedSet n i)
  h.objOwned n i || t == 0 || decide (3 < t) || send || h.canState n == 0 || h.canState n == 6

/-- A write of GO: the object's counts of losses and errors start at 0 (R432, R433, R435). -/
def Hub.writeGo (h : Hub) (n v : Nat) : Hub × Bool :=
  let i := v % 128
  let t := h.objType n i
  if h.modeEff = .held ∧ (t = 1 ∨ t = 3) then (h.inc pSys SYS.OUT_REFUSED_COUNT, false)
  else if h.goRefused n i then (h.inc (pCan n) CAN.TX_REF_COUNT, false)
  else
    let h := h.setObjWord n i 6 (h.objWord n i 6 / 2 ^ 16 * 2 ^ 16)
    if t = 1 then ((h.setObj n i true 1).setCan n (fun c => { c with order := c.order ++ [i] }), true) else (h.setObj n i true 0, true)

/-- GO: software hands an object to the controller. -/
def execGo (req : Req) (unit value : Nat) (s : State) : Host.Outcome State Fault Refusal :=
  run s fun h => h.write req (pCan unit) 0x04C (fun g => g.writeGo unit value)
    (h.outStatus (h.objType unit (value % 128) == 1 || h.objType unit (value % 128) == 3))

/-- A write of CANCEL (R432, R438). -/
def Hub.writeCancel (h : Hub) (n v : Nat) : Hub :=
  let i := v % 128
  if !h.objOwned n i then h.inc (pCan n) CAN.TX_REF_COUNT
  else if (h.can n).sending = some i then h.setCan n (fun c => { c with cancelling := true })
  else if h.objType n i = 1 then h.giveBack n i 6
  else h.setObj n i false 0

/-- CAN_CANCEL. -/
def execCanCancel (req : Req) (unit value : Nat) (s : State) : Host.Outcome State Fault Refusal :=
  run s fun h => h.writeDo req (pCan unit) 0x050 fun g => g.writeCancel unit value

/-! ### States (R427) -/

/-- A write of CTL: RECOVER starts the recovery count in BUS_OFF (R427). -/
def Hub.writeRecover (h : Hub) (n v : Nat) : Hub :=
  if bitOf v 0 ∧ h.canState n = 4 then h.setCan n (fun c => { c with recovering := true }) else h

/-- RECOVER: a write of 1 to CTL.RECOVER starts the recovery count in BUS_OFF. -/
def execRecover (req : Req) (unit value : Nat) (s : State) : Host.Outcome State Fault Refusal :=
  run s fun h => h.writeDo req (pCan unit) 0x054 fun g => g.writeRecover unit value

/-- INTEGRATING_END: 11 consecutive recessive bits; ACTIVE, or PASSIVE by the counters, and from there BUS_OFF with TEC above 255. The bus is then idle: settings that wait for it apply, and
the controller integrates once more (R427, R429). -/
def execIntegratingEnd (unit : Nat) (s : State) : Host.Outcome State Fault Refusal :=
  run s fun h =>
    if h.canState unit ≠ 1 ∨ h.gated (pCan unit) then h
    else if (h.can unit).settings ≠ none then h.idleCan unit
    else ((h.setCanState unit (h.byCounters unit)).canConfine unit).busFree unit

/-- BUS_OFF_RECOVERY: 128 occurrences of 11 recessive bits have been counted; INTEGRATING, or HOLD where the mode holds the controller. -/
def execBusOffRecovery (unit : Nat) (s : State) : Host.Outcome State Fault Refusal :=
  run s fun h =>
    if h.canState unit = 4 ∧ (h.can unit).recovering then
      let h := (h.put (pCan unit) CAN.STAT_TEC 0).put (pCan unit) CAN.STAT_REC 0
      (h.setCan unit (fun c => { c with recovering := false })).setCanState unit (if h.driving then 1 else 5)
    else h

/-! ### Sending (R434, R435) -/

/-- TRANSMIT_CHOICE: at a bus idle or the third bit of an intermission the controller chooses what it sends next; new settings apply at the idle. -/
def execTransmitChoice (unit : Nat) (idle : Bool) (s : State) : Host.Outcome State Fault Refusal :=
  run s fun h =>
    let h := if idle then h.idleCan unit else h
    if (h.canState unit ≠ 2 ∧ h.canState unit ≠ 3) ∨ h.canOn unit CAN.CFG_LISTEN ∨ (h.can unit).sending ≠ none then h.busFree unit
    else
      match h.chooseObject unit with
      | none => h.busFree unit
      | some i =>
        let h := (h.put (pCan unit) CAN.STAT_TX_BUSY 1).setCan unit (fun c => { c with sending := some i, free := false })
        if h.canOn unit CAN.CFG_LOOP then h else h.emit (.can unit (h.objFrame unit i (h.canState unit == 3)))

/-- CAN_TRANSMISSION_END: the frame in transmission has succeeded; its SOF edge was sampled `ago` clock edges ago, and `delay` is the loop delay
measured for an FD frame. A measurement that reaches 127 periods is a bit error of the frame instead (R424, R426). -/
def execCanTransmissionEnd (unit ago delay : Nat) (s : State) : Host.Outcome State Fault Refusal :=
  run s fun h =>
    match (h.can unit).sending with
    | none => h
    | some i =>
      if h.measures unit i && decide (127 ≤ delay) then (h.measureTdc unit i delay).sendError unit i 1
      else
      let p := pCan unit
      let stamp := h.inputStamp ago
      let fb := h.onFallBack
      let cancel := (h.can unit).cancelling
      let w2 := putBit (h.objWord unit i 2) 28 (h.canState unit == 3)
      let h := (((h.measureTdc unit i delay).stopSending unit).inc p CAN.TX_OK_COUNT).put p CAN.STAT_TEC (h.get p CAN.STAT_TEC - 1)
      let h := (h.setObjWord unit i 2 w2).putObjStamp unit i stamp fb
      (if h.objType unit i = 3 ∧ cancel then h.setObj unit i false 0 else h.giveBack unit i 2).canConfine unit

/-- ARBITRATION_LOST: the frame in transmission loses arbitration, and the controller receives the winner's frame. -/
def execArbitrationLost (unit : Nat) (s : State) : Host.Outcome State Fault Refusal :=
  run s fun h =>
    match (h.can unit).sending with
    | none => h
    | some i =>
      let n := satAdd 8 (slice (h.objWord unit i 6) 0 8) 1
      let h := h.setObjWord unit i 6 (h.objWord unit i 6 / 2 ^ 8 * 2 ^ 8 + n)
      let h := (h.inc (pCan unit) CAN.ARB_LOST_COUNT).put (pCan unit) CAN.STAT_RX_BUSY 1
      h.attemptFailed unit i n (h.canCfg unit CAN.CFG_ARB_LIM) 4

/-- TRANSMISSION_ERROR: the frame in transmission meets an error; `eights` is how often ISO 11898-1 adds 8 to TEC. -/
def execTransmissionError (unit eights delay : Nat) (s : State) : Host.Outcome State Fault Refusal :=
  run s fun h =>
    match (h.can unit).sending with
    | none => h
    | some i => (h.measureTdc unit i delay).sendError unit i eights

/-! ### Receiving (R437, R439, R440) -/

/-- REC after a valid reception by ISO 11898-1: one less, or between 119 and 127 where it was above 127; unchanged in HOLD (R428). -/
def Hub.goodReception (h : Hub) (n : Nat) : Hub :=
  let rec_ := h.get (pCan n) CAN.STAT_REC
  if h.canState n = 5 then h
  else if rec_ ≤ 127 then h.put (pCan n) CAN.STAT_REC (rec_ - 1)
  else
    let (v, g) := h.fresh
    g.put (pCan n) CAN.STAT_REC (119 + v % 9)

/-- An error while receiving: ISO 11898-1 adds 1 to REC where `first`, and 8 for each of `eights`. `exception` marks an FD frame without FD_EN or a
recessive reserved bit after FDF: a protocol exception under PEX, a form error else (R439). In HOLD the counters do not change (R428). -/
def Hub.badReception (h : Hub) (n : Nat) (first : Bool) (eights : Nat) (exception : Bool) : Hub :=
  let p := pCan n
  let h := h.put p CAN.STAT_RX_BUSY 0
  if exception && h.canOn n CAN.CFG_PEX then
    let h := h.inc p CAN.PEX_COUNT
    if h.canState n = 5 then h else h.setCanState n 1
  else
    let h := h.inc p CAN.RX_ERR_COUNT
    if h.canState n = 5 then h
    else (h.put p CAN.STAT_REC (min 255 (h.get p CAN.STAT_REC + flag first + 8 * eights))).canConfine n

/-- CAN_FRAME_RECEIVE: a frame becomes valid, its SOF edge sampled `ago` clock edges ago; `own` where it is the frame in transmission, considered
under SELF_RX or LOOP. An FD frame of another node without FD_EN is a protocol exception or a form error (R437, R439, R440). -/
def execCanFrameReceive (unit : Nat) (frame : CanFrame) (ago : Nat) (own : Bool) (s : State) : Host.Outcome State Fault Refusal :=
  run s fun h =>
    let stamp := h.inputStamp ago
    let fb := h.onFallBack
    if !h.canReceives unit then h
    else if frame.fdf && !h.canOn unit CAN.CFG_FD_EN && !own then h.badReception unit true 0 true
    else if own then
      match (h.can unit).sending with
      | none => h
      | some i =>
        if h.canOn unit CAN.CFG_SELF_RX || h.canOn unit CAN.CFG_LOOP then
          h.considerFrame unit (h.objFrame unit i (h.canState unit == 3)) stamp fb true
        else h
    else
      let h := ((h.put (pCan unit) CAN.STAT_RX_BUSY 0).goodReception unit).canConfine unit
      if !h.canOn unit CAN.CFG_ROUTE_EN then h.considerFrame unit frame stamp fb false
      else
        let (h, taken) := h.routeCan unit frame stamp
        if taken && h.canOn unit CAN.CFG_ROUTE_EXCL then h else h.considerFrame unit frame stamp fb false

/-- RECEPTION_ERROR: an error while receiving (R439). -/
def execReceptionError (unit : Nat) (first : Bool) (eights : Nat) (exception : Bool) (s : State) : Host.Outcome State Fault Refusal :=
  run s fun h => if h.canReceives unit then h.badReception unit first eights exception else h

end Sys2Proof.Machine
end

