-- ==== Sys2Proof/Machine/Faults.lean ====
section
/-!
DEFINITION. The fault collector's commands and the temperature unit (R513 to R533).
Where the manual is open: DEDUCED, log entries 12 and 51.
-/
namespace Sys2Proof.Machine

open Reg

/-! ### Transitions, fences and releases -/

/-- A source put into its place: ascending page, and within a page ascending bit (R520). -/
def insertSource (e : Nat × Nat) : List (Nat × Nat) → List (Nat × Nat)
  | [] => [e]
  | d :: l => if e.1 < d.1 ∨ (e.1 = d.1 ∧ e.2 < d.2) then e :: d :: l else d :: insertSource e l

/-- Whether a fault source can arise by itself: its page has it, and it is not VALIDATOR, which the end of a validation brings (R515). -/
def arises (e : Nat × Nat) : Bool :=
  match kindOf e.1 with
  | some k => decide (e.2 < sourceCount k) && !(e.1 == pSys && e.2 == 2)
  | none => false

/-- FAULT_TRANSITION: sources whose condition arises on one edge, each a page and a bit; they are judged in ascending order (R516, R520, R525). -/
def execFaultTransition (sources : List (Nat × Nat)) (s : State) : Host.Outcome State Fault Refusal :=
  run s fun h =>
    let l := (sources.filter arises).foldr insertSource []
    (l.foldl (fun g e => g.sourceEffect e.1 e.2) h).raiseAll l

/-- FENCE: the request at the head of the queue takes effect (R519 to R521). -/
def execFence (s : State) : Host.Outcome State Fault Refusal :=
  run s fun h =>
    match h.flt.queue with
    | [] => h
    | e :: q =>
      let h := { h with flt := { h.flt with queue := q } }
      let h := ((h.put pFlt FLT.LAST_FENCE_SRC e.2).put pFlt FLT.LAST_FENCE_PAGE e.1).inc pFlt FLT.CNT_FENCE_COUNT
      (h.irq pFlt 0).fenceUnit (unitOf e.1)

/-- The sources of contained or fatal class that are set on a page (R523). -/
def Hub.holdingFaults (h : Hub) (p : Nat) : Bool :=
  (List.range 16).any (fun b => bitOf (h.get p PG.FLT_SRC) b && h.faultClass p b != 0)

/-- The outcome of a release (REL_STAT.RESULT, R523): 0 released, 1 wrong key, 2 no fenced unit or a request queued, 3 a fault still set. -/
def Hub.releaseResult (h : Hub) (key page : Nat) : Nat :=
  if key ≠ 0x7E1A then 1
  else if !h.fenced (unitOf page) || h.fenceQueued (unitOf page) then 2
  else if (unitPages (unitOf page)).any (fun p => h.holdingFaults p) then 3
  else 0

/-- FLT.RELEASE written (R523, R524). -/
def Hub.writeRelease (h : Hub) (key page : Nat) : Hub :=
  let res := h.releaseResult key page
  let h := (h.put pFlt FLT.REL_STAT_RESULT res).put pFlt FLT.REL_STAT_PAGE page
  if res = 0 then (if h.bist.unit = unitOf page then h.abortUnitTest else h).releaseUnit (unitOf page) else h

/-- RELEASE. -/
def execRelease (req : Req) (key page : Nat) (s : State) : Host.Outcome State Fault Refusal :=
  run s fun h => h.writeDo req pFlt 0x048 fun g => g.writeRelease key page

/-- REPEAT_CLR: a unit has stayed unfenced for REPEAT_CLR seconds since its last release (R521). -/
def execRepeatClr (page : Nat) (s : State) : Host.Outcome State Fault Refusal :=
  run s fun h =>
    let u := unitOf page
    if h.fenced u ∨ h.fenceCount u = 0 ∨ h.clock < Map.getD h.flt.released u 0 + 500000000 * h.cfg pFlt FLT.CFG_REPEAT_CLR then h
    else { h with flt := { h.flt with counts := Map.erase h.flt.counts u, released := Map.erase h.flt.released u } }

/-! ### Temperature (R528 to R530); temperatures in units of 0.125 °C -/

/-- The reading of a junction sensor. -/
def Hub.sensor (h : Hub) (i : Nat) : Int := toSigned 16 (h.get pTherm (THERM.SENSOR_T i))

/-- Whether a sensor is in use. -/
def Hub.sensorInUse (h : Hub) (i : Nat) : Bool := bitOf (h.get pTherm THERM.STAT_IN_USE) i

/-- Twice the median of four readings: the sum of the middle two (R528). -/
def median2 (a b c d : Int) : Int := a + b + c + d - max (max a b) (max c d) - min (min a b) (min c d)

/-- The junction temperature and the hub that goes on: the highest reading among the sensors in use; a free value where none is in use, for R528
gives none (DESIGN CHOICE, log entry 51). -/
def Hub.tj (h : Hub) : Int × Hub :=
  if (List.range 4).any (fun i => h.sensorInUse i) then
    ((((List.range 4).filter (fun i => h.sensorInUse i)).map (fun i => h.sensor i)).foldl max (-32768), h)
  else (toSigned 16 (h.fresh.1 % 65536), h.fresh.2)

/-- BULK_C and BANK_C in effect, in °C: 120 and 130, or the committed TRIP, lowered by 10 while THERM is fenced (R529, R530). -/
def Hub.bulkC (h : Hub) : Int :=
  (if h.cfgOn pTherm THERM.TRIP_USE then (h.cfg pTherm THERM.TRIP_BULK_C : Int) else 120) - (if h.fenced pTherm then 10 else 0)

def Hub.bankC (h : Hub) : Int :=
  (if h.cfgOn pTherm THERM.TRIP_USE then (h.cfg pTherm THERM.TRIP_BANK_C : Int) else 130) - (if h.fenced pTherm then 10 else 0)

/-- The hysteresis, in °C. -/
def Hub.hyst (h : Hub) : Int := (h.cfg pTherm THERM.CFG_HYST : Int)

/-- Bulk shedding starts or ends at a reading (R529). -/
def Hub.thermBulk (h : Hub) (t : Int) : Hub :=
  if h.get pTherm THERM.STAT_BULK_SHED = 0 ∧ h.bulkC * 8 ≤ t then
    (((h.put pTherm THERM.STAT_BULK_SHED 1).irq pTherm 0)).raise pTherm 2
  else if h.on pTherm THERM.STAT_BULK_SHED ∧ t < (h.bulkC - h.hyst) * 8 then
    (h.put pTherm THERM.STAT_BULK_SHED 0).irq pTherm 0
  else h

/-- The bank shed level set; the banks follow it (R332, R529). -/
def Hub.setShedLevel (h : Hub) (l : Nat) : Hub :=
  let old := h.get pTherm THERM.STAT_LEVEL
  if old = l then h else ((h.put pTherm THERM.STAT_LEVEL l).irq pTherm 1).shedHook old l

/-- Bank shedding starts or ends at a reading (R529). -/
def Hub.thermBank (h : Hub) (t : Int) : Hub :=
  if h.get pTherm THERM.STAT_LEVEL = 0 ∧ h.bankC * 8 ≤ t then (h.setShedLevel 1).raise pTherm 3
  else if h.get pTherm THERM.STAT_LEVEL ≠ 0 ∧ t < (h.bankC - h.hyst) * 8 then h.setShedLevel 0
  else h

/-- The time spent shedding, counted in whole milliseconds of 100 µs readings. -/
def Hub.thermTime (h : Hub) : Hub :=
  let b := if h.on pTherm THERM.STAT_BULK_SHED then h.therm.bulkTenths + 1 else h.therm.bulkTenths
  let k := if h.get pTherm THERM.STAT_LEVEL ≠ 0 then h.therm.bankTenths + 1 else h.therm.bankTenths
  let h := if 10 ≤ b then h.inc pTherm THERM.BULK_MS_COUNT else h
  let h := if 10 ≤ k then h.inc pTherm THERM.BANK_MS_COUNT else h
  { h with therm := { h.therm with bulkTenths := b % 10, bankTenths := k % 10 } }

/-- The junction temperature shown, its highest value, and the warning when it rises to WARN_C. -/
def Hub.thermShow (h : Hub) (t : Int) : Hub :=
  let old := toSigned 16 (h.get pTherm THERM.STAT_TJ)
  let warn : Int := (h.cfg pTherm THERM.CFG_WARN_C : Int) * 8
  let h := h.put pTherm THERM.STAT_TJ (ofSigned 16 t)
  let h := if !h.therm.maxSeen || decide (toSigned 16 (h.get pTherm THERM.TJ_MAX_TJ) < t) then h.put pTherm THERM.TJ_MAX_TJ (ofSigned 16 t) else h
  let h := { h with therm := { h.therm with maxSeen := true } }
  if old < warn ∧ warn ≤ t then h.irq pTherm 2 else h

/-- The Safe-stop threshold of 140 °C (R529). -/
def Hub.thermStop (h : Hub) (t : Int) : Hub := if 140 * 8 ≤ t then h.raise pTherm 1 else h

/-- Twice what a sensor differs from the median of the four by (R528). -/
def Hub.sensorOff (h : Hub) (i : Nat) : Int := 2 * h.sensor i - median2 (h.sensor 0) (h.sensor 1) (h.sensor 2) (h.sensor 3)

/-- Whether a sensor differs from the median by more than 15 °C (R528). -/
def Hub.sensorFar (h : Hub) (i : Nat) : Bool := decide (2 * 15 * 8 < h.sensorOff i) || decide (h.sensorOff i < -(2 * 15 * 8))

/-- What a reading begins, carries on or ends: the times of differing sensors, and the time towards the next shed level (R528, R529). -/
def Hub.thermTimes (h : Hub) (t : Int) : Hub :=
  let now := h.clock
  let diff := [0, 1, 2, 3].foldl (fun m i => Map.put m i none (if h.sensorFar i then some ((Map.getD m i none).getD now) else none)) h.therm.diffAt
  let step := if h.bankC * 8 ≤ t then some (h.therm.stepAt.getD now) else none
  { h with therm := { h.therm with readDue := now + 50000, diffAt := diff, stepAt := step } }

/-- THERMAL_READING: the four sensors, in 0.125 °C, every 100 µs (R528, R529). -/
def execThermalReading (t0 t1 t2 t3 : Int) (s : State) : Host.Outcome State Fault Refusal :=
  run s fun h =>
    if h.underTest pTherm ∨ h.clock < h.therm.readDue then h
    else
    let h := (((h.put pTherm (THERM.SENSOR_T 0) (ofSigned 16 t0)).put pTherm (THERM.SENSOR_T 1) (ofSigned 16 t1)).put
      pTherm (THERM.SENSOR_T 2) (ofSigned 16 t2)).put pTherm (THERM.SENSOR_T 3) (ofSigned 16 t3)
    let t := h.tj.1
    (((((h.tj.2.thermTimes t).thermShow t).thermBulk t).thermBank t).thermTime).thermStop t

/-- STEP_MS: Tj has stayed at or above BANK_C for another STEP_MS (R529). -/
def execStepMs (s : State) : Host.Outcome State Fault Refusal :=
  run s fun h =>
    let l := h.get pTherm THERM.STAT_LEVEL
    match h.therm.stepAt with
    | some t =>
      if l ≠ 0 ∧ l < 15 ∧ t + 500000 * h.cfg pTherm THERM.CFG_STEP_MS ≤ h.clock then
        { h with therm := { h.therm with stepAt := some h.clock } }.setShedLevel (l + 1)
      else h
    | none => h

/-- SENSOR_DIFF: a sensor has differed from the median of the four by more than 15 °C for 10 ms and leaves use (R528). -/
def execSensorDiff (sensor : Nat) (s : State) : Host.Outcome State Fault Refusal :=
  run s fun h =>
    match Map.getD h.therm.diffAt sensor none with
    | none => h
    | some t =>
    if sensor < 4 ∧ h.sensorInUse sensor ∧ t + 5000000 ≤ h.clock then
      (h.put pTherm THERM.STAT_IN_USE (withoutBit (h.get pTherm THERM.STAT_IN_USE) sensor)).raise pTherm 0
    else h

end Sys2Proof.Machine
end

