-- ==== Sys2Proof/Machine/Mailbox.lean ====
section
/-!
DEFINITION. The mailboxes and doorbells (R479 to R486).
Where the manual is open: DEDUCED, log entry 24.
-/
namespace Sys2Proof.Machine

open Reg

/-- A mailbox that works: enabled, in a mode from Cellar on but Test, its page not fenced (R479, R487). -/
def Hub.mailboxOn (h : Hub) (m : Nat) : Bool :=
  h.mailCfg m (MBX.CFG_EN m) == 1 && !h.fenced pMbx && h.mode.fromCellar && h.mode != .test

/-- A refusal recorded in MBX.ERR and counted (R480, R481); the access completes with an error response. -/
def Hub.mailboxErr (h : Hub) (req : Req) (m cause : Nat) : Hub × Bool :=
  ((((h.put pMbx MBX.ERR_REQ req.code).put pMbx MBX.ERR_MBX m).put pMbx MBX.ERR_CAUSE cause).inc pMbx MBX.ERR_CNT_COUNT, false)

/-- Whether a mailbox holds a message. -/
def Hub.full (h : Hub) (m : Nat) : Bool := h.on pMbx (MBX.STAT_FULL m)

/-- The service call of a mailbox no longer waits (R486). -/
def Hub.endMailCall (h : Hub) (m : Nat) : Hub := { h with stw := { h.stw with calls := h.stw.calls.filter (fun c => c.path != .mailbox m) } }

/-- SEND (R481, R483, R485). -/
def Hub.mailSend (h : Hub) (req : Req) (m len : Nat) : Hub × Bool :=
  let reader := h.mailCfg m (MBX.CFG_READER m)
  let here := h.readerPresent reader || (h.mode == .cellar && m == 0)
  if req.code ≠ h.mailCfg m (MBX.CFG_WRITER m) then h.mailboxErr req m 1
  else if h.full m then h.mailboxErr req m 2
  else if len = 0 ∨ 64 < len then h.mailboxErr req m 7
  else if here = false ∧ h.mailCfg m (MBX.CFG_COMPAT m) = 1 then h.mailboxErr req m 5
  else
    let h := ((h.setFull m true).put pMbx (MBX.STAT_ACKED m) 0).put pMbx (MBX.STAT_LEN m) len
    (((h.put pMbx (MBX.STAT_WAITING m) (flag (!here))).ring (sideOf reader) (2 ^ h.mailCfg m (MBX.CFG_DB_BIT m))).mailCalls, true)

/-- ACK (R481). -/
def Hub.mailAck (h : Hub) (req : Req) (m rc : Nat) : Hub × Bool :=
  if req.code ≠ h.mailCfg m (MBX.CFG_READER m) then h.mailboxErr req m 3
  else if h.full m = false then h.mailboxErr req m 4
  else ((h.mailAcked m rc).endMailCall m, true)

/-- RECALL (R481). -/
def Hub.mailRecall (h : Hub) (req : Req) (m : Nat) : Hub × Bool :=
  if req.code ≠ h.mailCfg m (MBX.CFG_WRITER m) ∨ h.full m = false then h.mailboxErr req m 8
  else
    let h := (((h.setFull m false).put pMbx (MBX.STAT_ACKED m) 0).put pMbx (MBX.STAT_RC m) 0xFFFF).put pMbx (MBX.STAT_WAITING m) 0
    ((h.inc pMbx MBX.RECALLS_COUNT).endMailCall m, true)

/-- A write of MBX.CMD (R481). -/
def Hub.mailCommand (h : Hub) (req : Req) (v : Nat) : Hub × Bool :=
  let m := slice v 24 4
  if h.mailboxOn m = false then h.mailboxErr req m 6
  else
    match slice v 28 4 with
    | 1 => h.mailSend req m (slice v 16 7)
    | 2 => h.mailAck req m (v % 65536)
    | 3 => h.mailRecall req m
    | _ => h.mailboxErr req m 9

/-- SEND. -/
def execSend (req : Req) (mailbox len : Nat) (s : State) : Host.Outcome State Fault Refusal :=
  run s fun h => h.write req pMbx 0x0C0 fun g => g.mailCommand req (0x10000000 + mailbox % 16 * 0x1000000 + len % 128 * 0x10000)

/-- ACK. -/
def execAck (req : Req) (mailbox rc : Nat) (s : State) : Host.Outcome State Fault Refusal :=
  run s fun h => h.write req pMbx 0x0C0 fun g => g.mailCommand req (0x20000000 + mailbox % 16 * 0x1000000 + rc % 65536)

/-- RECALL. -/
def execRecall (req : Req) (mailbox : Nat) (s : State) : Host.Outcome State Fault Refusal :=
  run s fun h => h.write req pMbx 0x0C0 fun g => g.mailCommand req (0x30000000 + mailbox % 16 * 0x1000000)

/-- Why a write to a mailbox's data is refused: a cause of R480, or none. -/
def Hub.mailDataCause (h : Hub) (req : Req) (m : Nat) : Option Nat :=
  if h.mailboxOn m = false then some 6
  else if req = .secure ∧ h.mailCfg m (MBX.CFG_SVC m) = 1 ∧ h.full m then none
  else if req.code ≠ h.mailCfg m (MBX.CFG_WRITER m) then some 1
  else if (match req with | .tenant t => !bitOf (h.cfg (pTen (t % 8)) TEN.MBX_WRITE) m | _ => false) then some 1
  else if h.full m then some 2
  else none

/-- An aligned write of `size` bytes to the data window of MBX, at the page's offset `off` (R480). -/
def Hub.mailData (h : Hub) (req : Req) (off size v : Nat) : Hub × Bool :=
  let m := (off - 0xC00) / 64
  match h.mailDataCause req m with
  | some c => h.mailboxErr req m c
  | none => ({ h with host := { h.host with mail := Mem.setWord h.host.mail (off - 0xC00) size v } }, true)

/-- A write to the data window of MBX, with the common checks (R33, R41). -/
def Hub.writeMail (h : Hub) (req : Req) (off size v : Nat) : Hub :=
  match h.turnedAway req pMbx off size with
  | some e => e.hear req (pageAddr pMbx off) (h.stopStatus req pMbx off size true)
  | none =>
    let r := h.mailData req off size v
    r.1.hear req (pageAddr pMbx off) (if r.2 then 0 else stBusy)

/-- MAILBOX_DATA_WRITE: `off` is the page's offset, 0xC00 on. -/
def execMailboxDataWrite (req : Req) (off size value : Nat) (s : State) : Host.Outcome State Fault Refusal :=
  run s fun h => if off < 0xC00 ∨ 0x1000 ≤ off then h else h.writeMail req off size value

/-- A write of DB[s].RING: requesters outside the side set its bits (R484). -/
def Hub.writeRing (h : Hub) (req : Req) (side v : Nat) : Hub := if sideOf req.code = side then h else h.ring side v

/-- RING. -/
def execRing (req : Req) (side bits : Nat) (s : State) : Host.Outcome State Fault Refusal :=
  run s fun h => h.writeDo req pMbx (0x10C + 16 * (side % 4)) fun g => g.writeRing req (side % 4) (bits % 2 ^ 32)

/-- A W1C write of DB[s].RAW: only requesters of the side itself clear its bits (R484). -/
def Hub.writeDbRaw (h : Hub) (req : Req) (side v : Nat) : Hub × Bool :=
  if sideOf req.code ≠ side then (h, false)
  else if h.fenced pMbx then (h, true)
  else
    let raw := h.get pMbx (MBX.DB_RAW_BITS side)
    (h.put pMbx (MBX.DB_RAW_BITS side) (raw - (raw &&& v)), true)

/-- DB_RAW_CLEAR. -/
def execDbRawClear (req : Req) (side bits : Nat) (s : State) : Host.Outcome State Fault Refusal :=
  run s fun h => h.write req pMbx (0x100 + 16 * (side % 4)) fun g => g.writeDbRaw req (side % 4) bits

/-- A write of DB[s].MASK: only requesters of the side itself (R484). -/
def Hub.writeDbMask (h : Hub) (req : Req) (side v : Nat) : Hub × Bool :=
  if sideOf req.code ≠ side then (h, false) else (h.put pMbx (MBX.DB_MASK_BITS side) v, true)

end Sys2Proof.Machine
end

