-- ==== Sys2Proof/Machine/Prism.lean ====
section
/-!
DEFINITION. The Prism engines: starting, stopping and loading, the instruction set, waits, action slots and queues (R395 to R422).
Where the manual is open: DEDUCED, log entry 28.
-/
namespace Sys2Proof.Machine

open Reg

/-! ### Starting and stopping (R399 to R401) -/

/-- A write of CTL.START (R76, R401). -/
def Hub.writeStart (h : Hub) (e : Nat) : Hub × Bool :=
  let err := h.startCheck e false
  if err = 0 then (h.beginRun e (edgeAfter h.clock), true)
  else
    let h := if h.modeEff = .held then h.inc pSys SYS.OUT_REFUSED_COUNT else h
    (h.startRefused e err, false)

/-- START. -/
def execStart (req : Req) (unit : Nat) (s : State) : Host.Outcome State Fault Refusal :=
  run s fun h => h.write req (pPrs unit) 0x058 (fun g => g.writeStart unit) (h.outStatus true)

/-- STOP. -/
def execStop (req : Req) (unit : Nat) (s : State) : Host.Outcome State Fault Refusal :=
  run s fun h => h.writeDo req (pPrs unit) 0x058 fun g => g.stopPrs unit 1

/-- EVT_CLR. -/
def execEvtClr (req : Req) (unit : Nat) (s : State) : Host.Outcome State Fault Refusal :=
  run s fun h => h.writeDo req (pPrs unit) 0x058 fun g => g.setFlags unit (0, 0)

/-- A write of CTL: the flags are cleared, the engine stops, the engine starts, each where its bit is 1. -/
def Hub.writePrsCtl (h : Hub) (e v : Nat) : Hub × Bool :=
  let h := if bitOf v 2 then h.setFlags e (0, 0) else h
  let h := if bitOf v 1 then h.stopPrs e 1 else h
  if bitOf v 0 then h.writeStart e else (h, true)

/-- START_INSTANT: an engine in WAIT_START reaches its instant. -/
def execStartInstant (unit : Nat) (s : State) : Host.Outcome State Fault Refusal :=
  run s fun h => if h.prsState unit = 2 ∧ due h.now (h.eng unit).startAt then h.beginRun unit (edgeFrom h.clock) else h

/-! ### Groups (R417, R418) -/

/-- The engines that a group command names. -/
def Hub.groupMembers (h : Hub) (groups : Nat) : List Nat :=
  (List.range 32).filter (fun e => bitOf groups (h.cfg (pPrs e) PRS.CFG_GROUP))

/-- The effect of a group command on one engine; `at_` is GRP_AT. -/
def Hub.groupDo (h : Hub) (cmd at_ e : Nat) : Hub :=
  match cmd with
  | 1 =>
    let err := h.startCheck e false
    if err = 0 then h.beginRun e (edgeAfter h.clock) else h.startRefused e err
  | 2 =>
    let err := h.startCheck e true
    if err = 0 then (h.setEng e (fun s => { s with startAt := at_ })).setPrsState e 2 else h.startRefused e err
  | 3 => h.stopPrs e 3
  | 4 => if h.prsState e = 3 then h.rephase e (edgeAfter h.clock) else h
  | _ => h.setEng e (fun s => { s with restartAt := some at_ })

/-- A write of GRP_CTL on the page of `unit` (R417). -/
def Hub.writeGroup (h : Hub) (req : Req) (unit v : Nat) : Hub × Bool :=
  let cmd := v % 16
  let groups := slice v 8 8
  let at_ := h.get64 (pPrs unit) PRS.GRP_AT_LO_TLO PRS.GRP_AT_HI_THI
  let ahead := (at_ + 2 ^ 64 - h.now % 2 ^ 64) % 2 ^ 64
  let es := h.groupMembers groups
  if slice v 16 16 ≠ 0x47A1 ∨ cmd = 0 ∨ 5 < cmd ∨ groups = 0 then (h, false)
  else if es.any (fun e => !h.mayWrite req (pPrs e)) then (h, false)
  else if h.modeEff = .held ∧ (cmd = 1 ∨ cmd = 2) then (h.inc pSys SYS.OUT_REFUSED_COUNT, false)
  else if (cmd = 2 ∨ cmd = 5) ∧ (ahead < 5000 ∨ 5000000000 < ahead) then (h, false)
  else (es.foldl (fun g e => g.groupDo cmd at_ e) h, true)

/-- A command written to GRP_CTL: the value with its CMD field set. -/
def groupWrite (req : Req) (unit value cmd : Nat) (s : State) : Host.Outcome State Fault Refusal :=
  run s fun h => h.write req (pPrs unit) 0x0A0 (fun g => g.writeGroup req unit (value / 16 * 16 + cmd)) (h.outStatus (cmd == 1 || cmd == 2))

/-- GROUP_START. -/
def execGroupStart (req : Req) (unit value : Nat) (s : State) : Host.Outcome State Fault Refusal := groupWrite req unit value 1 s

/-- START_AT. -/
def execStartAt (req : Req) (unit value : Nat) (s : State) : Host.Outcome State Fault Refusal := groupWrite req unit value 2 s

/-- GROUP_STOP. -/
def execGroupStop (req : Req) (unit value : Nat) (s : State) : Host.Outcome State Fault Refusal := groupWrite req unit value 3 s

/-- GROUP_RESTART. -/
def execGroupRestart (req : Req) (unit value : Nat) (s : State) : Host.Outcome State Fault Refusal := groupWrite req unit value 4 s

/-- RESTART_AT. -/
def execRestartAt (req : Req) (unit value : Nat) (s : State) : Host.Outcome State Fault Refusal := groupWrite req unit value 5 s

/-! ### Loading and the register side (R396 to R398, R413, R420) -/

/-- A write of PROG (R397). -/
def Hub.writeProg (h : Hub) (e v : Nat) : Hub × Bool :=
  let p := pPrs e
  if !h.loadable e then (h.inc p PRS.LOAD_REF_COUNT, false)
  else (((h.put p PRS.PROG_ENTRY (slice v 16 10)).put p PRS.PROG_LEN (slice v 0 11)).staleSum e, true)

/-- A write of a program word, by its byte offset in the memory (R397). -/
def Hub.writeProgWord (h : Hub) (e off v : Nat) : Hub × Bool :=
  if !h.loadable e then (h.inc (pPrs e) PRS.LOAD_REF_COUNT, false)
  else (({ h with prsMem := Mem.setWord h.prsMem (0x10000 * e + off) 4 v }).staleSum e, true)

/-- PROGRAM_MEMORY_WRITE: a write to an instruction of the program memory, or to PROG; a word past the program memory is none (R32, R396). -/
def execProgramMemoryWrite (req : Req) (unit : Nat) (word : Option Nat) (value : Nat) (s : State) : Host.Outcome State Fault Refusal :=
  run s fun h =>
    match word with
    | none => h.write req (pPrs unit) 0x04C fun g => g.writeProg unit value
    | some i =>
      let a := 0x90000000 + 0x10000 * unit + 4 * i
      match h.memTurnedAway req unit (4 * i) with
      | some e => e.hear req a (h.memStatus req unit)
      | none =>
        if 1024 ≤ i then (h.accErr req (pPrs unit) (4 * i)).hear req a stNoTarget
        else
          let r := h.writeProgWord unit (4 * i) value
          r.1.hear req a (if r.2 then 0 else stBusy)

/-- SUM_CALC: the check over the program is brought up to date (R398). -/
def execSumCalc (unit : Nat) (s : State) : Host.Outcome State Fault Refusal :=
  run s fun h =>
    if h.loadable unit then
      (h.put (pPrs unit) PRS.SUM_CALC_CALC (h.progSum unit)).setEng unit (fun s => { s with stale := false })
    else h

/-- W: a write of a working register, 0 to 7. -/
def execW (req : Req) (unit index value : Nat) (s : State) : Host.Outcome State Fault Refusal :=
  run s fun h => h.write req (pPrs unit) (0x060 + 4 * index) fun g =>
    if 8 ≤ index then (g.accErr req (pPrs unit) (0x060 + 4 * index), false)
    else if g.loadable unit then (g.put (pPrs unit) (PRS.W_VALUE index) value, true) else (g, false)

/-- INQ: a write to INQ or to the push window; any other offset is an error (R34). -/
def execInq (req : Req) (unit off value : Nat) (s : State) : Host.Outcome State Fault Refusal :=
  run s fun h =>
    match h.turnedAway req (pPrs unit) off 4 with
    | some e => e.hear req (pageAddr (pPrs unit) off) (h.stopStatus req (pPrs unit) off 4 true)
    | none =>
      if off = 0x094 ∨ inWin 0xC00 off then h.pushIn unit value (.reply req (pageAddr (pPrs unit) off))
      else (h.accErr req (pPrs unit) off).hear req (pageAddr (pPrs unit) off) stNoTarget

/-- OUTQ: a read of OUTQ or of the pop window; any other offset is an error (R34). -/
def execOutq (req : Req) (unit off : Nat) (s : State) : Host.Outcome State Fault Refusal :=
  run s fun h =>
    match h.readTurnedAway req (pPrs unit) off 4, h.popOut unit with
    | some e, _ => e.readFails req (pageAddr (pPrs unit) off) (h.stopStatus req (pPrs unit) off 4 false)
    | none, x =>
      if off ≠ 0x098 ∧ !inWin 0xD00 off then (h.accErr req (pPrs unit) off).readFails req (pageAddr (pPrs unit) off) stNoTarget
      else
        match x with
        | some (v, g) => g.emit (.data req v)
        | none => h.readFails req (pageAddr (pPrs unit) off) stBusy

/-- A write of QCTL. -/
def Hub.writeQctl (h : Hub) (e v : Nat) : Hub :=
  let h := if bitOf v 0 then h.flushIn e else h
  if bitOf v 1 then (if h.chained e then h.flushIn (e + 1) else h.setEng e (fun s => { s with outq := [] })) else h

/-- IN_FLUSH. -/
def execInFlush (req : Req) (unit : Nat) (s : State) : Host.Outcome State Fault Refusal :=
  run s fun h => h.writeDo req (pPrs unit) 0x09C fun g => g.writeQctl unit 1

/-- OUT_FLUSH. -/
def execOutFlush (req : Req) (unit : Nat) (s : State) : Host.Outcome State Fault Refusal :=
  run s fun h => h.writeDo req (pPrs unit) 0x09C fun g => g.writeQctl unit 2

/-- A read of STAMP_LO: it latches STAMP_HI and STAMP_INFO (R420). -/
def Hub.readStampLo (h : Hub) (e : Nat) : Nat × Hub :=
  let p := pPrs e
  let x := (h.eng e).stamp.getD {}
  let h := (h.put p PRS.STAMP_HI_THI (x.stamp / 8 / 2 ^ 32)).put p PRS.STAMP_INFO_VALID (flag (h.eng e).stamp.isSome)
  let h := ((h.put p PRS.STAMP_INFO_FB (flag x.fb)).put p PRS.STAMP_INFO_RISING (flag x.rising)).put p PRS.STAMP_INFO_PIN x.pin
  (x.stamp / 8 % 2 ^ 32, h)

/-- STAMP_LO. -/
def execStampLo (req : Req) (unit : Nat) (s : State) : Host.Outcome State Fault Refusal :=
  run s fun h => h.read req (pPrs unit) 0x0AC fun g => g.readStampLo unit

/-! ### Decoding (R406, R407) -/

/-- The bits of an instruction word that must be zero, by its opcode; none for an opcode that is not listed. -/
def mustBeZero : Nat → Option Nat
  | 0x00 => some 0x3FFFFFF | 0x01 => some 0x700000 | 0x02 => some 0x7F0000 | 0x03 => some 0xFFFFF
  | 0x04 => some 0x1FFFF | 0x05 => some 0x1FFFF | 0x06 => some 0x1FFFF | 0x07 => some 0x1FFFF | 0x08 => some 0x1FFFF
  | 0x09 => some 0xFFFE0 | 0x0A => some 0xFFFE0 | 0x0B => some 0xFFFE0 | 0x0C => some 0xE0000 | 0x0D => some 0x1FFFF
  | 0x0E => some 0xFFC00 | 0x0F => some 0xFFC00 | 0x10 => some 0x3FFFC00 | 0x11 => some 0x7FFC00 | 0x12 => some 0x7FFC00
  | 0x13 => some 0x3FFFC00 | 0x14 => some 0x3FFFFFF | 0x15 => some 0x3FFFFFF | 0x18 => some 0x3FF0000 | 0x19 => some 0x3FF0000
  | 0x1A => some 0x38F00FF | 0x1B => some 0x7FFFFF | 0x1C => some 0x1FFFF | 0x1D => some 0x1FF | 0x1E => some 0x1FF
  | 0x20 => some 0x7FFFFF | 0x21 => some 0x7FFFFF | 0x22 => some 0x38FFFFF | 0x23 => some 0x3F00000 | 0x24 => some 0x7FFFFE
  | 0x25 => some 0x38FFFFE | 0x26 => some 0x38FFFFF | 0x27 => some 0x3FFFFFC | 0x28 => some 0x30000 | 0x29 => some 0xFFFF
  | 0x2A => some 0x7F0000 | 0x2B => some 0x3FF0000 | 0x2C => some 0x7FFFFF | 0x2D => some 0x7FFFF0
  | _ => none

/-- The fields of an instruction word. -/
def opOf (w : Nat) : Nat := w / 2 ^ 26
def dOf (w : Nat) : Nat := slice w 23 3
def sOf (w : Nat) : Nat := slice w 20 3
def tOf (w : Nat) : Nat := slice w 17 3

/-- Whether a word has its pair field even: D of TIME, STAMP, TPOS and TNOW, S of WAITT, S of ARMT and ARMP. -/
def pairEven (w : Nat) : Bool :=
  match opOf w with
  | 0x20 => dOf w % 2 == 0
  | 0x21 => dOf w % 2 == 0
  | 0x2C => dOf w % 2 == 0
  | 0x2D => dOf w % 2 == 0
  | 0x22 => sOf w % 2 == 0
  | 0x28 => slice w 19 3 % 2 == 0
  | 0x29 => slice w 19 3 % 2 == 0
  | _ => true

/-- Whether a word is an instruction by itself: a listed opcode, its zero fields zero, a JCC condition, 1 to 32 bits shifted. -/
def wellFormedWord (w : Nat) : Bool :=
  (match mustBeZero (opOf w) with
   | some m => w &&& m == 0
   | none => false)
  && pairEven w
  && !(opOf w == 0x11 && decide (6 ≤ dOf w))
  && !((opOf w == 0x1D || opOf w == 0x1E) && decide (32 ≤ slice w 13 6))

/-- A working register (R395). -/
def Hub.wreg (h : Hub) (e i : Nat) : Nat := h.get (pPrs e) (PRS.W_VALUE (i % 8))

/-- A working register set. -/
def Hub.setW (h : Hub) (e i v : Nat) : Hub := h.put (pPrs e) (PRS.W_VALUE (i % 8)) v

/-- A pair of working registers. -/
def Hub.wpair (h : Hub) (e i : Nat) : Nat := h.wreg e i + 2 ^ 32 * h.wreg e (i + 1)

/-- A pair of working registers set. -/
def Hub.setPair64 (h : Hub) (e i v : Nat) : Hub := (h.setW e i v).setW e (i + 1) (v / 2 ^ 32)

/-- The data address of LD and ST. -/
def Hub.dataAddr (h : Hub) (e w : Nat) : Nat := h.wreg e (sOf w) + slice w 0 10

/-- Whether the instruction at the PC is illegal: a fetch at or above LEN, a word that is no instruction, a data address of 256 or more, a
full return stack at CALL, an empty one at RET (R407). -/
def Hub.illegalAt (h : Hub) (e : Nat) : Bool :=
  let s := h.eng e
  let w := h.progWord e s.pc
  decide (h.get (pPrs e) PRS.PROG_LEN ≤ s.pc) || !wellFormedWord w
    || ((opOf w == 0x0E || opOf w == 0x0F) && decide (256 ≤ h.dataAddr e w))
    || (opOf w == 0x13 && decide (4 ≤ s.stack.length)) || (opOf w == 0x14 && s.stack.isEmpty)

/-- Whether an engine is about to execute an instruction: RUNNING, not waiting, and the ticks of the one before have passed (R402). -/
def Hub.executing (h : Hub) (e : Nat) : Bool := h.prsState e == 3 && (h.eng e).wait == .none && h.ticksOver e

/-- One instruction of an engine: `k` acts on the word at the PC where the engine is about to execute it, it is legal and has this opcode. -/
def instruction (op e : Nat) (s : State) (k : Hub → Nat → Hub) : Host.Outcome State Fault Refusal :=
  run s fun h =>
    let w := h.progWord e (h.eng e).pc
    if h.executing e && !h.illegalAt e && opOf w == op then k (h.reTick e) w else h

/-- An instruction of `n` ticks completes: the PC takes its next value, INSTR counts it, and its ticks have to pass before the next (R402, R407). -/
def Hub.completeTo (h : Hub) (e pc n : Nat) : Hub :=
  (h.setEng e (fun s => { s with pc := pc, wait := .none, ticks := n })).put (pPrs e) PRS.INSTR_COUNT (h.get (pPrs e) PRS.INSTR_COUNT + 1)

/-- An instruction of `n` ticks completes and the next word follows. -/
def Hub.completedIn (h : Hub) (e n : Nat) : Hub := h.completeTo e ((h.eng e).pc + 1) n

/-- An instruction of one tick completes and the next word follows. -/
def Hub.completed (h : Hub) (e : Nat) : Hub := h.completedIn e 1

/-- A wait, delay or shift is over at this tick, and the next instruction begins with it. -/
def Hub.waitOver (h : Hub) (e : Nat) : Hub := (h.reTick e).completedIn e 0

/-- The C flag set. -/
def Hub.setC (h : Hub) (e : Nat) (c : Bool) : Hub := h.setEng e (fun s => { s with c := c })

/-- A result in Wd, with Z and N by it and C as given. -/
def Hub.result (h : Hub) (e d v : Nat) (c : Bool) : Hub :=
  (h.setW e d v).setEng e (fun s => { s with z := v % 2 ^ 32 == 0, n := bitOf v 31, c := c })

/-! ### Arithmetic and moves (R407) -/

/-- NOP. -/
def execNop (unit : Nat) (s : State) : Host.Outcome State Fault Refusal := instruction 0x00 unit s fun h _ => h.completed unit

/-- LDI. -/
def execLdi (unit : Nat) (s : State) : Host.Outcome State Fault Refusal :=
  instruction 0x01 unit s fun h w => (h.setW unit (dOf w) (ofSigned 32 (toSigned 20 (slice w 0 20)))).completed unit

/-- LUI. -/
def execLui (unit : Nat) (s : State) : Host.Outcome State Fault Refusal :=
  instruction 0x02 unit s fun h w => (h.setW unit (dOf w) (slice w 0 16 * 2 ^ 16 + h.wreg unit (dOf w) % 2 ^ 16)).completed unit

/-- MOV. -/
def execMov (unit : Nat) (s : State) : Host.Outcome State Fault Refusal :=
  instruction 0x03 unit s fun h w => (h.setW unit (dOf w) (h.wreg unit (sOf w))).completed unit

/-- ADD: C is the carry out. -/
def execAdd (unit : Nat) (s : State) : Host.Outcome State Fault Refusal :=
  instruction 0x04 unit s fun h w =>
    let v := h.wreg unit (sOf w) + h.wreg unit (tOf w)
    (h.result unit (dOf w) (v % 2 ^ 32) (decide (2 ^ 32 ≤ v))).completed unit

/-- SUB: C is the borrow. -/
def execSub (unit : Nat) (s : State) : Host.Outcome State Fault Refusal :=
  instruction 0x05 unit s fun h w =>
    let a := h.wreg unit (sOf w)
    let b := h.wreg unit (tOf w)
    (h.result unit (dOf w) ((a + 2 ^ 32 - b) % 2 ^ 32) (decide (a < b))).completed unit

/-- A bitwise operation: C is 0. -/
def Hub.bitwise (h : Hub) (e w : Nat) (f : Nat → Nat → Nat) : Hub :=
  (h.result e (dOf w) (f (h.wreg e (sOf w)) (h.wreg e (tOf w))) false).completed e

/-- AND. -/
def execAnd (unit : Nat) (s : State) : Host.Outcome State Fault Refusal := instruction 0x06 unit s fun h w => h.bitwise unit w (fun a b => a &&& b)

/-- OR. -/
def execOr (unit : Nat) (s : State) : Host.Outcome State Fault Refusal := instruction 0x07 unit s fun h w => h.bitwise unit w (fun a b => a ||| b)

/-- XOR. -/
def execXor (unit : Nat) (s : State) : Host.Outcome State Fault Refusal := instruction 0x08 unit s fun h w => h.bitwise unit w (fun a b => a ^^^ b)

/-- A shift of Ws by n: C is 0. -/
def Hub.shifted (h : Hub) (e w : Nat) (f : Nat → Nat → Nat) : Hub :=
  (h.result e (dOf w) (f (h.wreg e (sOf w)) (slice w 0 5)) false).completed e

/-- SHL. -/
def execShl (unit : Nat) (s : State) : Host.Outcome State Fault Refusal := instruction 0x09 unit s fun h w => h.shifted unit w (fun a n => a * 2 ^ n % 2 ^ 32)

/-- SHR. -/
def execShr (unit : Nat) (s : State) : Host.Outcome State Fault Refusal := instruction 0x0A unit s fun h w => h.shifted unit w (fun a n => a / 2 ^ n)

/-- SAR. -/
def execSar (unit : Nat) (s : State) : Host.Outcome State Fault Refusal :=
  instruction 0x0B unit s fun h w => h.shifted unit w (fun a n => ofSigned 32 (toSigned 32 a / (2 ^ n : Nat)))

/-- ADDI: C is the carry out of the sum with the sign-extended immediate. -/
def execAddi (unit : Nat) (s : State) : Host.Outcome State Fault Refusal :=
  instruction 0x0C unit s fun h w =>
    let v := h.wreg unit (sOf w) + ofSigned 32 (toSigned 17 (slice w 0 17))
    (h.result unit (dOf w) (v % 2 ^ 32) (decide (2 ^ 32 ≤ v))).completed unit

/-- MUL: C is 1 if the high 32 bits are not zero. -/
def execMul (unit : Nat) (s : State) : Host.Outcome State Fault Refusal :=
  instruction 0x0D unit s fun h w =>
    let v := h.wreg unit (sOf w) * h.wreg unit (tOf w)
    (h.result unit (dOf w) (v % 2 ^ 32) (decide (2 ^ 32 ≤ v))).completedIn unit 2

/-! ### Memory and control flow (R407) -/

/-- LD. -/
def execLd (unit : Nat) (s : State) : Host.Outcome State Fault Refusal :=
  instruction 0x0E unit s fun h w => (h.setW unit (dOf w) (h.dataWord unit (h.dataAddr unit w))).completedIn unit 2

/-- ST. -/
def execSt (unit : Nat) (s : State) : Host.Outcome State Fault Refusal :=
  instruction 0x0F unit s fun h w => (h.setDataWord unit (h.dataAddr unit w) (h.wreg unit (dOf w))).completed unit

/-- JMP. -/
def execJmp (unit : Nat) (s : State) : Host.Outcome State Fault Refusal := instruction 0x10 unit s fun h w => h.completeTo unit (slice w 0 10) 2

/-- Whether a condition of JCC holds. -/
def Hub.condition (h : Hub) (e c : Nat) : Bool :=
  let s := h.eng e
  match c with
  | 0 => s.z
  | 1 => !s.z
  | 2 => s.n
  | 3 => !s.n
  | 4 => s.c
  | _ => !s.c

/-- JCC. -/
def execJcc (unit : Nat) (s : State) : Host.Outcome State Fault Refusal :=
  instruction 0x11 unit s fun h w => if h.condition unit (dOf w) then h.completeTo unit (slice w 0 10) 2 else h.completed unit

/-- DJNZ. -/
def execDjnz (unit : Nat) (s : State) : Host.Outcome State Fault Refusal :=
  instruction 0x12 unit s fun h w =>
    let v := (h.wreg unit (dOf w) + 2 ^ 32 - 1) % 2 ^ 32
    let h := h.setW unit (dOf w) v
    if v = 0 then h.completed unit else h.completeTo unit (slice w 0 10) 2

/-- CALL. -/
def execCall (unit : Nat) (s : State) : Host.Outcome State Fault Refusal :=
  instruction 0x13 unit s fun h w => (h.setEng unit (fun s => { s with stack := (s.pc + 1) :: s.stack })).completeTo unit (slice w 0 10) 2

/-- RET. -/
def execRet (unit : Nat) (s : State) : Host.Outcome State Fault Refusal :=
  instruction 0x14 unit s fun h _ =>
    let back := (h.eng unit).stack.headD 0
    (h.setEng unit (fun s => { s with stack := s.stack.drop 1 })).completeTo unit back 2

/-- HALT: the engine goes to HALTED (R399). -/
def execHalt (unit : Nat) (s : State) : Host.Outcome State Fault Refusal :=
  instruction 0x15 unit s fun h _ => ((h.completed unit).leaveRun unit 2).setPrsState unit 4

/-- ILLEGAL_INSTRUCTION: it does not execute; FAULTED with the PC left at it, and ILLEGAL (R407). -/
def execIllegalInstruction (unit : Nat) (s : State) : Host.Outcome State Fault Refusal :=
  run s fun h =>
    if h.executing unit && h.illegalAt unit then ((h.leaveRun unit 4).setPrsState unit 5).raise (pPrs unit) 0 else h

/-! ### Pins (R403 to R405, R407) -/

/-- PDIR: as every change at the pins, at the end of the instruction's tick (R403). -/
def execPdir (unit : Nat) (s : State) : Host.Outcome State Fault Refusal :=
  instruction 0x18 unit s fun h w =>
    (h.doAfter unit 1 (.dirs (slice w 8 8) (slice w 0 8))).completed unit

/-- POUT. -/
def execPout (unit : Nat) (s : State) : Host.Outcome State Fault Refusal :=
  instruction 0x19 unit s fun h w => (h.doAfter unit 1 (.pins (slice w 8 8) (slice w 0 8))).completed unit

/-- POUTR. -/
def execPoutr (unit : Nat) (s : State) : Host.Outcome State Fault Refusal :=
  instruction 0x1A unit s fun h w => (h.doAfter unit 1 (.pins (slice w 8 8) (h.wreg unit (sOf w) % 256))).completed unit

/-- PIN. -/
def execPin (unit : Nat) (s : State) : Host.Outcome State Fault Refusal :=
  instruction 0x1B unit s fun h w => (h.setW unit (dOf w) (h.pinLevels unit)).completed unit

/-- Whether a pin's half period since its last change is over (R404). -/
def Hub.pinReady (h : Hub) (e i : Nat) : Bool :=
  match h.pinOf (pPrs e) i with
  | some c => !h.tooSoon e i c
  | none => true

/-- PIN_DEFER_END: a deferred change takes effect at the end of the half period (R404). -/
def execPinDeferEnd (unit pin : Nat) (s : State) : Host.Outcome State Fault Refusal :=
  run s fun h =>
    match Map.find (h.eng unit).deferred pin with
    | some l => if h.pinReady unit pin then (h.setEng unit (fun s => { s with deferred := Map.erase s.deferred pin })).drivePin unit pin l else h
    | none => h

/-! ### Waits and stamps (R407, R408) -/

/-- The engine waits, for `n` ticks where the wait has a count. -/
def Hub.waitFor (h : Hub) (e : Nat) (x : PrsWait) (n : Nat) : Hub := h.setEng e (fun s => { s with wait := x, ticks := n, first := 1 })

/-- WAITP: a level that stands ends it at once, and so does a timeout of 0 without it. -/
def execWaitp (unit : Nat) (s : State) : Host.Outcome State Fault Refusal :=
  instruction 0x1C unit s fun h w =>
    let p := slice w 23 3
    let cond := slice w 21 2
    if cond < 2 ∧ h.pinLevel unit p = (cond == 1) then (h.setC unit false).completed unit
    else if bitOf w 20 ∧ h.wreg unit (tOf w) = 0 then (h.setC unit true).completed unit
    else h.waitFor unit (.pin p cond (bitOf w 20) none) (if bitOf w 20 then h.wreg unit (tOf w) else 1)

/-- The stamp latch written (R408); with CAP_POS the position of CAP_TRACK at the stamp (R210). -/
def Hub.latchStamp (h : Hub) (e p : Nat) (x : RawEdge) (rising : Bool) : Hub :=
  let pos := if h.cfgOn (pPrs e) PRS.CFG_CAP_POS then some (x.sight (h.cfg (pPrs e) PRS.CFG_CAP_TRACK)) else none
  h.setEng e (fun s => { s with stamp := some { stamp := x.stamp, rising := rising, fb := x.fb, pin := p, pos := pos } })

/-- The end of a WAITP whose condition holds at this tick: a level that stands, or an edge that reached the engine before this tick and whose
stamp is latched; none while it does not hold (R408). -/
def Hub.waitpMet (h : Hub) (e : Nat) : Option Hub :=
  match (h.eng e).wait with
  | .pin p cond _ seen =>
    if cond < 2 then (if h.pinLevel e p = (cond == 1) then some ((h.setC e false).waitOver e) else none)
    else
      match seen with
      | some x => if x.2 < h.clock then some (((h.latchStamp e p x.1 (cond == 2)).setC e false).waitOver e) else none
      | none => none
  | _ => none

/-- WAITP_END: a tick begins at which the condition holds. -/
def execWaitpEnd (unit : Nat) (s : State) : Host.Outcome State Fault Refusal :=
  run s fun h => if h.waitMayEnd unit then (h.waitpMet unit).getD h else h

/-- WAITP_TIMEOUT: Wt ticks have passed without the condition; one that holds at this tick ends the wait itself. -/
def execWaitpTimeout (unit : Nat) (s : State) : Host.Outcome State Fault Refusal :=
  run s fun h =>
    match (h.eng unit).wait with
    | .pin _ _ true _ => if h.ticksOver unit then (h.waitpMet unit).getD ((h.setC unit true).waitOver unit) else h
    | _ => h

/-- A shift begins: its first tick's pins change at once (R409). -/
def Hub.beginShift (h : Hub) (e : Nat) (input : Bool) (w v : Nat) : Hub := (h.waitFor e (.shift input w v 0 0) (shiftTicks w)).shiftDrive e input w v 0

/-- SHIFTO: the shift begins; its further ticks pass with the clock (`Hub.shiftStep`, R409). -/
def execShifto (unit : Nat) (s : State) : Host.Outcome State Fault Refusal :=
  instruction 0x1D unit s fun h w => h.beginShift unit false w (h.wreg unit (slice w 23 3))

/-- SHIFTI: the shift begins (R409). -/
def execShifti (unit : Nat) (s : State) : Host.Outcome State Fault Refusal :=
  instruction 0x1E unit s fun h w => h.beginShift unit true w 0

/-- SHIFT_END: the ticks of the shift have passed. SHIFTI puts the levels sampled into Wd, shifted in from the side at which SHIFTO takes them; DPIN is
left at the last bit sent, CPIN high (R409). -/
def execShiftEnd (unit : Nat) (s : State) : Host.Outcome State Fault Refusal :=
  run s fun h =>
    match (h.eng unit).wait with
    | .shift input w v got _ =>
      let n := shiftBits w
      if !h.ticksOver unit then h
      else
        let h := if input then h.setW unit (slice w 23 3) (if bitOf w 19 then reverseBits n (got % 2 ^ n) else got % 2 ^ n)
          else h.emit (.shifted unit (v % 2 ^ n))
        h.waitOver unit
    | _ => h

/-- TIME. -/
def execTime (unit : Nat) (s : State) : Host.Outcome State Fault Refusal :=
  instruction 0x20 unit s fun h w => ((h.setPair64 unit (dOf w) (h.now % 2 ^ 64)).setC unit (!h.mainInUse)).completedIn unit 2

/-- STAMP. -/
def execStamp (unit : Nat) (s : State) : Host.Outcome State Fault Refusal :=
  instruction 0x21 unit s fun h w =>
    let x := (h.eng unit).stamp.getD {}
    ((h.setPair64 unit (dOf w) (x.stamp / 8)).setC unit x.fb).completed unit

/-- WAITT: an instant that has come ends it at once. -/
def execWaitt (unit : Nat) (s : State) : Host.Outcome State Fault Refusal :=
  instruction 0x22 unit s fun h w =>
    let t := h.wpair unit (sOf w)
    if t ≤ h.now % 2 ^ 64 then h.completed unit else h.waitFor unit (.time t) 1

/-- WAITT_END: a tick begins with ring time at or past the instant. -/
def execWaittEnd (unit : Nat) (s : State) : Host.Outcome State Fault Refusal :=
  run s fun h =>
    match (h.eng unit).wait with
    | .time t => if h.waitMayEnd unit ∧ t ≤ h.now % 2 ^ 64 then h.waitOver unit else h
    | _ => h

/-- DELAY. -/
def execDelay (unit : Nat) (s : State) : Host.Outcome State Fault Refusal := instruction 0x23 unit s fun h w => h.waitFor unit .delay (max 1 (slice w 0 20))

/-- DELAY_END: the ticks have passed. -/
def execDelayEnd (unit : Nat) (s : State) : Host.Outcome State Fault Refusal :=
  run s fun h => if (h.eng unit).wait = .delay ∧ h.ticksOver unit then h.waitOver unit else h

/-! ### Queues, publish word and interrupts (R407, R413, R414) -/

/-- The oldest word of IN taken into Wd, with C = 0. -/
def Hub.pullWord (h : Hub) (e d : Nat) : Hub := ((h.setW e d ((h.eng e).inq.headD 0)).dropIn e).setC e false

/-- PULL. -/
def execPull (unit : Nat) (s : State) : Host.Outcome State Fault Refusal :=
  instruction 0x24 unit s fun h w =>
    if (h.eng unit).inq ≠ [] then (h.pullWord unit (dOf w)).completed unit
    else if bitOf w 0 then h.waitFor unit (.pull (dOf w)) 1
    else ((h.setW unit (dOf w) 0x80000000).setC unit true).completed unit

/-- PULL_WAIT_END: a tick begins with a word in IN. -/
def execPullWaitEnd (unit : Nat) (s : State) : Host.Outcome State Fault Refusal :=
  run s fun h =>
    match (h.eng unit).wait with
    | .pull d => if h.waitMayEnd unit ∧ (h.eng unit).inq ≠ [] then (h.pullWord unit d).waitOver unit else h
    | _ => h

/-- Whether OUT has room. -/
def Hub.outRoom (h : Hub) (e : Nat) : Bool := decide ((h.outQueue e).length < h.queueDepth e)

/-- PUSH. -/
def execPush (unit : Nat) (s : State) : Host.Outcome State Fault Refusal :=
  instruction 0x25 unit s fun h w =>
    let v := h.wreg unit (sOf w)
    if h.outRoom unit then ((h.storeOut unit v).setC unit false).completed unit
    else if bitOf w 0 then h.waitFor unit (.push v) 1
    else ((h.inc (pPrs unit) PRS.PUSH_LOST_COUNT).setC unit true).completed unit

/-- PUSH_WAIT_END: a tick begins with room in OUT. -/
def execPushWaitEnd (unit : Nat) (s : State) : Host.Outcome State Fault Refusal :=
  run s fun h =>
    match (h.eng unit).wait with
    | .push v => if h.waitMayEnd unit ∧ h.outRoom unit then ((h.storeOut unit v).setC unit false).waitOver unit else h
    | _ => h

/-- PUB: the word stands once the instruction's tick has passed (R414). -/
def execPub (unit : Nat) (s : State) : Host.Outcome State Fault Refusal :=
  instruction 0x26 unit s fun h w => (h.doAfter unit 1 (.publish (h.wreg unit (sOf w)))).completed unit

/-- IRQ. -/
def execIrq (unit : Nat) (s : State) : Host.Outcome State Fault Refusal :=
  instruction 0x27 unit s fun h w => (h.irq (pPrs unit) (4 + slice w 0 2)).completed unit

/-! ### Action slots (R410 to R412) -/

/-- A slot fires: its output pins change, its fired flag is set with EVT, and whether the firing was taken on the fall-back path is kept (R14, R410, R412). -/
def Hub.fireSlot (h : Hub) (e n : Nat) (x : Slot) : Hub :=
  let h := (h.freeSlot e n).changePins e x.mask x.val
  let h := h.setEng e (fun s => { s with fbSlots := putBit s.fbSlots n h.onFallBack })
  let f := h.flagsOf e
  if x.evt then h.setFlags e (withBit f.1 n, f.2) else h

/-- A refusal by ARMT or ARMP: counted, the slot disarmed, C = 1 (R411). -/
def Hub.armRefused (h : Hub) (e n : Nat) : Hub := (((h.freeSlot e n).inc (pPrs e) PRS.ACT_REF_COUNT).setC e true).completedIn e 2

/-- ARMT: an instant that has passed fires at once and is late, one 2^40 ticks or more ahead is refused (R410). -/
def execArmt (unit : Nat) (s : State) : Host.Outcome State Fault Refusal :=
  instruction 0x28 unit s fun h w =>
    let n := slice w 22 4
    let t := h.wpair unit (slice w 19 3)
    let ahead := (t + 2 ^ 64 - h.now % 2 ^ 64) % 2 ^ 64
    let x : Slot := { at_ := t, evt := bitOf w 18, mask := slice w 8 8, val := slice w 0 8 }
    if 2 ^ 40 ≤ ahead ∧ ahead < 2 ^ 63 then h.armRefused unit n
    else
      let h := { h with slots := Map.set h.slots (unit * 16 + n) x }
      let h := if 2 ^ 63 ≤ ahead then
          let h := (h.inc (pPrs unit) PRS.LATE_COUNT).irq (pPrs unit) 3
          if h.modeEff = .armed then h.dropSlot unit n true else h.fireSlot unit n x
        else h
      (h.setC unit false).completedIn unit 2

/-- ARMP (R411). -/
def execArmp (unit : Nat) (s : State) : Host.Outcome State Fault Refusal :=
  instruction 0x29 unit s fun h w =>
    let n := slice w 22 4
    let sr := slice w 19 3
    let desc := h.wreg unit (slice w 16 3)
    let k := slice desc 28 4
    let b : PosBind := { track := k, prof := slice desc 26 2, policy := slice desc 24 2, measure := bitOf desc 23, target := h.wpair unit sr % 2 ^ 48 }
    if !h.followed k || b.policy == 3 || slice desc 16 6 != 0 then h.armRefused unit n
    else if h.targetRefused k b.target then (h.inc (pTrk k) TRK.TGT_REFUSED_COUNT).armRefused unit n
    else
      let x : Slot := { pos := some b, evt := bitOf desc 22, mask := slice desc 8 8, val := slice desc 0 8 }
      let h := { h with slots := Map.set h.slots (unit * 16 + n) x }
      ((h.admitAct (128 + unit) n b).setC unit false).completedIn unit 2

/-- The instant of a slot: its own, or F of a positional one. -/
def Slot.instant (x : Slot) : Option Nat :=
  match x.pos with
  | none => some x.at_
  | some b => b.fire

/-- ACTION_SLOT_FIRE: a slot's instant has come; in Armed it is discarded instead (R80, R218, R410, R411). -/
def execActionSlotFire (unit slot : Nat) (s : State) : Host.Outcome State Fault Refusal :=
  run s fun h =>
    match Map.find h.slots (unit * 16 + slot) with
    | none => h
    | some x =>
      match x.instant with
      | none => h
      | some i =>
        if !due h.now i then h
        else if h.modeEff = .armed then h.dropSlot unit slot true
        else
          match x.pos with
          | none => h.fireSlot unit slot x
          | some b =>
            if h.mayFire b then
              let late := passed h.now i
              let h := if late then (h.inc (pPrs unit) PRS.LATE_COUNT).irq (pPrs unit) 3 else h
              (h.fireSlot unit slot x).countFire b late
            else (h.dropSlot unit slot false).inc (pTrk b.track) TRK.POL_DROP_COUNT

/-- Whether a fired or dropped flag of a mask is set. -/
def Hub.anyFlag (h : Hub) (e mask : Nat) : Bool := ((h.flagsOf e).1 ||| (h.flagsOf e).2) &&& mask != 0

/-- The flags of a mask returned in Wd and cleared (R412). -/
def Hub.takeFlags (h : Hub) (e d mask : Nat) : Hub :=
  let f := h.flagsOf e
  let a := f.1 &&& mask
  let b := f.2 &&& mask
  (h.setW e d (a + 2 ^ 16 * b)).setFlags e (f.1 - a, f.2 - b)

/-- WAITE. -/
def execWaite (unit : Nat) (s : State) : Host.Outcome State Fault Refusal :=
  instruction 0x2A unit s fun h w =>
    if h.anyFlag unit (slice w 0 16) then (h.takeFlags unit (dOf w) (slice w 0 16)).completed unit
    else h.waitFor unit (.events (dOf w) (slice w 0 16)) 1

/-- WAITE_END: a tick begins with a flag of the mask set. -/
def execWaiteEnd (unit : Nat) (s : State) : Host.Outcome State Fault Refusal :=
  run s fun h =>
    match (h.eng unit).wait with
    | .events d mask => if h.waitMayEnd unit ∧ h.anyFlag unit mask then (h.takeFlags unit d mask).waitOver unit else h
    | _ => h

/-- CANCEL: the slots of the mask are disarmed without a flag. -/
def execCancel (unit : Nat) (s : State) : Host.Outcome State Fault Refusal :=
  instruction 0x2B unit s fun h w =>
    ((List.range 16).foldl (fun g n => if bitOf w n then g.freeSlot unit n else g) h).completed unit

/-! ### Positions (R407, R408) -/

/-- A position, state and age as TPOS and TNOW return them. -/
def posPair (x : Nat × Nat × Nat) : Nat := x.1 % 2 ^ 48 + 2 ^ 48 * (x.2.1 % 8) + 2 ^ 56 * (x.2.2 % 256)

/-- A pair whose value the manual leaves open, with C = 1. -/
def Hub.openPair (h : Hub) (e d n : Nat) : Hub :=
  let (v, h) := h.fresh
  ((h.setPair64 e d v).setC e true).completedIn e n

/-- A position, state and age put into a pair, with C = 0; the position of a Track that has accepted no sample is open (R210). -/
def Hub.answerPos (h : Hub) (e d n : Nat) (r : Option Nat × Nat × Nat) : Hub :=
  let x := match r.1 with
    | some x => (x, h)
    | none => h.fresh
  ((x.2.setPair64 e d (posPair (x.1, r.2.1, r.2.2))).setC e false).completedIn e n

/-- TPOS: the position latched with the stamp; with none latched C is 1 and the manual leaves the pair open. -/
def execTpos (unit : Nat) (s : State) : Host.Outcome State Fault Refusal :=
  instruction 0x2C unit s fun h w =>
    match (h.eng unit).stamp with
    | some x =>
      (match x.pos with
       | some r => h.answerPos unit (dOf w) 1 r
       | none => h.openPair unit (dOf w) 1)
    | none => h.openPair unit (dOf w) 1

/-- TNOW: p(t) of a Track now, its state and age; of one that is not followed C is 1 and the pair is open, and so is the position of a
followed Track without a sample. -/
def execTnow (unit : Nat) (s : State) : Host.Outcome State Fault Refusal :=
  instruction 0x2D unit s fun h w =>
    let k := slice w 0 4
    if !h.followed k then h.openPair unit (dOf w) 3
    else h.answerPos unit (dOf w) 3 (h.captureTrack k (h.now8 % 2 ^ 64))

end Sys2Proof.Machine
end

