-- ==== Sys2Proof/Machine/Channels.lean ====
section
/-!
DEFINITION. The commands of the channel cells and banks: edges, outputs, the timed-action queue, captures, counts and supplies (R327 to R360).
Where the manual is open: DEDUCED, log entry 38.
-/
namespace Sys2Proof.Machine

open Reg

/-! ### The input path (R334, R335) -/

/-- The length that the glitch filter of a channel asks of a raw level, in 2 ns grid points (R334). -/
def Hub.filterLength (h : Hub) (c : Nat) : Nat := h.cfg (pCh c) CH.CFG_FILT_LEN * (if h.cfgOn (pCh c) CH.CFG_FILT_UNIT then 500 else 2)

/-- Whether the raw level has held as long as the glitch filter of a channel asks (R334). -/
def Hub.filterDone (h : Hub) (c : Nat) : Bool :=
  match (h.ch c).measuring with
  | some x => decide (h.filterLength c ≤ h.clock - x.at_)
  | none => false

/-- Whether an edge selector of two bits takes an edge: bit 0 rising, bit 1 falling (R336, R337, R350). -/
def takesEdge (sel : Nat) (rising : Bool) : Bool := if rising then bitOf sel 0 else bitOf sel 1

/-- A capture: the last capture and, unless it is full, the FIFO; its Track position is that of the raw edge (R210, R336). -/
def Hub.capture (h : Hub) (c : Nat) (x : RawEdge) (rising : Bool) : Hub :=
  let p := pCh c
  if !takesEdge (h.cfg p CH.CFG_CAP_EDGE) rising then h
  else
    let pos := if h.cfgOn p CH.CFG_CAP_POS then some (x.sight (h.cfg p CH.CFG_CAP_TRACK)) else none
    let e : CapEntry := { stamp := x.stamp % 2 ^ 64, level := rising, fb := x.fb, pos := pos }
    let h := (h.setCh c (fun s => { s with last := some e })).irq p 0
    if 16 ≤ (h.ch c).fifo.length then h.inc p CH.CAP_OVF_COUNT
    else h.setCh c (fun s => { s with fifo := s.fifo ++ [e] })

/-- A counted edge outside quadrature mode (R337). -/
def Hub.countEdge (h : Hub) (c : Nat) (rising : Bool) : Hub :=
  let p := pCh c
  if !takesEdge (h.cfg p CH.CFG_CNT_EDGE) rising then h
  else
    let cycle := h.clock / 2
    (h.put p CH.CNT_COUNT (h.get p CH.CNT_COUNT + 1)).setCh c (fun s =>
      { s with counted := (cycle, if s.counted.1 = cycle then s.counted.2 + 1 else 1) })

/-- The edges that CNT has counted in the present 250 MHz cycle (R337). -/
def Hub.countedNow (h : Hub) (c : Nat) : Nat := if (h.ch c).counted.1 = h.clock / 2 then (h.ch c).counted.2 else 0

/-- An edge of a quadrature pair: up when A leads B, down when B leads A (R339). -/
def Hub.countPair (h : Hub) (c stamp : Nat) : Hub :=
  let a := c - c % 2
  let differ := (h.ch a).filt != (h.ch (a + 1)).filt
  let up := if c = a then differ else !differ
  let n := h.get (pCh a) CH.CNT_COUNT
  (h.setPair a (if up then n + 1 else n + 2 ^ 32 - 1)).setCh a (fun s => { s with edges := (stamp, up) :: s.edges.take 1 })

/-- Both inputs of a pair changed in one cycle: QUAD_ERR, and ENC_ERR for a Track whose source the pair is (R226, R339). -/
def Hub.pairError (h : Hub) (a : Nat) : Hub :=
  let h := (h.inc (pCh a) CH.QUAD_ERR_COUNT).raise (pCh a) 1
  (List.range 16).foldl (fun g k =>
    if g.followed k ∧ g.isSource k ∧ g.cfg (pTrk k) TRK.SRC_CFG_TYPE = 1 ∧ g.cfg (pTrk k) TRK.SRC_CFG_QCH = a then g.encoderError k
    else g) h

/-- The event of a local reaction on its destination (R350). -/
def Hub.reactEvent (h : Hub) (d : Nat) (level : Bool) : Hub :=
  let width := h.cfg (pCh d) CH.REACT_WIDTH
  match h.cfg (pCh d) CH.REACT_ACT with
  | 0 => h.levelEvent d 1 (fun _ => true) none
  | 1 => h.levelEvent d 1 (fun _ => false) none
  | 2 => h.levelEvent d 1 (fun _ => level) none
  | 3 => h.levelEvent d 1 (fun _ => !level) none
  | 4 => h.levelEvent d 1 (fun l => !l) none
  | 5 => h.levelEvent d 1 (fun _ => true) (h.pulseEnd 1 true width)
  | 6 => h.levelEvent d 1 (fun _ => false) (h.pulseEnd 1 false width)
  | _ => h

/-- The reactions that an edge of a channel sets off (R350). -/
def Hub.react (h : Hub) (c : Nat) (rising : Bool) : Hub :=
  (List.range 128).foldl (fun g d =>
    let p := pCh d
    if g.cfgOn p CH.REACT_EN ∧ g.cfg p CH.REACT_SRC = c ∧ g.chMode d = 1 ∧ (g.ch d).armed ∧
        takesEdge (g.cfg p CH.REACT_EDGE) rising ∧ !g.safeCond d then
      let g := ((g.reactEvent d rising).inc p CH.REACT_CNT_COUNT).irq p 2
      if g.cfgOn p CH.REACT_ONCE then g.setCh d (fun s => { s with armed := false }) else g
    else g) h

/-- The new level of a channel accepted by its filter: what follows where the input side runs (R331, R334 to R339, R350). -/
def Hub.acceptLevel (h : Hub) (c : Nat) (pair : Bool) : Hub :=
  match (h.ch c).measuring with
  | none => h
  | some x =>
    let runs := h.inputRuns c
    let h := h.setCh c (fun s => { s with filt := s.raw, measuring := none, changed := s.changed || runs })
    if !runs then h
    else
      let rising := (h.ch c).filt
      let h := if h.chMode c = 3 then (if pair then h else h.countPair c (x.stamp % 2 ^ 64)) else h.countEdge c rising
      ((((h.capture c x rising).react c rising).feedback c x.stamp rising).serialEdge c rising).prismEdge c x rising

/-- RAW_EDGE: the synchroniser shows a new level at the pin of a channel, or, as channel 128 + n, at CANn_RX (DESIGN CHOICE, log entry 26). A level whose filter is done is accepted first; then a return to the
filtered level is a glitch, and any other change starts the filter's measure (R334, R335). -/
def execRawEdge (channel : Nat) (level : Bool) (s : State) : Host.Outcome State Fault Refusal :=
  run s fun h =>
    if 128 ≤ channel then h.canEdge (channel - 128) level
    else
    let c := channel % 128
    let h := h.setCh c (fun x => { x with ball := level })
    let raw := level != h.cfgOn (pCh c) CH.CFG_INV_IN
    if !h.levelsFollow c || raw == (h.ch c).raw then h
    else
      let h := if h.filterDone c then h.acceptLevel c false else h
      if raw = (h.ch c).filt then (h.setCh c (fun x => { x with raw := raw, measuring := none })).inc (pCh c) CH.GLITCH_COUNT
      else h.setCh c (fun x => { x with raw := raw, measuring := some h.rawEdge })

/-- FILTERED_EDGE: the filter accepts the raw level once it has held for FILT_LEN; `withPair` says that the other input of a quadrature pair changes in the same
250 MHz cycle (R334, R339). -/
def execFilteredEdge (channel : Nat) (withPair : Bool) (s : State) : Host.Outcome State Fault Refusal :=
  run s fun h =>
    let c := channel % 128
    let other := if c % 2 = 0 then c + 1 else c - 1
    let illegal := withPair && h.chMode c == 3 && h.filterDone other && h.inputRuns c
    if !h.filterDone c then h
    else if illegal then (((h.acceptLevel c true).acceptLevel other true)).pairError (c - c % 2)
    else h.acceptLevel c false

/-! ### Outputs (R76, R341 to R344) -/

/-- A write to OUT: refused in Held; an event of source 4 in OUTPUT and PWM; nothing in any other mode (R76, R341, R344). -/
def Hub.writeOut (h : Hub) (c v : Nat) : Hub × Bool :=
  let p := pCh c
  let store (g : Hub) : Hub := (g.put p CH.OUT_DUTY (v / 2 ^ 16)).put p CH.OUT_LEVEL v
  if h.modeEff = .held then (h.inc pSys SYS.OUT_REFUSED_COUNT, false)
  else if h.chMode c = 1 then ((store h).levelEvent c 4 (fun _ => bitOf v 0) none, true)
  else if h.chMode c = 2 then ((store h).dutyEvent c 4 (slice v 16 16), true)
  else (h, true)

/-- The value that OUT reads. -/
def Hub.outWord (h : Hub) (c : Nat) : Nat := h.get (pCh c) CH.OUT_DUTY * 2 ^ 16 + h.get (pCh c) CH.OUT_LEVEL

/-- OUT_LEVEL: a write of OUT with a new LEVEL (R341). -/
def execOutLevel (req : Req) (channel : Nat) (level : Bool) (s : State) : Host.Outcome State Fault Refusal :=
  run s fun h => h.write req (pCh channel) 0x050
    (fun g => g.writeOut channel (g.get (pCh channel) CH.OUT_DUTY * 2 ^ 16 + flag level)) (h.outStatus true)

/-- OUT_DUTY: a write of OUT with a new DUTY (R344). -/
def execOutDuty (req : Req) (channel duty : Nat) (s : State) : Host.Outcome State Fault Refusal :=
  run s fun h => h.write req (pCh channel) 0x050
    (fun g => g.writeOut channel (duty % 2 ^ 16 * 2 ^ 16 + g.get (pCh channel) CH.OUT_LEVEL)) (h.outStatus true)

/-- Whether the level at a channel's pin differs from its driver's where the read-back check compares them: not open-drain, or open-drain and low
in OUTPUT (R343). -/
def Hub.readBackRuns (h : Hub) (c : Nat) : Bool :=
  let p := pCh c
  let od := h.cfgOn p CH.CFG_OD
  let safe := h.cfg p CH.CFG_SAFE
  let enabled := !h.safeNow c || safe == 1 || safe == 2
  let high := if h.safeNow c then safe == 2 else if h.chMode c = 2 then h.pwmLevel c else (h.ch c).level
  h.pinPowered c && enabled && (h.ch c).ball != high && ((h.chMode c == 1 && (!od || !high)) || (h.chMode c == 2 && !od))

/-- READBACK: the pin has differed from the driven level for 1 µs (R343). -/
def execReadback (channel : Nat) (s : State) : Host.Outcome State Fault Refusal :=
  run s fun h =>
    if channel < 128 ∧ h.readBackRuns channel then (h.inc (pCh channel) CH.READBACK_COUNT).raise (pCh channel) 0 else h

/-- PWM_PERIOD: a period starts, at a multiple of its length in ring time, and a duty set in an earlier one takes effect (R344). -/
def execPwmPeriod (channel : Nat) (s : State) : Host.Outcome State Fault Refusal :=
  run s fun h =>
    match (h.ch channel).nextDuty with
    | some (d, period) =>
      if h.chMode channel = 2 ∧ h.pwmNumber channel ≠ period then h.setCh channel (fun s => { s with duty := d, nextDuty := none }) else h
    | none => h

/-! ### The timed-action queue (R345 to R349) -/

/-- Whether the words of an entry are refused in Q_REF whatever its target (R346). -/
def Hub.entryRefused (h : Hub) (c : Nat) (e : QEntry) : Bool :=
  let mode := h.chMode c
  let pos := bitOf e.qe0 31
  !(mode == 1 || mode == 2) || (mode == 1 && e.op == 3) || (mode == 2 && decide (e.op < 3)) || decide (4 ≤ e.op)
    || slice e.qe0 19 2 == 3 || (e.op == 2 && e.value == 0) || slice e.qe0 16 2 != 0 || (pos && e.qe2 / 2 ^ 16 != 0)
    || (pos && !h.followed (slice e.qe0 23 4))
    || (!pos && (let d := (e.qe1 + 2 ^ 32 * e.qe2 + 2 ^ 64 - h.now % 2 ^ 64) % 2 ^ 64; decide (2 ^ 40 ≤ d) && decide (d < 2 ^ 63)))

/-- What an entry's words bind (R211). -/
def bindOf (qe0 qe1 qe2 : Nat) : PosBind :=
  { track := slice qe0 23 4, prof := slice qe0 21 2, policy := slice qe0 19 2, measure := bitOf qe0 18
    target := qe1 + 2 ^ 32 * (qe2 % 2 ^ 16) }

/-- A push (R346): refused in the cases of the table, in its order, each with its counter. -/
def Hub.pushEntry (h : Hub) (c tag : Nat) : Hub × Bool :=
  let p := pCh c
  let n := (h.ch c).pushes
  let q0 := h.get p CH.QE0_WORD
  let q1 := h.get p CH.QE1_WORD
  let q2 := h.get p CH.QE2_WORD
  let b := bindOf q0 q1 q2
  let e : QEntry := { number := n, qe0 := q0, qe1 := q1, qe2 := q2, tag := tag % 2 ^ 16, pos := if bitOf q0 31 then some b else none }
  if h.modeEff = .held then (h.inc pSys SYS.OUT_REFUSED_COUNT, false)
  else if 16 ≤ (h.ch c).queue.length then (h.inc p CH.Q_FULL_COUNT, false)
  else if h.entryRefused c e then (h.inc p CH.Q_REF_COUNT, false)
  else if bitOf q0 31 && h.targetRefused b.track b.target then (h.inc (pTrk b.track) TRK.TGT_REFUSED_COUNT, false)
  else if h.fenced p then (h.inc p CH.Q_REF_COUNT, false)
  else
    let h := h.setCh c (fun s => { s with queue := s.queue ++ [e], pushes := n + 1 })
    (match e.pos with
     | some b => h.admitAct c n b
     | none => h, true)

/-- QE3: the write pushes the entry (R346). -/
def execQE3 (req : Req) (channel tag : Nat) (s : State) : Host.Outcome State Fault Refusal :=
  run s fun h => h.write req (pCh channel) 0x078 (fun g => g.pushEntry channel tag) (h.outStatus true)

/-- The entry that fires next: of those due, the one whose instant is longest past, ties in push order (R347). -/
def Hub.dueEntry (h : Hub) (c : Nat) : Option (QEntry × Nat) :=
  (h.ch c).queue.foldl (fun a e =>
    match e.instant with
    | none => a
    | some i =>
      if !due h.now i then a
      else
        match a with
        | none => some (e, i)
        | some (b, j) => if tickDiff i j < 0 then some (e, i) else some (b, j)) none

/-- The event of an entry (R345, R348). -/
def Hub.entryEvent (h : Hub) (c : Nat) (e : QEntry) : Hub :=
  match e.op with
  | 0 => h.levelEvent c 2 (fun _ => e.lvl) none
  | 1 => h.levelEvent c 2 (fun l => !l) none
  | 2 => h.levelEvent c 2 (fun _ => e.lvl) (h.pulseEnd 2 e.lvl e.value)
  | _ => h.dutyEvent c 2 e.value

/-- An entry fires: it leaves the queue, its event acts, and the cell records it (R347). -/
def Hub.fireEntry (h : Hub) (c : Nat) (e : QEntry) (late : Bool) : Hub :=
  let p := pCh c
  let pos := bitOf e.qe0 31
  let info := e.tag * 2 ^ 16 + flag late * 2 ^ 15 + flag (!h.mainInUse) * 2 ^ 14 + flag pos * 2 ^ 13
  let now := h.now % 2 ^ 64
  let h := (h.takeEntry c e.number).entryEvent c e
  let h := h.setCh c (fun s => { s with fired := (info, now % 2 ^ 32, now / 2 ^ 32) })
  let h := if late then (h.inc p CH.LATE_COUNT).irq p 1 else h
  match e.pos with
  | some b => h.countFire b late
  | none => h

/-- QUEUE_ENTRY_FIRE: an entry's instant has come; in Armed it is discarded instead (R80, R218, R347, R349). -/
def execQueueEntryFire (channel : Nat) (s : State) : Host.Outcome State Fault Refusal :=
  run s fun h =>
    match h.dueEntry channel with
    | none => h
    | some (e, i) =>
      if h.modeEff = .armed then h.dropEntry channel e.number true
      else
        match e.pos with
        | none => h.fireEntry channel e (passed h.now i)
        | some b =>
          if h.mayFire b then h.fireEntry channel e (passed h.now i)
          else (h.dropEntry channel e.number false).inc (pTrk b.track) TRK.POL_DROP_COUNT

/-- PENDING_END: a pulse's pending end falls due (R348). -/
def execPendingEnd (channel : Nat) (s : State) : Host.Outcome State Fault Refusal :=
  run s fun h =>
    match (h.ch channel).ending with
    | none => h
    | some (src, level, i) => if due h.now i then h.levelEvent channel src (fun _ => level) none else h

/-! ### CTL, captures and counts (R336, R337, R340, R349, R350, R356) -/

/-- The reaction of a channel armed again (R350). -/
def Hub.rearm (h : Hub) (c : Nat) : Hub := h.setCh c (fun s => { s with armed := h.cfgOn (pCh c) CH.REACT_EN })

/-- Capture entries consumed, oldest first (R336). -/
def Hub.consumeCaptures (h : Hub) (c n : Nat) : Hub :=
  h.setCh c (fun s => { s with fifo := s.fifo.drop n, head := (s.head + n) % 16 })

/-- The capture FIFO emptied (R356). -/
def Hub.emptyCaptures (h : Hub) (c : Nat) : Hub := h.consumeCaptures c (h.ch c).fifo.length

/-- A write of CTL (R349, R350, R356). -/
def Hub.writeCtl (h : Hub) (c v : Nat) : Hub :=
  let h := if bitOf v 0 then h.flushQueue c false else h
  let h := if bitOf v 1 then h.rearm c else h
  if bitOf v 2 then h.emptyCaptures c else h

/-- FLUSH. -/
def execFlush (req : Req) (channel : Nat) (s : State) : Host.Outcome State Fault Refusal :=
  run s fun h => h.writeDo req (pCh channel) 0x04C fun g => g.writeCtl channel 1

/-- REARM. -/
def execRearm (req : Req) (channel : Nat) (s : State) : Host.Outcome State Fault Refusal :=
  run s fun h => h.writeDo req (pCh channel) 0x04C fun g => g.writeCtl channel 2

/-- CAP_CLR. -/
def execCapClr (req : Req) (channel : Nat) (s : State) : Host.Outcome State Fault Refusal :=
  run s fun h => h.writeDo req (pCh channel) 0x04C fun g => g.writeCtl channel 4

/-- A write of CAP_ACK; more than the FIFO holds consumes nothing and is an error (R336). -/
def Hub.writeCapAck (h : Hub) (req : Req) (c n : Nat) : Hub × Bool :=
  if n ≤ (h.ch c).fifo.length then (h.consumeCaptures c n, true) else (h.accErr req (pCh c) 0x068, false)

/-- CAP_ACK. -/
def execCapAck (req : Req) (channel n : Nat) (s : State) : Host.Outcome State Fault Refusal :=
  run s fun h => h.write req (pCh channel) 0x068 fun g => g.writeCapAck req channel (n % 32)

/-- Whether a channel belongs to the pair of a Track in ROLE source (R340). -/
def Hub.sourcePair (h : Hub) (c : Nat) : Bool :=
  (List.range 16).any (fun k => h.followed k && h.isSource k && h.cfg (pTrk k) TRK.SRC_CFG_TYPE == 1 &&
    h.cfg (pTrk k) TRK.SRC_CFG_QCH == c - c % 2)

/-- A write of CNT; the edges counted in the same 250 MHz cycle are added to the value written (R337, R339, R340). -/
def Hub.writeCount (h : Hub) (c v : Nat) : Hub × Bool :=
  if h.chMode c = 3 then (if h.sourcePair c then (h, false) else (h.setPair (c - c % 2) v, true))
  else (h.put (pCh c) CH.CNT_COUNT (v + h.countedNow c), true)

/-- CNT. -/
def execCnt (req : Req) (channel value : Nat) (s : State) : Host.Outcome State Fault Refusal :=
  run s fun h => h.write req (pCh channel) 0x058 fun g => g.writeCount channel value

/-- What a channel's last capture shows: CAP_LO, CAP_HI and CAP_INFO (R356). -/
def Hub.captureWords (h : Hub) (c : Nat) : Nat × Nat × Nat :=
  let s := h.ch c
  let tail := s.fifo.length * 2 ^ 8 + s.head
  match s.last with
  | none => (0, 0, tail)
  | some e => (e.stamp % 2 ^ 32, e.stamp / 2 ^ 32 % 2 ^ 32, 2 ^ 31 + flag e.level * 2 ^ 30 + flag e.fb * 2 ^ 29 + tail)

/-- A read of CAP_LO latches CAP_HI and CAP_INFO (R356). -/
def Hub.readCapture (h : Hub) (c : Nat) : Nat × Hub :=
  let p := pCh c
  let w := h.captureWords c
  let i := w.2.2
  let h := ((h.put p CH.CAP_LO_TLO w.1).put p CH.CAP_HI_THI w.2.1).put p CH.CAP_INFO_VALID (i / 2 ^ 31)
  (w.1, (((h.put p CH.CAP_INFO_LEVEL (i / 2 ^ 30)).put p CH.CAP_INFO_FB (i / 2 ^ 29)).put p CH.CAP_INFO_COUNT (i / 2 ^ 8)).put
    p CH.CAP_INFO_HEAD i)

/-- CAP_LO. -/
def execCapLo (req : Req) (channel : Nat) (s : State) : Host.Outcome State Fault Refusal :=
  run s fun h => h.read req (pCh channel) 0x05C fun g => g.readCapture channel

/-- A read of FIRE_INFO latches FIRE_LO and FIRE_HI (R356). -/
def Hub.readFire (h : Hub) (c : Nat) : Nat × Hub :=
  let f := (h.ch c).fired
  (f.1, (h.put (pCh c) CH.FIRE_LO_TLO f.2.1).put (pCh c) CH.FIRE_HI_THI f.2.2)

/-- FIRE_INFO. -/
def execFireInfo (req : Req) (channel : Nat) (s : State) : Host.Outcome State Fault Refusal :=
  run s fun h => h.read req (pCh channel) 0x07C fun g => g.readFire channel

/-! ### Bank supplies (R329) -/

/-- SUPPLY_RANGE: a bank's supply, as last measured outside the window of its class, has stayed there for 1 ms (R329). -/
def execSupplyRange (bank : Nat) (s : State) : Host.Outcome State Fault Refusal :=
  run s fun h => if bank < 16 ∧ h.bankReads bank ∧ !inWindow (h.bankClass bank) (h.get (pBank bank) BANK.STAT_VMEAS) then h.raise (pBank bank) 1 else h

/-- BANK_MEASUREMENT: the monitor's 100 µs measurement (R329). -/
def execBankMeasurement (bank millivolts : Nat) (s : State) : Host.Outcome State Fault Refusal :=
  run s fun h => if bank < 16 then (h.setBankMv bank millivolts).measureBank bank else h

end Sys2Proof.Machine
end

