-- ==== Sys2Proof/Machine/Routed.lean ====
section
/-!
DEFINITION. Routed messages delivered to this node (R275, R277).
Where the manual is open: DEDUCED, log entry 23.
-/
namespace Sys2Proof.Machine

open Reg

/-- Whether an inbound entry of the route table accepts a message: by RID, SRC and TEN (R276, R277). -/
def Hub.inboundMatch (h : Hub) (e : Nat) (f : Frame) : Bool :=
  let w0 := h.routeWord e 0
  bitOf w0 31 && bitOf w0 30 && slice (h.routeWord e 3) 16 16 == f.field 0 2 && slice w0 16 3 == f.hdr.ten
    && (slice w0 0 12 == 0 || slice w0 0 12 == f.hdr.src)

/-- Whether a routed message has a data length that R275 allows. -/
def routedLenOk (f : Frame) : Bool :=
  let n := f.payload.length - 16
  decide (16 ≤ f.payload.length) && f.payload.length == f.hdr.len
    && (match f.field 2 1 % 4 with
        | 0 => decide (n ≤ 64)
        | 1 => decide (1 ≤ n) && decide (n ≤ 256)
        | _ => false)

/-- A message queued for transmission on the unit of an inbound entry (R277). -/
def Hub.routeIn (h : Hub) (e : Nat) (f : Frame) : Hub :=
  let w0 := h.routeWord e 0
  let w1 := h.routeWord e 1
  let keep := bitOf w0 20
  let lid := if keep then f.field 4 4 % 2 ^ 29 else slice w1 0 29
  let data := f.payload.drop 16
  if slice w0 28 2 = 0 then h.routeToCan (slice w0 24 4) (f.field 3 1) keep (if keep then bitOf (f.field 3 1) 0 else bitOf w1 31) lid data
  else h.routeToUart (slice w0 24 4) (lid % 65536) data

/-- ROUTED_MESSAGE: a delivered routed message is matched against the inbound entries and queued for transmission; a fenced bridge discards it
(R275, R277, R280). -/
def execRoutedMessage (frame : Frame) (s : State) : Host.Outcome State Fault Refusal :=
  run s fun h =>
    if frame.hdr.type ≠ 0x20 ∨ h.fenced pBrg then h
    else if !routedLenOk frame then h.inc pBrg BRG.BAD_REQ_COUNT
    else
      match (List.range 512).find? (fun e => h.inboundMatch e frame) with
      | none => h.inc pBrg BRG.RT_NOMATCH_COUNT
      | some e => h.routeIn e frame

end Sys2Proof.Machine
end

