-- ==== Sys2Proof/Machine/Switch.lean ====
section
/-!
DEFINITION. The switch core's commands: admission, the Lens, DRAM training, mirror copies, and the refill of the tenants' tokens
(R283 to R309, R315).
Where the manual is open: DEDUCED, log entry 22.
-/
namespace Sys2Proof.Machine

open Reg

/-! ### Classification, meters and random early drop (R292 to R294) -/

/-- The fields of classifier entry `e`: MEN, METER and QUEUE. -/
def clsMen (e : Nat) : Fld := ⟨0x10000 + 4 * e, 31, 1, .stg, 0⟩
def clsMeter (e : Nat) : Fld := ⟨0x10000 + 4 * e, 12, 8, .stg, 0⟩
def clsQueue (e : Nat) : Fld := ⟨0x10000 + 4 * e, 0, 4, .stg, 0⟩

/-- The classifier entry of a frame: its port of arrival, its tenant index and its band (R292). -/
def classIndex (a : Arrival) : Nat := a.ingress * 36 + min a.frame.hdr.ten 8 * 4 + a.pri / 2

/-- The Bulk queue and the meter of a frame; while QOS is fenced, queue 0 and no meter (R292, R305). -/
def Hub.classify (h : Hub) (a : Arrival) : Nat × Option Nat :=
  if h.fenced pQos then (0, none)
  else
    let e := classIndex a
    (a.queue.getD (h.cfg pQos (clsQueue e)), if h.cfgOn pQos (clsMen e) then some (h.cfg pQos (clsMeter e)) else none)

/-- A frame of `b` bytes coloured by a meter, 0 green, 1 yellow, 2 red, and the meter after it (RFC 2698, colour-blind; R293). -/
def Hub.meter (h : Hub) (m b : Nat) : Nat × Hub :=
  let capC := h.cfg pQos (mtrCbs m) * 64 * 40000
  let capP := h.cfg pQos (mtrPbs m) * 64 * 40000
  let x := h.refill m
  let n := b * 40000
  let colour := if capP < x.lackP + n then 2 else if capC < x.lackC + n then 1 else 0
  let y : Meter := { x with lackC := if colour = 0 then x.lackC + n else x.lackC, lackP := if colour = 2 then x.lackP else x.lackP + n }
  let key := m * 4 + colour
  (colour, h.setSw (fun s => { s with
    meters := Map.put s.meters m {} y, meterCounts := Map.put s.meterCounts key 0 (satAdd 32 (Map.getD s.meterCounts key 0) 1) }))

/-- The average depth of a queue after one more admission decision (R294). -/
def Average.next (a : Average) (depth wq : Nat) : Average :=
  let num := a.num * (2 ^ wq - 1) + depth * 2 ^ a.exp
  if num = 0 then {} else { num := num, exp := a.exp + wq }

/-- A queue's average depth after one more admission decision for it (R294). -/
def Hub.averageDepth (h : Hub) (key : Nat) : Hub :=
  let a := (Map.getD h.sw.averages key {}).next (cellSum (h.ofQueue key)) (h.cfg pQos QOS.RED_WQ_WQ)
  h.setSw (fun s => { s with averages := Map.put s.averages key {} a })

/-- Random early drop: whether a frame of a colour is dropped at the queue's average, and the hub with the generator's next draw (R294).
The draw is a free value: the manual names a generator and not its law. -/
def Hub.earlyDrop (h : Hub) (key colour : Nat) : Bool × Hub :=
  let a := Map.getD h.sw.averages key {}
  let lo := h.cfg pQos (QOS.RED_MIN_MIN colour) * 2 ^ a.exp
  let hi := h.cfg pQos (QOS.RED_MAX_MAX colour) * 2 ^ a.exp
  if a.num < lo then (false, h)
  else if hi ≤ a.num then (true, h)
  else
    let d := h.fresh
    (decide (d.1 % 65536 * 256 * (hi - lo) < h.cfg pQos (QOS.RED_P_MAXP colour) * (a.num - lo) * 65536), d.2)

/-- A drop count of a queue. -/
def bumpCount (m : Map Nat) (key : Nat) : Map Nat := Map.put m key 0 (satAdd 32 (Map.getD m key 0) 1)

/-- A tail drop (R288, QOS.QD_TAIL_DROP). -/
def Hub.tailDrop (h : Hub) (key : Nat) : Hub := (h.setSw (fun s => { s with tailDrops := bumpCount s.tailDrops key })).irq pQos 0

/-- What the admitted frame of an arrival becomes: on its way to its queue if it is whole, kept for while it is received, and nothing if it fails
its checks, its cells being freed (R288). -/
def Hub.reserve (h : Hub) (egress queue : Nat) (a : Arrival) (q : QFrame) : Hub :=
  match a.part with
  | .whole => (h.spill egress q).toVoq egress queue q
  | .header => h.setSw (fun s => { s with opening := s.opening ++ [(queueKey egress queue, q)] })
  | .bad => h

/-- A frame placed for its queue within the queue's limit and the room of R289: steps 5 and 6 of R288. `turned` marks one that this node turned back. -/
def Hub.enqueue (h : Hub) (egress queue : Nat) (a : Arrival) (turned twin : Bool) : Hub × Bool :=
  let key := queueKey egress queue
  if h.cfg pQos (QOS.QLIM_CELLS queue) < cellSum (h.ofQueue key) + a.frame.cells then (h.tailDrop key, false)
  else
    match h.place key a.frame.cells with
    | none => (h.tailDrop key, false)
    | some d =>
      (h.reserve egress queue a { frame := a.frame, cells := a.frame.cells, slots := d, since := h.clock, ingress := a.ingress, stamp := a.stamp,
                                  turned := turned, twin := twin }, true)

/-- A Bulk frame admitted to an egress port or discarded, by the steps of R288. -/
def Hub.admitTo (h : Hub) (egress : Nat) (a : Arrival) (turned twin : Bool) : Hub × Bool :=
  let c := h.classify a
  let key := queueKey egress c.1
  if h.fenced pQos then h.enqueue egress c.1 a turned twin
  else
    let m := match c.2 with
      | some m => h.meter m a.frame.size
      | none => (0, h)
    let h := m.2.averageDepth key
    if h.shedding ∧ h.cfg pQos QOS.SHED_LIM_CELLS < cellSum (h.ofQueue key) then (h.inc pSw SW.SHED_DROP_COUNT, false)
    else
      let d := h.earlyDrop key m.1
      if d.1 then (d.2.setSw (fun s => { s with redDrops := bumpCount s.redDrops key }), false)
      else d.2.enqueue egress c.1 a turned twin

/-- A Bulk frame bound for a ring port: HOPS counts a node that carries it; where the port is not open, it turns back or ends (R120, R152, R159). -/
def Hub.admitRing (h : Hub) (egress : Nat) (a : Arrival) (twin : Bool) : Hub × Bool :=
  let f : Frame := if a.ingress < 2 then { a.frame with hdr := a.frame.hdr.hop } else a.frame
  let x := f.hdr
  if h.portOpen egress then h.admitTo egress { a with frame := f } false twin
  else if x.wrapped then (h.inc pTopo TOPO.WRAP_DROP_COUNT, false)
  else if x.group ∨ x.dst = 4095 then (h.inc pTopo TOPO.END_DROP_COUNT, false)
  else if h.portOpen (other egress) then h.admitTo (other egress) { a with frame := { f with hdr := { x with wrapped := true } } } true twin
  else (h.inc pTopo TOPO.WRAP_DROP_COUNT, false)

/-- Whether the local Ethernet port takes frames for switch port 2 (R447, R459). -/
def Hub.etherOpen (h : Hub) : Bool :=
  h.on pEth ETH.STAT_LINK && !h.fenced pEth && !h.gated pEth && !h.on pEth ETH.STAT_WAKE_TX_BUSY

/-- A Bulk frame bound for a local port (R11, R447). -/
def Hub.admitLocal (h : Hub) (egress : Nat) (a : Arrival) : Hub :=
  if egress = 2 ∧ h.etherOpen = false ∧ a.frame.isEther then h.inc pEth ETH.TX_DOWN_COUNT else (h.admitTo egress a false false).1

/-- What the issuer of a Bulk frame learns at its admission: the want of a route, and a descriptor's outcome (R266, R475). -/
def Hub.admitted (h : Hub) (a : Arrival) (routed : Bool) : Hub :=
  let f := a.frame
  if f.hdr.type = 0x09 then
    (if routed then h
     else
       let i := f.hdr.tag % 256
       (h.freeRead i false).complete a.origin false true f.hdr.dst (addressOf f) 0x0C [])
  else
    match a.origin with
    | .dma q d => h.descriptorDone q d (if routed then 0 else 0x0C) []
    | o => if routed then h else h.complete o true true f.hdr.dst (addressOf f) 0x0C []

/-- A Bulk frame of this node given its flow and its direction, and admitted to the ring (R160, R161, R296 to R299). -/
def Hub.admitOwn (h : Hub) (a : Arrival) : Hub :=
  if h.nodeId = 0 then h.admitted a false
  else
    let h := h.syncLens
    let stream := h.lensStream a
    let flow := flowIndex stream
    let x : Header := { a.frame.hdr with src := h.nodeId, flow := flow, seq := 0, hops := 0, wrapped := false, dual := false, len := a.frame.payload.length }
    let p : Bool × Hub := h.pin flow x stream
    let r := p.2.steer x p.1
    let f : Frame := { a.frame with hdr := x }
    let h := (p.2.watch a.ingress false a.stamp f).watchFlow a.ingress a.stamp f
    match r with
    | ([], _) => (h.inc pTopo TOPO.NO_ROUTE_COUNT).admitted a false
    | (ports, n) =>
      let h := if n = 1 then h.inc pTopo TOPO.STEERED_COUNT else h
      let h := ports.foldl (fun g port =>
        let g := if ports.length = 1 then g.noteDirection flow port else g
        (g.admitRing port { a with frame := { f with hdr := { x with dir := port == 1 } } } (ports.length == 2)).1) h
      h.admitted a true

/-- A Bulk frame of this node that has no Lens direction is seen by the Periscope as it arrives (R300). -/
def Hub.watchArrival (h : Hub) (a : Arrival) : Hub :=
  if a.ingress < 2 then h else (h.watch a.ingress false a.stamp a.frame).watchFlow a.ingress a.stamp a.frame

/-- A Bulk frame that is bound for a port. -/
def Hub.admitAt (h : Hub) (a : Arrival) (egress : Nat) : Hub :=
  if egress < 2 then (h.admitRing egress a false).1 else h.admitLocal egress a

/-- A Bulk frame whose header has reached the switch core (R288, R305). -/
def Hub.admitFrame (h : Hub) (a : Arrival) : Hub :=
  if h.fenced pSw then h.fenceDrop 1
  else if a.egress = 8 then h.admitOwn a
  else
    let g := (h.watchArrival a).admitAt a a.egress
    match a.also with
    | some e => g.admitAt a e
    | none => g

/-- BULK_ADMISSION: the oldest Bulk frame whose header has reached the switch core; one whose start delimiter came before the last commit
instant under the configuration before it (R56). -/
def execBulkAdmission (s : State) : Host.Outcome State Fault Refusal :=
  run s fun h =>
    match h.sw.bulk with
    | [] => h
    | a :: q => (h.setSw (fun s => { s with bulk := q })).underPrior a.old (fun g => g.admitFrame a)

/-- An Express or Timed frame admitted within its port's share of the reserve, or dropped (R285, R287, R305, R447). -/
def Hub.admitXt (h : Hub) (a : Arrival) : Hub :=
  let p := a.egress
  if h.fenced pSw then h.fenceDrop 1
  else if p = 2 ∧ h.etherOpen = false then h.inc pEth ETH.TX_DOWN_COUNT
  else if h.cfg pSw SW.BUF_XT_PORT_MAX < h.xtPortCells p + a.frame.cells then h.dropXt p
  else h.toVoq p 0 { frame := a.frame, cells := a.frame.cells, since := h.clock, ingress := a.ingress, stamp := a.stamp }

/-- EXPRESS_ADMISSION: the oldest Express or Timed frame that has reached the switch core is admitted within its port's share of the reserve, and
its cells begin to move, or it is dropped; one whose start delimiter came before the last commit instant is judged by the configuration before it
(R56, R285, R287, R305). -/
def execExpressAdmission (s : State) : Host.Outcome State Fault Refusal :=
  run s fun h =>
    match h.sw.taps with
    | [] => h
    | a :: q =>
      (h.setSw (fun s => { s with taps := q })).underPrior a.old (fun g => g.admitXt a)

/-! ### The Lens (R298, R299) -/

/-- PIN_AGE: a pin entry that has not been used for PIN_AGE seconds becomes invalid (R298). -/
def execPinAge (flow : Nat) (s : State) : Host.Outcome State Fault Refusal :=
  run s fun h =>
    match Map.find h.sw.pins flow with
    | none => h
    | some p =>
      if p.used + h.cfg pSw SW.LENS_CFG_PIN_AGE * 500000000 ≤ h.clock then
        (h.setSw (fun w => { w with pins := Map.erase w.pins flow })).setTopo (fun t => { t with flowDir := Map.erase t.flowDir flow })
      else h

/-- LENS_EPOCH: ring time reaches a multiple of ROT_INT minutes; the salt changes (R299). -/
def execLensEpoch (s : State) : Host.Outcome State Fault Refusal := run s fun h => h.syncLens

/-! ### DRAM (R290, R305, R308) -/

/-- TRAINING_END: training passes or fails; `mr4` is the refresh code read from the device (R290). -/
def execTrainingEnd (passed : Bool) (mr4 : Nat) (s : State) : Host.Outcome State Fault Refusal :=
  run s fun h =>
    if h.get pDram DRAM.STAT_STATE ≠ 1 then h
    else
      let h := (h.put pDram DRAM.STAT_MR4 mr4).put pDram DRAM.OVF_CAP_CELLS h.overflowCap
      if passed then h.setDram 2 else (h.setDram 3).raise pDram 0

/-- DRAM_TIMEOUT: an access to the DRAM is not complete within 10 µs (R305). -/
def execDramTimeout (s : State) : Host.Outcome State Fault Refusal := run s fun h => h.raise pDram 2

/-! ### Registers -/

/-- The queue that QD_SEL selects. -/
def Hub.selectedQueue (h : Hub) : Nat := queueKey (h.get pQos QOS.QD_SEL_PORT) (h.get pQos QOS.QD_SEL_QUEUE)

/-- A read of QD_DEPTH: the depth, with QD_AVG and QD_DRAM latched (R307). -/
def Hub.readDepth (h : Hub) : Nat × Hub :=
  let key := h.selectedQueue
  let a := Map.getD h.sw.averages key {}
  let h := (h.put pQos QOS.QD_AVG_AVG (a.num / 2 ^ a.exp)).put pQos QOS.QD_DRAM_CELLS (dramCells (h.ofQueue key))
  (cellSum (h.ofQueue key) % 2 ^ 24, h)

/-- QD_DEPTH. -/
def execQdDepth (req : Req) (s : State) : Host.Outcome State Fault Refusal := run s fun h => h.read req pQos 0x144 Hub.readDepth

/-! ### Mirror copies (R301) -/

/-- MIRROR_COPY: a delivered mirror copy leaves by the local Ethernet port where RX_EN is 1, and is discarded and counted elsewhere. -/
def execMirrorCopy (frame : Frame) (s : State) : Host.Outcome State Fault Refusal :=
  run s fun h =>
    if frame.hdr.type ≠ 0x1A then h
    else if h.cfgOn pSw SW.PSC_RX_EN then
      h.arrive { ingress := 7, egress := 2, queue := some (h.cfg pSw SW.PSC_QUEUE),
                 frame := mirrorEtherFrame frame.hdr.ten (h.mirrorEther (frame.payload.take 9198)) }
    else h.inc pSw SW.PSC_DISCARD_COUNT

/-! ### Tokens (R315) -/

/-- The last grid point S(n) of R230 up to the present ring time, in ticks, by the committed CYCLE. -/
def Hub.gridPoint (h : Hub) : Nat := h.now / (500 * h.cfg pAtr ATR.CFG_CYCLE) * (500 * h.cfg pAtr ATR.CFG_CYCLE)

/-- TOKEN_REFILL: at S(n) every tenant's token count is set to XBUDGET, once for each grid point, and what waits is sent (R315). -/
def execTokenRefill (s : State) : Host.Outcome State Fault Refusal :=
  run s fun h =>
    if h.brg.refilled = some h.gridPoint then h
    else
      ((List.range 8).foldl (fun g t => g.put (pTen t) TEN.STAT_TOKENS (g.cfg (pTen t) TEN.XBUDGET_BYTES))
        (h.setBrg (fun b => { b with refilled := some h.gridPoint }))).pump

end Sys2Proof.Machine
end

