-- ==== Sys2Proof/Machine/Ethernet.lean ====
section
/-!
DEFINITION. The local Ethernet port: reception, filtering and dispatch, tunnelling, preemption, MDIO, the wake pattern (R446 to R461).
Where the manual is open: DEDUCED, log entry 25.
-/
namespace Sys2Proof.Machine

open Reg

/-! ### Reading an Ethernet frame -/

/-- The EtherType of a frame, past an IEEE 802.1Q tag, and the offset of what follows it. -/
def etherType (e : List Byte) : Nat × Nat :=
  if (vlanOf e).1 then (beNat ((e.drop 16).take 2), 18) else (beNat ((e.drop 12).take 2), 14)

/-- Whether a frame is PTP: EtherType 0x88F7, or IPv4 UDP to port 319 or 320 (R451). -/
def isPtp (e : List Byte) : Bool :=
  let t := etherType e
  let ip := e.drop t.2
  let b (i : Nat) : Nat := (ip.getD i 0).toNat
  let port := beNat ((ip.drop (4 * (b 0 % 16) + 2)).take 2)
  t.1 == 0x88F7 || (t.1 == 0x0800 && b 9 == 17 && (port == 319 || port == 320))

/-- An Ethernet address that is a group address: bit 0 of its first byte. -/
def isGroupMac (m : List Byte) : Bool := bitOf (m.getD 0 0).toNat 0

/-- The broadcast address. -/
def broadcastMac : List Byte := leBytes 6 (2 ^ 48 - 1)

/-- The two group addresses of PTP (R450). -/
def ptpMacs : List (List Byte) := [beBytes 6 0x011B19000000, beBytes 6 0x0180C200000E]

/-! ### Filtering and dispatch (R450, R451) -/

/-- What the filter makes of a destination address: dropped, or accepted with the EXACT entry that names its DST. -/
inductive Filtered where
  | drop
  | accept (entry : Option Nat)
deriving DecidableEq, Repr

/-- The address of an EXACT entry. -/
def Hub.exactMac (h : Hub) (i : Nat) : List Byte := macBytes (h.cfg pEth (ETH.EXACT_HI_ADDR i)) (h.cfg pEth (ETH.EXACT_LO_ADDR i))

/-- Whether a group address's bin is set in HASH (R450). -/
def Hub.hashHit (h : Hub) (m : List Byte) : Bool :=
  let b := crc32 m % 512
  bitOf (h.cfg pEth (ETH.HASH_BINS (b / 32))) (b % 32)

/-- The steps of R450; a step that does not accept decides nothing, and the next follows, but for an EXACT entry's (DEDUCED, log entry 25). -/
def Hub.filterMac (h : Hub) (m : List Byte) : Filtered :=
  match (List.range 32).find? (fun i => h.cfgOn pEth (ETH.EXACT_HI_EN i) && h.exactMac i == m) with
  | some i =>
    (match h.cfg pEth (ETH.EXACT_HI_ACTION i) with
     | 0 => .accept none
     | 1 => .accept (some i)
     | _ => .drop)
  | none =>
    if m = h.ownMac then .accept none
    else if m = broadcastMac ∧ h.cfgOn pEth ETH.CFG_BCAST_EN then .accept none
    else if h.cfgOn pTime TIME.PTP_CFG_EN ∧ ptpMacs.contains m then .accept none
    else if isGroupMac m ∧ h.hashHit m then .accept none
    else if h.cfgOn pEth ETH.CFG_PROMISC then .accept none
    else .drop

/-- A received frame tunnelled to the ring; `e` is the frame without its FCS (R452). -/
def Hub.tunnel (h : Hub) (e : List Byte) (entry : Option Nat) (express : Bool) (stamp : Nat) : Hub :=
  let v := vlanOf e
  let ten := h.cfg pEth ETH.TUN_TEN
  let payload := tunnelHeader e.length v.1 express v.2 stamp ++ e
  let g := match entry with
    | some i => (h.cfgOn pEth (ETH.EXACT_HI_GROUP i), h.cfg pEth (ETH.EXACT_HI_DST i))
    | none => (h.cfgOn pEth ETH.TUN_GROUP, h.cfg pEth ETH.TUN_DST)
  h.arrive { ingress := 2, egress := 8, pri := v.2,
             frame := { cls := .bulk, payload := payload,
                        hdr := { type := 0x18, ten := ten, group := g.1, dst := g.2, len := payload.length } } }

/-- An accepted frame dispatched; `e` is the frame without its FCS (R447, R451, R547). -/
def Hub.dispatchEther (h : Hub) (e : List Byte) (entry : Option Nat) (express : Bool) (stamp : Nat) : Hub :=
  let own := e.take 6 == h.ownMac
  let cellar := h.mode == .cellar
  let t := (etherType e).1
  let fb := h.onFallBack
  let ok (h : Hub) : Hub := h.inc pEth ETH.RX_OK_COUNT
  if t = 0x88B6 ∧ own then (if cellar then h.inc pEth ETH.FILTERED_COUNT else (ok h).emit (.dispatch 1 e stamp fb))
  else if isPtp e ∧ h.cfgOn pTime TIME.PTP_CFG_EN then ((ok h).coreInput 39).emit (.dispatch 2 e stamp fb)
  else if own then
    (if t = 0x88B7 then ((ok h).coreInput 39).emit (.dispatch 3 e stamp fb) else (ok h).inc pStw STW.ETH_DISCARD_COUNT)
  else if h.cfgOn pEth ETH.TUN_TX_EN ∧ h.mode ≠ .safeStop ∧ !cellar then (ok h).tunnel e entry express stamp
  else h.inc pEth ETH.FILTERED_COUNT

/-- A frame received whole: its length, its FCS, MAC control, the filter (R446, R448, R450). -/
def Hub.receiveEther (h : Hub) (bs : List Byte) (express full : Bool) (stamp : Nat) : Hub :=
  let e := bs.take (bs.length - 4)
  if h.cfg pEth ETH.CFG_MAX_LEN < bs.length then h.inc pEth ETH.OVERSIZE_COUNT
  else if full then h.inc pEth ETH.RX_OVF_COUNT
  else if leNat (bs.drop (bs.length - 4)) ≠ crc32 e then h.inc pEth ETH.RX_FCS_COUNT
  else if bs.length < 64 then h.inc pEth ETH.RUNT_COUNT
  else if (etherType e).1 = 0x8808 then h.inc pEth ETH.MAC_CTRL_COUNT
  else
    match h.filterMac (e.take 6) with
    | .drop => h.inc pEth ETH.FILTERED_COUNT
    | .accept entry => h.dispatchEther e entry express stamp

/-- The check that ends a fragment which is not its frame's last (Clause 99; PRESUMED, log entry 42). -/
def mcrc (bs : List Byte) : Nat := crc32 bs ^^^ 0x0000FFFF

/-- Whether both receive buffers hold a frame (R447, R448). -/
def Hub.buffersFull (h : Hub) : Bool := decide (2 ≤ h.etherReceived.length + flag h.ether.rx.isSome)

/-- A whole frame of the line judged, under the values that held when it began. -/
def Hub.takeEther (h : Hub) (bs : List Byte) (express full : Bool) (c8 : Nat) : Hub :=
  h.underPrior (h.beforeCommit c8) (fun g => g.receiveEther bs express full (g.etherStamp false c8))

/-- A fragment joined to what came of its frame: with a fragment check the frame goes on, with any other it ends (R449). -/
def Hub.joinFragment (h : Hub) (x : RxPart) (bs : List Byte) : Hub :=
  let body := x.bytes ++ bs.take (bs.length - 4)
  if leNat (bs.drop (bs.length - 4)) = mcrc body then h.setEther (fun s => { s with rx := some { x with bytes := body } })
  else (h.setEther (fun s => { s with rx := none })).takeEther (x.bytes ++ bs) false x.full x.at_

/-- The frame in reassembly, if there is one, is in error (R449). -/
def Hub.breakFragments (h : Hub) : Hub :=
  if h.ether.rx.isNone then h else (h.inc pEth ETH.FRAG_ERR_COUNT).setEther (fun s => { s with rx := none })

/-- A fragment of a preemptable frame: the first breaks off a frame not ended, and a later one must carry on the frame in reassembly (R449). -/
def Hub.takeFragment (h : Hub) (start : Bool) (number count : Nat) (bs : List Byte) (c8 : Nat) : Hub :=
  if start then
    let h := h.breakFragments
    h.joinFragment { number := number, at_ := c8, full := h.buffersFull } bs
  else
    match h.ether.rx with
    | none => h.inc pEth ETH.FRAG_ERR_COUNT
    | some x => if x.number = number ∧ x.count = count then h.joinFragment { x with count := (count + 1) % 4 } bs else h.breakFragments

/-- ETHERNET_FRAME_RECEIVE: the port receives a frame or an mPacket; `c8` is the instant of the first bit after the SFD, on C in 0.25 ns
(R447 to R451, R456). A frame whose SFD came before the last commit instant is judged by the values before it (R448). -/
def execEthernetFrameReceive (rx : EtherRx) (c8 : Nat) (s : State) : Host.Outcome State Fault Refusal :=
  run s fun h =>
    if h.on pEth ETH.STAT_LINK = false ∨ h.etherRuns = false then h
    else
      match rx with
      | .frame bs express =>
        let h := if express then h else h.breakFragments
        h.takeEther bs express h.buffersFull c8
      | .fragment start number count bs => h.takeFragment start number count bs c8
      | .verify => h.emit (.mpacket true)
      | .respond => if h.get pEth ETH.STAT_PREEMPT = 1 then h.setPreempt 2 else h

/-! ### Tunnelled frames delivered (R453, R476) -/

/-- An Ethernet frame, without its FCS, sent on the port; a Bulk frame up to `cut` where an Express or Timed frame waits, or, while the line is not free
for it, kept until it is (R447 to R449). -/
def Hub.sendEther (h : Hub) (e : List Byte) (bulk : Bool) (cut : Nat) (dram : Bool) : Hub :=
  let e := e ++ leBytes (60 - e.length) 0
  if h.etherOpen = false then h.inc pEth ETH.TX_DOWN_COUNT
  else if h.cfg pEth ETH.CFG_MAX_LEN < e.length + 4 then h.inc pEth ETH.TX_OVERSIZE_COUNT
  else
    let bs := e ++ leBytes 4 (crc32 e)
    if bulk ∧ (h.etherFree = false ∨ h.ether.part ≠ none ∨ h.ether.waiting ≠ []) then h.setEther (fun s => { s with waiting := s.waiting ++ [bs] })
    else h.putOnLine { bytes := bs, dram := dram } bulk cut

/-- TUNNELLED_ETHERNET_FRAME: a delivered tunnelled frame leaves by the port, and is offered to the host; `buffers` are the host's receive
buffers from RX_HEAD of the queue pair that takes it; `cut` as for TRANSMIT_FRAME (R447, R449, R453, R476). -/
def execTunnelledEthernetFrame (frame : Frame) (buffers : List (Nat × Nat)) (cut : Nat) (s : State) : Host.Outcome State Fault Refusal :=
  run s fun h =>
    let flen := frame.field 0 2
    if frame.hdr.type ≠ 0x18 then h
    else if flen < 60 ∨ 9212 < flen ∨ frame.hdr.len ≠ 16 + flen then h.inc pEth ETH.BAD_TUN_COUNT
    else
      let h := if h.cfgOn pEth ETH.TUN_RX_EN ∧ bitOf (h.cfg pEth ETH.TUN_RX_MASK) frame.hdr.ten ∧ h.mode ≠ .safeStop ∧ h.mode ≠ .cellar then
          h.sendEther (frame.payload.drop 16) true cut false else h
      h.offerHost frame buffers

/-! ### Link and preemption (R449) -/

/-- ETH_LINK_UP: the link comes up, at 2.5 Gbit/s on 2500BASE-X, at the forced speed of SGMII without auto-negotiation, else at the speed of the SGMII
control word received; `word` is that speed (R446, R449). -/
def execEthLinkUp (word : Nat) (s : State) : Host.Outcome State Fault Refusal :=
  run s fun h =>
    let an := h.cfg pEth ETH.CFG_MODE == 0 && h.cfgOn pEth ETH.CFG_AN_EN
    let speed := if h.cfg pEth ETH.CFG_MODE = 1 then 3 else if an then word % 3 else h.cfg pEth ETH.CFG_SPEED
    if h.etherRuns = false ∨ h.serdesReady = false ∨ h.on pEth ETH.STAT_LINK ∨ h.on pEth ETH.STAT_WAKE_TX_BUSY then h
    else (((h.setEtherLink true).put pEth ETH.STAT_SPEED_EFF speed).put pEth ETH.STAT_AN_DONE (flag an)).alignPreempt

/-- ETH_LINK_DOWN: the link is lost (R447, R460). -/
def execEthLinkDown (s : State) : Host.Outcome State Fault Refusal := run s fun h => h.etherDown

/-- VERIFY_TIME: VERIFY_TIME ms without a respond mPacket; a verify is sent again, at most three in all, then verification has failed (R449). -/
def execVerifyTime (s : State) : Host.Outcome State Fault Refusal :=
  run s fun h =>
    if h.get pEth ETH.STAT_PREEMPT ≠ 1 ∨ h.clock < h.ether.verifyAt + 500000 * h.cfg pEth ETH.PREEMPT_VERIFY_TIME then h
    else if h.ether.verifies < 3 then h.sendVerify
    else (h.setPreempt 3).raise pEth 3

/-! ### MDIO and the wake pattern (R459, R461) -/

/-- A write of ETH.MDIO starts a management frame; while one is in progress it completes with an error response (R461). -/
def Hub.writeMdio (h : Hub) (v : Nat) : Hub × Bool :=
  if h.on pEth ETH.MDIO_STAT_BUSY then (h, false)
  else
    let h := (h.put pEth ETH.MDIO_OP (slice v 30 2)).put pEth ETH.MDIO_C45_WR (slice v 29 1)
    let h := ((h.put pEth ETH.MDIO_PHY (slice v 21 5)).put pEth ETH.MDIO_REG (slice v 16 5)).put pEth ETH.MDIO_DATA v
    ((h.put pEth ETH.MDIO_STAT_BUSY 1).emit (.mdio (v % 2 ^ 32)), true)

/-- MDIO. -/
def execMdio (req : Req) (value : Nat) (s : State) : Host.Outcome State Fault Refusal :=
  run s fun h => h.write req pEth 0x060 fun g => g.writeMdio value

/-- MDIO_FRAME_END: the management frame completes; `data` is what a read returned (R461). -/
def execMdioFrameEnd (data : Nat) (s : State) : Host.Outcome State Fault Refusal :=
  run s fun h =>
    if h.on pEth ETH.MDIO_STAT_BUSY then
      let h := h.put pEth ETH.MDIO_STAT_BUSY 0
      if h.get pEth ETH.MDIO_OP = 1 ∨ h.get pEth ETH.MDIO_OP = 3 then h.put pEth ETH.MDIO_STAT_RDATA data else h
    else h

/-- A write of WAKE_TX: GO sends the wake pattern, unless one is being sent; the link goes down. A port that carries no traffic holds its transmitter at
electrical idle and sends none (R447, R459, R460; DEDUCED, log entry 25). -/
def Hub.writeWakeTx (h : Hub) (v : Nat) : Hub :=
  if bitOf v 0 ∧ h.on pEth ETH.STAT_WAKE_TX_BUSY = false ∧ h.etherRuns ∧ h.serdesReady then
    ((h.etherDown.put pEth ETH.STAT_WAKE_TX_BUSY 1).setEther (fun s => { s with wakeAt := h.clock })).emit .wakePattern
  else h

/-- WAKE_TX. -/
def execWakeTx (req : Req) (value : Nat) (s : State) : Host.Outcome State Fault Refusal :=
  run s fun h => h.writeDo req pEth 0x068 fun g => g.writeWakeTx value

/-- WAKE_TX_END: the pattern's 20 ms end (R459). -/
def execWakeTxEnd (s : State) : Host.Outcome State Fault Refusal :=
  run s fun h => if h.on pEth ETH.STAT_WAKE_TX_BUSY ∧ h.ether.wakeAt + 10000000 ≤ h.clock then (h.put pEth ETH.STAT_WAKE_TX_BUSY 0).irq pEth 2 else h

end Sys2Proof.Machine
end

