-- ==== Sys2Proof/Machine/Steward.lean ====
section
/-!
DEFINITION. The Steward core: the Annex, watchdogs, comparators, the coprocessor, fuses, lifecycle and the firmware's services (R534 to R559).
Where the manual is open: DEDUCED, log entry 49; DESIGN CHOICE, log entries 44 and 46.
-/
namespace Sys2Proof.Machine

open Reg

/-- A write of an STW or LC register that only the secure world may write: any other requester gets an error response (R537). -/
def Hub.secureWrite (h : Hub) (req : Req) (p off : Nat) (k : Hub → Hub) : Hub :=
  h.write req p off (fun g => if req = .secure then (k g, true) else (g, false))

/-! ### The Annex (R538 to R540) -/

/-- ANNEX_ACCESS_FAULT: the running Annex accesses a core address; one that its PMP regions and pages do not allow stops it (R538). -/
def execAnnexAccessFault (addr kind : Nat) (s : State) : Host.Outcome State Fault Refusal :=
  run s fun h => if h.annexState = 2 ∧ !h.annexReaches addr kind then h.annexFault else h

/-- ANX_CTL.START: a loaded or stopped Annex runs, in a mode other than Cellar and Safe-stop (R539, R554). -/
def Hub.startAnnex (h : Hub) : Hub :=
  let lc := h.lifecycle
  if (h.annexState = 1 ∨ h.annexState = 3) ∧ h.mode ≠ .cellar ∧ h.mode ≠ .safeStop ∧ lc ≠ 0 ∧ lc ≠ 5 then
    ({ h with stw := { h.stw with kickA := h.ns } }).setAnnex 2
  else h

/-- ANX_CTL.UNLOAD: a stopped Annex is gone (R539). -/
def Hub.unloadAnnex (h : Hub) : Hub := if h.annexState = 3 then (h.grantAnnex 0).setAnnex 0 else h

/-- A write of ANX_CTL: STOP, UNLOAD and START by their bits (R539). -/
def Hub.writeAnxCtl (h : Hub) (v : Nat) : Hub :=
  let h := if bitOf v 1 then h.annexExit 3 1 else h
  let h := if bitOf v 2 then h.unloadAnnex else h
  if bitOf v 0 then h.startAnnex else h

/-- ANX_CTL_START. -/
def execAnxCtlStart (req : Req) (s : State) : Host.Outcome State Fault Refusal :=
  run s fun h => h.secureWrite req pStw 0x054 fun g => g.writeAnxCtl 1

/-- ANX_CTL_STOP. -/
def execAnxCtlStop (req : Req) (s : State) : Host.Outcome State Fault Refusal :=
  run s fun h => h.secureWrite req pStw 0x054 fun g => g.writeAnxCtl 2

/-- UNLOAD. -/
def execUnload (req : Req) (s : State) : Host.Outcome State Fault Refusal :=
  run s fun h => h.secureWrite req pStw 0x054 fun g => g.writeAnxCtl 4

/-- ECALL: a0 is the service code, a1 the argument block, a2 its length (R540). -/
def execEcall (code ptr len : Nat) (s : State) : Host.Outcome State Fault Refusal :=
  run s fun h =>
    if h.annexState ≠ 2 then h
    else if 1024 < len ∨ !inSram ptr len ∨ !h.annexHolds ptr len then h.emit (.ecall 0x0002 0)
    else h.callArrives { path := .ecall ptr, code := code, req := 0xA, args := h.sramRead ptr len, good := true }

/-! ### Watchdogs and comparators (R542, R543) -/

/-- A write of WDOG_KICK: each world kicks its own watchdog with its key; any other kick is counted (R543). -/
def Hub.kick (h : Hub) (req : Req) (v : Nat) : Hub × Bool :=
  let key := slice v 16 16
  let now := h.ns
  match req with
  | .secure =>
    if key = 0x5EC0 then (({ h with stw := { h.stw with kickS := now } }).dropInput 40, true) else (h.inc pStw STW.BAD_KICK_COUNT, true)
  | .annex =>
    if key = 0x0A4E then ({ h with stw := { h.stw with kickA := now } }, true) else (h.inc pStw STW.BAD_KICK_COUNT, true)
  | _ => (h, false)

/-- WDOG_KICK. -/
def execWdogKick (req : Req) (key : Nat) (s : State) : Host.Outcome State Fault Refusal :=
  run s fun h => h.write req pStw 0x050 fun g => g.kick req (key % 65536 * 65536)

/-- WDOG_S: the secure watchdog's period has passed without a kick. -/
def execWdogS (s : State) : Host.Outcome State Fault Refusal :=
  run s fun h => if h.secureWatched ∧ h.stw.kickS + h.get pStw STW.WDOG_S_MS * 1000000 ≤ h.ns then h.raise pStw 0 else h

/-- WDOG_A: the Annex watchdog's period has passed without a kick. -/
def execWdogA (s : State) : Host.Outcome State Fault Refusal :=
  run s fun h =>
    if h.annexState = 2 ∧ h.get pStw STW.WDOG_A_MS ≠ 0 ∧ h.stw.kickA + h.get pStw STW.WDOG_A_MS * 1000000 ≤ h.ns then (h.annexExit 3 2).raise pStw 1 else h

/-- SECURE_WATCHDOG_HALF: half of the secure watchdog's period has passed (R541). -/
def execSecureWatchdogHalf (s : State) : Host.Outcome State Fault Refusal :=
  run s fun h => if h.secureWatched ∧ h.stw.kickS + h.get pStw STW.WDOG_S_MS * 500000 ≤ h.ns then h.coreInput 40 else h

/-- TIMER_COMPARATOR: ring time has reached the value that a world's comparator holds; outside RUNNING the Annex's is disarmed (R539, R542). -/
def execTimerComparator (annex : Bool) (value : Nat) (s : State) : Host.Outcome State Fault Refusal :=
  run s fun h =>
    if h.now < value then h
    else if annex then
      (if h.annexState = 2 then ({ h with stw := { h.stw with cmpA := some value } }).coreInput 45 else h)
    else { h with stw := { h.stw with cmpS := some value, timerIrq := true } }

/-! ### The coprocessor (R548 to R551) -/

/-- The status word: BUSY, the unit and RESULT. -/
def copWord (busy : Bool) (unit result : Nat) : Nat := flag busy * 2 ^ 31 + unit % 128 * 2 ^ 24 + result % 256 * 2 ^ 16

/-- The status word now. -/
def Hub.copStatus (h : Hub) : Nat :=
  match h.stw.cop with
  | some j => copWord true (CopOp_unit j.op) 0
  | none => h.stw.copLast

/-- Whether a world's instructions run: the core out of reset, and for the Annex RUNNING. -/
def Hub.worldRuns (h : Hub) (annex : Bool) : Bool :=
  (h.get pStw STW.STAT_CORE == 1 || h.get pStw STW.STAT_CORE == 2) && (!annex || h.annexState == 2)

/-- The result that a descriptor has at once, if it has one: BAD_DESC or DENIED (R548). -/
def Hub.copRefused (h : Hub) (annex : Bool) (op : CopOp) : Option Nat :=
  let bad := (match op with
    | .bad _ => true
    | .aes _ slot _ _ _ _ _ => decide (7 < slot)
    | .keyWrite slot _ => slot == 0 || decide (7 < slot)
    | .keyClear slot => decide (7 < slot)
    | _ => false)
  if bad || (CopOp_buffers op).any (fun b => !inSram b.1 b.2) then some 2
  else if annex && (CopOp_buffers op).any (fun b => !h.annexHolds b.1 b.2) then some 8
  else none

/-- An operation starts (R549). -/
def Hub.copBegin (h : Hub) (annex : Bool) (op : CopOp) : Hub :=
  let key := match op with
    | .aes _ slot _ _ _ _ _ => h.keySlot slot
    | _ => 0
  let out := (h.copRefused annex op).map (fun r => ({ result := r } : CopOutcome))
  ({ h with stw := { h.stw with cop := some { op := op, annex := annex, key := key, start := h.clock, outcome := out } } }.dropInput 37).put pStw STW.STAT_COP_BUSY 1

/-- COP_START: COP.START retires; `op` is what the descriptor at rs1 asks for. An Annex instruction that names a unit that is not the
Annex's stops it (R548, R549, R551). -/
def execCopStart (annex : Bool) (rd : Nat) (op : CopOp) (s : State) : Host.Outcome State Fault Refusal :=
  run s fun h =>
    let u := CopOp_unit op
    if !h.worldRuns annex then h
    else if annex && !annexUnit u then h.annexExit 3 4
    else if h.gateState 11 ≠ 0 ∨ h.sys.ungating.contains 11 then h.emit (.core annex rd (copWord false u 7))
    else if !h.coprocessorIdle then h.emit (.core annex rd (copWord true u 1))
    else
      let h := h.copBegin annex op
      h.emit (.core annex rd h.copStatus)

/-- COP_WAIT: rd receives the last operation's status word, at once or when the coprocessor becomes idle (R549). -/
def execCopWait (annex : Bool) (rd : Nat) (s : State) : Host.Outcome State Fault Refusal :=
  run s fun h =>
    if !h.worldRuns annex then h
    else if h.coprocessorIdle then h.emit (.core annex rd h.copStatus)
    else { h with stw := { h.stw with copWait := some (annex, rd) } }

/-- COP_POLL. -/
def execCopPoll (annex : Bool) (rd : Nat) (s : State) : Host.Outcome State Fault Refusal :=
  run s fun h => if h.worldRuns annex then h.emit (.core annex rd h.copStatus) else h

/-- The running operation ends with a RESULT; a core stalled in COP.WAIT goes on. -/
def Hub.copEnd (h : Hub) (unit result : Nat) : Hub :=
  let w := copWord false unit result
  let h := ({ h with stw := { h.stw with cop := none, copLast := w } }).put pStw STW.STAT_COP_BUSY 0
  match h.stw.copWait with
  | some (a, rd) => ({ h with stw := { h.stw with copWait := none } }).emit (.core a rd w)
  | none => h

/-- COP_ABORT: the operation in progress ends with RESULT ABORTED and leaves every slot as it was (R549, R550). -/
def execCopAbort (annex : Bool) (rd : Nat) (s : State) : Host.Outcome State Fault Refusal :=
  run s fun h =>
    if !h.worldRuns annex then h
    else
      let h := match h.stw.cop with
        | some j => h.copEnd (CopOp_unit j.op) 6
        | none => h
      h.emit (.core annex rd h.copStatus)

/-- The outcome of AES-256-GCM (R548): the data and the tag made, or the tag checked. -/
def Hub.aesOutcome (h : Hub) (key : Nat) (decrypt : Bool) (iv src len dst tag : Nat) : CopOutcome :=
  let r := Config.aesGcm decrypt key (leNat (h.sramRead iv 12)) (h.sramRead src len)
  let t := leBytes 16 r.2.toNat
  if !decrypt then { writes := [(dst, leBytes len r.1), (tag, t)] }
  else if h.sramRead tag 16 = t then { writes := [(dst, leBytes len r.1)] }
  else { result := 5 }

/-- The outcome of an operation, from SRAM, the keys and the fuses as they are (R548, R550); free values where R214 sets no F. -/
def Hub.copOutcome (h : Hub) (j : CopJob) : CopOutcome × Hub :=
  match j.op with
  | .sha src len dst => ({ writes := [(dst, beBytes 32 (Config.sha256 (h.sramRead src len)).toNat)] }, h)
  | .ecdsa digest key sig =>
    let n (a : Nat) := beNat (h.sramRead a 32)
    let ok := Config.ecdsaVerifies (n key) (n (key + 32)) (n sig) (n (sig + 32)) (BitVec.ofNat 256 (n digest))
    ({ result := if ok then 0 else 4 }, h)
  | .aes dec _ iv src len dst tag => (h.aesOutcome j.key dec iv src len dst tag, h)
  | .crc src len dst => ({ writes := [(dst, leBytes 4 (crc32c (h.sramRead src len)))] }, h)
  | .trackAt ts sub pos vel acc hor t dst =>
    let x : Sample := { ts := ts, sub := sub, pos := pos, vel := vel, acc := acc }
    let d := sinceSample x (8 * t)
    let m : Int := 500000 * 524288 * hor
    ({ writes := [(dst, leBytes 8 (positionAt x m d) ++ leBytes 8 (ofSigned 64 (velocityAt x m d)))] }, h)
  | .trackFire ts sub pos vel acc hor minV target lead t dst =>
    let x : Sample := { ts := ts, sub := sub, pos := pos, vel := vel, acc := acc }
    match hitTime x (500000 * 524288 * hor) (256 * minV) target (sinceSample x (8 * t)) with
    | some dh =>
      let f := ofSigned 64 (nearest (((x.ts * 8 + x.sub : Nat) : Int) * 65536 + dh - lead * 524288) 524288)
      ({ writes := [(dst, leBytes 8 (ofSigned 64 dh) ++ leBytes 8 f)] }, h)
    | none => ({ writes := [(dst, leBytes 16 h.fresh.1)] }, h.fresh.2)
  | .keyLoad =>
    if h.lifecycle = 1 ∨ h.lifecycle = 4 ∨ h.lifecycle = 5 then ({ result := 3 }, h)
    else ({ slot := some (0, leNat (h.keyHash 65)) }, h)
  | .keyWrite slot src => ({ slot := some (slot, leNat (h.sramRead src 32)) }, h)
  | .keyClear slot => ({ slot := some (slot, 0) }, h)
  | .bad _ => ({ result := 2 }, h)

/-- The running operation does its work, if it is of the kind named and has no outcome yet; what it leaves appears at its completion (R550). -/
def Hub.copWork (h : Hub) (kind : CopOp → Bool) : Hub :=
  match h.stw.cop with
  | some j =>
    if kind j.op ∧ j.outcome = none then
      let r := h.copOutcome j
      { r.2 with stw := { r.2.stw with cop := some { j with outcome := some r.1 } } }
    else h
  | none => h

/-- SHA_256. -/
def execSha256 (s : State) : Host.Outcome State Fault Refusal := run s fun h => h.copWork fun o => match o with | .sha _ _ _ => true | _ => false

/-- ECDSA_P_256. -/
def execEcdsaP256 (s : State) : Host.Outcome State Fault Refusal := run s fun h => h.copWork fun o => match o with | .ecdsa _ _ _ => true | _ => false

/-- AES_256_GCM. -/
def execAes256Gcm (s : State) : Host.Outcome State Fault Refusal := run s fun h => h.copWork fun o => CopOp_unit o == 2

/-- CRC_32C. -/
def execCrc32c (s : State) : Host.Outcome State Fault Refusal := run s fun h => h.copWork fun o => match o with | .crc _ _ _ => true | _ => false

/-- TRACK_ARITHMETIC. -/
def execTrackArithmetic (s : State) : Host.Outcome State Fault Refusal := run s fun h => h.copWork fun o => CopOp_unit o == 4

/-- KEY_LOAD. -/
def execKeyLoad (s : State) : Host.Outcome State Fault Refusal := run s fun h => h.copWork fun o => o == .keyLoad

/-- KEY_WRITE. -/
def execKeyWrite (s : State) : Host.Outcome State Fault Refusal := run s fun h => h.copWork fun o => match o with | .keyWrite _ _ => true | _ => false

/-- KEY_CLEAR. -/
def execKeyClear (s : State) : Host.Outcome State Fault Refusal := run s fun h => h.copWork fun o => match o with | .keyClear _ => true | _ => false

/-- COPROCESSOR_COMPLETE: the running operation, its work done and its cycles past (R548), completes: its results and its slot's change appear all at once, and input 37
is raised (R541, R550). -/
def execCoprocessorComplete (s : State) : Host.Outcome State Fault Refusal :=
  run s fun h =>
    match h.stw.cop with
    | some j =>
      (match j.outcome with
       | some o =>
         if h.clock < j.start + (if o.result = 2 ∨ o.result = 8 then 0 else CopOp_cycles j.op) then h
         else
         let h := o.writes.foldl (fun (g : Hub) w => g.sramWrite w.1 w.2) h
         let h := match o.slot with
           | some (i, v) => h.setKeySlot i v
           | none => h
         (h.copEnd (CopOp_unit j.op) o.result).coreInput 37
       | none => h)
    | none => h

/-! ### Fuses (R552) -/

/-- Whether OTP_PROG refuses bits of a word (R552). -/
def Hub.otpRefused (h : Hub) (word bits : Nat) : Bool :=
  let lc := h.lifecycle
  if lc = 5 then true
  else if word < 32 ∨ (65 ≤ word ∧ word ≤ 72) ∨ (81 ≤ word ∧ word < 128) ∨ 256 ≤ word then true
  else if word ≤ 64 then lc != 1 && lc != 2
  else if word ≤ 80 then
    let v := leNat ((List.range 8).flatMap (fun i => leBytes 4 (h.fuse (73 + i) ||| (if 73 + i = word then bits % 2 ^ 32 else 0))))
    lc == 0 || (v &&& (v + 1)) != 0
  else false

/-- A write of OTP_PROG (R552, R559). -/
def Hub.writeOtpProg (h : Hub) (v : Nat) : Hub :=
  let word := h.get pLc LC.OTP_SEL_WORD
  let bits := h.get pLc LC.OTP_WDATA_DATA
  if h.on pLc LC.OTP_STAT_BUSY then h
  else if slice v 16 16 ≠ 0xB10E then h.put pLc LC.OTP_STAT_RESULT 1
  else if h.otpRefused word bits then h.put pLc LC.OTP_STAT_RESULT 2
  else ({ h with stw := { h.stw with otp := some (word, bits) } }).put pLc LC.OTP_STAT_BUSY 1

/-- OTP_PROG. -/
def execOtpProg (req : Req) (key : Nat) (s : State) : Host.Outcome State Fault Refusal :=
  run s fun h => h.secureWrite req pLc 0x074 fun g => g.writeOtpProg (key % 65536 * 65536)

/-- OTP_PROG_DONE: programming ends; `blown` are the bits that blew, among those asked for (R552, R559). -/
def execOtpProgDone (blown : Nat) (s : State) : Host.Outcome State Fault Refusal :=
  run s fun h =>
    match h.stw.otp with
    | none => h
    | some (word, bits) =>
      let h := { h with stw := { h.stw with otp := none } }
      ((((h.blow word (bits &&& blown)).put pLc LC.OTP_STAT_BUSY 0).put pLc LC.OTP_STAT_RESULT (if bits &&& blown = bits then 0 else 3))).irq pLc 0

/-! ### Lifecycle (R553 to R556) -/

/-- The bit that a transition blows, where it is permitted (R553, R555). -/
def transBit (lc deploy target : Nat) : Option Nat :=
  if target = 5 ∧ lc ≠ 0 ∧ lc ≠ 5 then some 8
  else if lc = 1 ∧ target = 2 then some 1
  else if lc = 2 ∧ target = 3 then some 2
  else if lc = 3 ∧ target = 4 then some (2 * deploy + 1)
  else if lc = 4 ∧ target = 3 ∧ deploy < 3 then some (2 * deploy + 2)
  else none

/-- A full self-test has passed in the present state, and for a returned unit in its present deployment (R591). -/
def Hub.selfTestPassed (h : Hub) : Bool :=
  h.on pBist BIST.RESULT_FULL && h.on pBist BIST.RESULT_PASS && h.on pBist BIST.RESULT_DONE && h.get pBist BIST.RESULT_LC == h.lifecycle
    && (h.lifecycle != 4 || h.get pBist BIST.RESULT_DEPLOY == h.deployment)

/-- The outcome of an attempted transition (R555): 5 accepted or busy, 2 not permitted, 3 condition unmet. -/
def Hub.transResult (h : Hub) (target : Nat) : Nat :=
  let lc := h.lifecycle
  let token := h.stw.token == some target
  match transBit lc h.deployment target with
  | none => 2
  | some b =>
    let met := match lc, target with
      | 1, 2 => h.liveSlots != [] && h.selfTestPassed
      | 2, 3 => true
      | 4, 3 => token && h.selfTestPassed
      | 1, 5 => true
      | _, _ => token
    if (match h.tornBit with | some t => t != b | none => false) || !met then 3 else 5

/-- A write of LC.TRANS (R537, R555). -/
def Hub.writeTrans (h : Hub) (req : Req) (v : Nat) : Hub × Bool :=
  let target := v % 16
  if h.stw.trans.isSome then (h, req == .secure)
  else
    let h := h.put pLc LC.TRANS_STAT_TARGET target
    if slice v 16 16 ≠ 0x1C5E ∨ req ≠ .secure then (h.put pLc LC.TRANS_STAT_RESULT 1, req == .secure)
    else
      let r := h.transResult target
      let h := h.put pLc LC.TRANS_STAT_RESULT r
      (if r = 5 then { h with stw := { h.stw with trans := transBit h.lifecycle h.deployment target, token := none } } else h, true)

/-- TRANS. -/
def execTrans (req : Req) (key target : Nat) (s : State) : Host.Outcome State Fault Refusal :=
  run s fun h => h.write req pLc 0x044 fun g => g.writeTrans req (key % 65536 * 65536 + target % 16)

/-- LC_TRANSITION_DONE: the transition ends with its bit blown in the first `copies` copies, and a system reset follows (R553, R555). -/
def execLcTransitionDone (copies : Nat) (s : State) : Host.Outcome State Fault Refusal :=
  run s fun h =>
    match h.stw.trans with
    | none => h
    | some b =>
      let h := { h with stw := { h.stw with trans := none } }
      let h := (List.range 3).foldl (fun g i => if i < copies then g.blow (4 + i) (2 ^ b) else g) h
      let h := (h.put pLc LC.TRANS_STAT_RESULT (if 3 ≤ copies then 0 else 4)).irq pLc 0
      h.fresh.2.systemReset 0x03 (h.fresh.1 % 7)

/-! ### Calls over the ring and the Ethernet port (R546, R547) -/

/-- A call that a Steward message carries, in its path: the payload's CODE, DLEN and arguments. -/
def callOf (path : SvcPath) (req : Nat) (body : List Byte) : SvcCall :=
  let n := leNat ((body.drop 2).take 2)
  { path := path, code := leNat (body.take 2), req := req, args := (body.drop 16).take n, good := decide (n ≤ 1024) && decide (16 + n ≤ body.length) }

/-- STEWARD_MESSAGE: the Steward takes a delivered frame; a call is queued or discarded, a reply delivered through input 38 (R546). -/
def execStewardMessage (frame : Frame) (s : State) : Host.Outcome State Fault Refusal :=
  run s fun h =>
    let body := frame.payload
    let c := callOf (.ring frame.hdr.src frame.hdr.ten (frame.field 10 2)) frame.hdr.ten body
    if frame.hdr.type ≠ 0x19 then h
    else if frame.field 4 1 % 2 = 1 then (h.coreInput 38).emit (.deliver 6 frame)
    else if h.tenantOn frame.hdr.ten = false ∨ !h.secureServes ∨ 16 + frame.field 2 2 ≠ frame.hdr.len ∨
        4 ≤ (h.stw.calls.filter (fun c => SvcPath_cls c.path == .ring)).length then
      (h.inc pStw STW.MSG_DROP_COUNT).irq pStw 2
    else (h.coreInput 38).callArrives c

/-- ETHERNET_SERVICE_FRAME: a frame dispatched to the Steward, without its FCS, is served where its EtherType is 0x88B7; from a source that
is not CTRL_MAC, or with CTRL.TEN 0xF, only VERSION and STATUS are, but for Cellar (R547, R582). -/
def execEthernetServiceFrame (bytes : List Byte) (s : State) : Host.Outcome State Fault Refusal :=
  run s fun h =>
    let t := etherType bytes
    let body := bytes.drop t.2
    let src := (bytes.drop 6).take 6
    let ten := h.cfg pEth ETH.CTRL_TEN
    let c := callOf (.ether src (leNat ((body.drop 10).take 2))) ten body
    let trusted := h.mode == .cellar || (ten != 0xF && src == macBytes (h.cfg pEth ETH.CTRL_MAC_HI) (h.cfg pEth ETH.CTRL_MAC_LO_ADDR))
    if t.1 ≠ 0x88B7 then h.inc pStw STW.ETH_DISCARD_COUNT
    else if !h.secureServes ∨ leNat ((body.drop 4).take 1) % 2 = 1 then h
    else if !trusted && c.code != 1 && c.code != 2 then h.answer c 0x0003 []
    else h.callArrives c

/-! ### Services (R545, R556, R557) -/

/-- The argument bytes that a service needs (R545, R574): a token comes with its 4-byte target or slot and its 64-byte key. -/
def argBytes (code : Nat) : Nat :=
  if code = 0x0010 ∨ code = 0x0011 then 164 else if code = 0x0022 then 48 else if code = 0x0030 ∨ code = 0x0101 then 2
  else if code = 0x0102 then 8 else if code = 0x0201 then 4 else if code = 0x0104 ∨ code = 0x0106 ∨ code = 0x0108 then 1 else 0

/-- The first call that waits in a class is served where it has the code of the service; `k` acts for it and gives the return code and reply.
Malformed arguments return 0x0002 (R485). -/
def Hub.serve (h : Hub) (cls : SvcClass) (code : Nat) (k : Hub → SvcCall → Hub × Nat × List Byte) : Hub :=
  match h.headCall cls with
  | none => h
  | some c =>
    if c.code ≠ code ∨ !h.secureServes then h
    else if (match h.upd.running with | some r => SvcPath_cls r.path == cls | none => false) then (h.dropCall c).answer c 0x0004 []
    else if !c.good || decide (c.args.length < argBytes code) then (h.dropCall c).answer c 0x0002 []
    else
      let r := k (h.dropCall c) c
      r.1.answer c r.2.1 r.2.2

/-- VERSION. -/
def execVersion (cls : SvcClass) (s : State) : Host.Outcome State Fault Refusal :=
  run s fun h => h.serve cls 0x0001 fun g _ => (g, 0, leBytes 4 (g.get pStw STW.FW_VER_VER) ++ leBytes 4 Config.romVersion.toNat)

/-- STATUS: lifecycle, mode, ANX_STATE, ANX_CAUSE, uptime in s, and a fresh nonce of 16 bytes. -/
def execStatus (cls : SvcClass) (s : State) : Host.Outcome State Fault Refusal :=
  run s fun h => h.serve cls 0x0002 fun g _ =>
    let now := g.ns
    let n := g.fresh.1
    let g := g.fresh.2
    ({ g with stw := { g.stw with nonces := g.stw.nonces ++ [(n, now)] } }, 0,
      leBytes 1 g.lifecycle ++ leBytes 1 (g.get pSys SYS.MODE_CUR) ++ leBytes 1 g.annexState ++ leBytes 1 (g.get pStw STW.STAT_ANX_CAUSE)
        ++ leBytes 4 ((now - g.stw.bootNs) / 10 ^ 9) ++ leBytes 16 n)

/-- A token accepted for a target: it names the target, the unit and a nonce issued less than 10 minutes ago, and its signature verifies under
the accompanying key of a live slot (R556). The arguments are the target in bytes 0 to 3, the token's 96 bytes, and the key's 64 bytes. -/
def Hub.tokenNonce (h : Hub) (args : List Byte) (target : Nat) : Option (Nat × Nat) :=
  let tok := (args.drop 4).take 96
  let key := (args.drop 100).take 64
  let signed := args.length == 164 && h.liveSlots.any (fun i => h.keyMatches key (32 + 8 * i)) &&
    Config.ecdsaVerifies (beNat (key.take 32)) (beNat (key.drop 32)) (beNat ((tok.drop 32).take 32)) (beNat (tok.drop 64)) (Config.sha256 (tok.take 32))
  if signed then
    h.stw.nonces.find? (fun n => Config.tokenNames (tok.take 32) target h.uid n.1 && decide (h.ns ≤ n.2 + 600 * 10 ^ 9))
  else none

/-- A nonce is used up. -/
def Hub.useNonce (h : Hub) (n : Nat × Nat) : Hub := { h with stw := { h.stw with nonces := dropFirst n h.stw.nonces } }

/-- LC_ADVANCE. -/
def execLcAdvance (cls : SvcClass) (s : State) : Host.Outcome State Fault Refusal :=
  run s fun h => h.serve cls 0x0010 fun g c =>
    let target := leNat (c.args.take 4)
    match g.tokenNonce c.args target with
    | none => (g, 0x0003, [])
    | some n =>
      let g := g.useNonce n
      let g := ({ g with stw := { g.stw with token := some target } }.writeTrans .secure (0x1C5E0000 + target % 16)).1
      let r := g.get pLc LC.TRANS_STAT_RESULT
      if r = 5 then (g, 0, leBytes 1 target) else (g, 0x0005, leBytes 1 r)

/-- KEY_REVOKE: refused where no unrevoked slot would be left (R556). -/
def execKeyRevoke (cls : SvcClass) (s : State) : Host.Outcome State Fault Refusal :=
  run s fun h => h.serve cls 0x0011 fun g c =>
    let slot := leNat (c.args.take 4)
    if 3 < slot then (g, 0x0002, [])
    else
      match g.tokenNonce c.args slot with
      | none => (g, 0x0003, [])
      | some n =>
        let g := g.useNonce n
        if (g.liveSlots.filter (fun i => i != slot)) = [] then (g, 0x0005, [])
        else
          let g := g.blow 64 (2 ^ (4 + slot))
          (g, 0, leBytes 1 (slice (g.fuse 64) 4 4))

/-- ANX_START: for the owner of STW and the local host. -/
def execAnxStart (cls : SvcClass) (s : State) : Host.Outcome State Fault Refusal :=
  run s fun h => h.serve cls 0x0020 fun g c =>
    if g.codeOwns c.req pStw || c.req == 0x8 then
      let g := g.startAnnex
      (g, if g.annexState = 2 then 0 else 0x0005, leBytes 1 g.annexState)
    else (g, 0x0003, [])

/-- ANX_STOP: for the owner of STW, the local host and the Annex. -/
def execAnxStop (cls : SvcClass) (s : State) : Host.Outcome State Fault Refusal :=
  run s fun h => h.serve cls 0x0021 fun g c =>
    if g.codeOwns c.req pStw || c.req == 0x8 || c.req == 0xA then
      let g := g.annexExit 3 1
      (g, 0, leBytes 1 g.annexState)
    else (g, 0x0003, [])

/-- ANX_PAGES: a bitmap of 48 bytes from the owner of STW. -/
def execAnxPages (cls : SvcClass) (s : State) : Host.Outcome State Fault Refusal :=
  run s fun h => h.serve cls 0x0022 fun g c =>
    if !g.codeOwns c.req pStw then (g, 0x0003, [])
    else if c.args.length ≠ 48 then (g, 0x0002, [])
    else ((List.range 12).foldl (fun g i => g.put pStw (STW.ANX_PAGES_PAGES i) (leNat ((c.args.drop (4 * i)).take 4))) g, 0, [])

/-- GATE_RELEASE: the holds named whose cause has ended are dropped; the reply is the groups still held, for the owner of SYS (R557). -/
def execGateRelease (cls : SvcClass) (s : State) : Host.Outcome State Fault Refusal :=
  run s fun h => h.serve cls 0x0030 fun g c =>
    if !g.codeOwns c.req pSys then (g, 0x0003, [])
    else
      let mask := leNat (c.args.take 2)
      let hold := (List.range 12).foldl (fun v i => if bitOf mask i ∧ !g.holdCauses.contains i then withoutBit v i else v)
        (g.get pSys SYS.GATE_HOLD_HOLD)
      (g.put pSys SYS.GATE_HOLD_HOLD hold, 0, leBytes 2 hold)

end Sys2Proof.Machine
end

