-- ==== Sys2Proof/Machine/Update.lean ====
section
/-!
DEFINITION. Field update and the boot ROM (R560 to R583). The operand `flashOk` of a command that writes the flash is the outcome of its
flash operations after their retries (R563).
Where the manual is open: DEDUCED, log entry 31.
-/
namespace Sys2Proof.Machine

open Reg

/-- A flash operation has failed after its retries (R563). -/
def Hub.flashFailed (h : Hub) : Hub := (h.inc pUpd UPD.FLASH_ERR_COUNT).raise pUpd 0

/-- A block whose CRC-32C fails on being read (R515, R583). -/
def Hub.blockFailed (h : Hub) : Hub := (h.inc pUpd UPD.BLK_ERR_COUNT).raise pUpd 1

/-- The image in an area checked under R568, with the count of a failing block. -/
def Hub.judgeImage (h : Hub) (i blocks : Nat) : Nat × Hub :=
  let c := h.checkImage (h.area i) blocks
  (c, if c = 0x8009 then h.blockFailed else h)

/-! ### The update services (R574 to R580) -/

/-- The modes of "Stage" (R574). -/
def Hub.stageMode (h : Hub) : Bool :=
  match h.mode with
  | .maintenance => true | .safeStop => true | .cellar => true
  | .islanded => h.get pSys SYS.MODE_PREV == Mode.maintenance.code && h.landing == 1
  | _ => false

/-- The modes in which an update service is accepted (R574). -/
def Hub.updMode (h : Hub) (code : Nat) : Bool :=
  match code with
  | 0x0100 => true
  | 0x0101 => h.stageMode
  | 0x0102 => h.stageMode
  | 0x0103 => h.stageMode
  | 0x0104 => h.mode == .maintenance || h.mode == .safeStop || h.mode == .cellar
  | 0x0105 => h.mode.fromTransparent || h.mode == .cellar
  | 0x0106 => h.mode.fromTransparent || h.mode == .cellar
  | 0x0107 => true
  | 0x0108 => h.mode == .maintenance || h.mode == .safeStop || h.mode == .cellar
  | _ => false

/-- Whether a caller may use the update services: the owner of UPD, the local host and the secure world; in Cellar everyone, but not in Blank or
Retired (R574, R582). -/
def Hub.updCaller (h : Hub) (code : Nat) : Bool :=
  if h.mode = .cellar then h.lifecycle != 0 && h.lifecycle != 5 else h.codeOwns code pUpd || code == 0x8 || code == 0x9

/-- The first call that waits in a class is served as an update service; `k` acts for it and answers it (R574, R580). -/
def Hub.update (h : Hub) (cls : SvcClass) (code : Nat) (k : Hub → SvcCall → Hub) : Hub :=
  match h.headCall cls with
  | none => h
  | some c =>
    if c.code ≠ code ∨ !h.secureServes then h
    else
      let h := h.dropCall c
      if h.upd.running.isSome then h.answer c 0x0004 []
      else if !h.updCaller c.req || !h.updMode code then h.answer c 0x0003 []
      else if !c.good || decide (c.args.length < argBytes code) then h.answer c 0x0002 []
      else if h.fenced pUpd then h.answer c 0x800C []
      else k h c

/-- An update that writes the flash: FLASH where its operations fail. -/
def Hub.ifFlash (h : Hub) (ok : Bool) (c : SvcCall) (k : Hub → Hub) : Hub := if ok then k h else h.flashFailed.answer c 0x800C []

/-- The word of a register: its readable fields in their places. -/
def Hub.regWord (h : Hub) (p off : Nat) : Nat :=
  (pageFields p off).foldl (fun w f => if f.acc = .wo then w else w + h.get p f * 2 ^ f.lo) 0

/-- Consecutive registers of a page as bytes. -/
def Hub.regBytes (h : Hub) (p off n : Nat) : List Byte := (List.range n).flatMap (fun i => leBytes 4 (h.regWord p (off + 4 * i)))

/-- UPD_INFO. -/
def execUpdInfo (cls : SvcClass) (s : State) : Host.Outcome State Fault Refusal :=
  run s fun h => h.update cls 0x0100 fun g c => g.answer c 0 (g.regBytes pUpd 0x044 8)

/-- UPD_BEGIN (R575). -/
def execUpdBegin (cls : SvcClass) (flashOk : Bool) (s : State) : Host.Outcome State Fault Refusal :=
  run s fun h => h.update cls 0x0101 fun g c =>
    let n := leNat (c.args.take 2)
    let st := g.landing
    let lapsed := c.req != g.get pUpd UPD.LAND_OWNER_REQ && decide (g.upd.dataNs + 10 ^ 10 ≤ g.ns)
    if !(st == 0 || st == 2 || st == 4 || (st == 1 && lapsed)) then g.answer c 0x800A []
    else if n = 0 ∨ g.slotBlocks < n then g.answer c 0x0002 []
    else g.ifFlash flashOk c fun g =>
      let g := (g.writeRecord (fun r => { r with land := 0 })).flashErase (g.area 2) n
      let g := ((g.put pUpd UPD.LAND_LEN_BLOCKS n).put pUpd UPD.LAND_RX_BYTES 0).put pUpd UPD.LAND_OWNER_REQ c.req
      ({ g with upd := { g.upd with part := [], dataNs := g.ns, etherLoad := SvcPath_cls c.path == SvcClass.ether } }.setLanding 1).answer c 0 []

/-- The received bytes with whole blocks checked and programmed, at most two in one call; the outcome is a return code (R576). -/
def Hub.storeBlocks (h : Hub) (flashOk : Bool) : Nat → Nat × Hub
  | 0 => (0, h)
  | fuel + 1 =>
    let part := h.upd.part
    if part.length < 65536 then (0, h)
    else
      let r := h.get pUpd UPD.LAND_RX_BYTES
      let at_ := r - part.length
      let blk := part.take 65536
      let back (h : Hub) : Hub := ({ h with upd := { h.upd with part := [] } }).put pUpd UPD.LAND_RX_BYTES at_
      if leNat (blk.drop 65532) ≠ crc32c (blk.take 65532) then (0x8009, (back h).inc pUpd UPD.BLK_ERR_COUNT)
      else if !flashOk then (0x800C, (back h).flashFailed)
      else Hub.storeBlocks ({ h.flashProgram (h.area 2 + at_) blk with upd := { h.upd with part := part.drop 65536 } }) flashOk fuel

/-- The data that a DATA call brings: its argument bytes, or the first bytes of BUF (R576). -/
def Hub.callData (h : Hub) (c : SvcCall) (len : Nat) : List Byte :=
  if leNat ((c.args.drop 6).take 1) % 2 = 1 then Mem.readN h.upd.buf 0 len else (c.args.drop 8).take len

/-- UPD_DATA (R576). -/
def execUpdData (cls : SvcClass) (flashOk : Bool) (s : State) : Host.Outcome State Fault Refusal :=
  run s fun h => h.update cls 0x0102 fun g c =>
    let off := leNat (c.args.take 4)
    let len := leNat ((c.args.drop 4).take 2)
    let buf := leNat ((c.args.drop 6).take 1) % 2
    let n := g.get pUpd UPD.LAND_LEN_BLOCKS
    let r := g.get pUpd UPD.LAND_RX_BYTES
    if g.landing ≠ 1 ∨ c.req ≠ g.get pUpd UPD.LAND_OWNER_REQ then g.answer c 0x800A []
    else if leNat ((c.args.drop 7).take 1) ≠ 0 ∨ len % 4 ≠ 0 ∨ len = 0 ∨ 1024 < len ∨ 65536 * n < off + len ∨ (buf = 0 ∧ len + 8 ≠ c.args.length) then g.answer c 0x0002 []
    else if off + len ≤ r then g.answer c 0 (leBytes 4 r)
    else if off ≠ r then g.answer c 0x800B []
    else
      let g := ({ g with upd := { g.upd with part := g.upd.part ++ g.callData c len, dataNs := g.ns } }).put
        pUpd UPD.LAND_RX_BYTES (r + len)
      let x := g.storeBlocks flashOk 2
      let g := x.2
      if x.1 ≠ 0 then g.answer c x.1 []
      else if g.get pUpd UPD.LAND_RX_BYTES = 65536 * n then
        g.ifFlash flashOk c fun g => ((g.writeRecord (fun q => { q with land := n })).setLanding 2).answer c 0 (leBytes 4 (65536 * n))
      else g.answer c 0 (leBytes 4 (g.get pUpd UPD.LAND_RX_BYTES))

/-- A call whose service goes on after it (R575). -/
def Hub.keepRunning (h : Hub) (c : SvcCall) : Hub := ({ h with upd := { h.upd with running := some c } }).put pUpd UPD.STAT_BUSY 1

/-- UPD_VERIFY: verification starts (R577). -/
def execUpdVerify (cls : SvcClass) (s : State) : Host.Outcome State Fault Refusal :=
  run s fun h => h.update cls 0x0103 fun g c => if g.landing = 2 then (g.setLanding 3).keepRunning c else g.answer c 0x800A []

/-- VERIFICATION_END: VERIFIED, or EMPTY with LAND written 0 (R575, R577). -/
def execVerificationEnd (flashOk : Bool) (s : State) : Host.Outcome State Fault Refusal :=
  run s fun h =>
    match h.upd.running with
    | none => h
    | some c =>
      if h.landing ≠ 3 then h
      else
        let x := h.updIdle.judgeImage 2 (h.get pUpd UPD.LAND_LEN_BLOCKS)
        let g := x.2
        if x.1 = 0 then (g.setLanding 4).answer c 0 (g.streamRead (g.area 2) 32 4 ++ g.streamRead (g.area 2) 36 2)
        else
          let g := if flashOk then g.writeRecord (fun r => { r with land := 0 }) else g.flashFailed
          (g.setLanding 0).answer c x.1 []

/-- The target of ACTIVATE: the slot that is not ACTIVE; in Cellar the first that is EMPTY or BAD, if there is one (R578, R582). -/
def Hub.activateTarget (h : Hub) : Nat :=
  let r := h.record
  let free (i : Nat) := r.slot i == 0 || r.slot i == 3
  if h.mode = .cellar ∧ free 0 then 0 else if h.mode = .cellar ∧ free 1 then 1 else 1 - r.active % 2

/-- UPD_ACTIVATE: steps 1 and 2 of R578; the copy goes on. -/
def execUpdActivate (cls : SvcClass) (flashOk : Bool) (s : State) : Host.Outcome State Fault Refusal :=
  run s fun h => h.update cls 0x0104 fun g c =>
    let t := g.activateTarget
    if g.landing ≠ 4 ∨ g.record.slot g.record.active = 2 then g.answer c 0x800A []
    else g.ifFlash flashOk c fun g =>
      let g := (g.writeRecord (fun r => r.setSlot t 0)).flashErase (g.area t) (g.get pUpd UPD.LAND_LEN_BLOCKS)
      ({ g with upd := { g.upd with target := t } }.setLanding 5).keepRunning c

/-- The restart that follows a reply after 100 ms, where one is asked for (R574). -/
def Hub.noteReboot (h : Hub) (asked : Bool) : Hub :=
  if asked then { h with upd := { h.upd with reboot := some (h.ns + 100000000) } } else h

/-- The Landing's blocks copied into a slot (R578). -/
def Hub.copyLanding (h : Hub) (t n : Nat) : Hub :=
  let bs := h.flashRead (h.area 2) (65536 * n)
  (h.flashErase (h.area t) n).flashProgram (h.area t) bs

/-- ACTIVATION_END: steps 3 and 4 of R578; the Landing returns to RECEIVED. In Cellar a reset follows whatever REBOOT holds (R582). -/
def execActivationEnd (flashOk : Bool) (s : State) : Host.Outcome State Fault Refusal :=
  run s fun h =>
    match h.upd.running with
    | none => h
    | some c =>
      if h.landing ≠ 5 then h
      else
        let g := h.updIdle.setLanding 2
        let t := h.upd.target
        let base := g.area 2
        let n := g.get pUpd UPD.LAND_LEN_BLOCKS
        if !flashOk then g.flashFailed.answer c 0x800C []
        else if g.badBlocks base n ≠ 0 then g.blockFailed.answer c 0x8009 []
        else
          let ver := g.streamNat base 32 4
          let sec := g.streamNat base 36 2
          let g := (g.copyLanding t n).writeRecord (fun r => { (r.setSlot t 2).setVersion t ver sec with tries := 0, active := t })
          (g.noteReboot (leNat (c.args.take 1) % 2 == 1 || g.mode == .cellar)).answer c 0 (leBytes 1 t)

/-- One word of the rollback counter blown by the firmware through OTP_PROG: nothing where every bit is blown already (R552, R573). -/
def Hub.blowCounter (h : Hub) (word bits : Nat) : Hub :=
  if h.fuse word ||| bits = h.fuse word then h
  else
    let h := (h.put pLc LC.OTP_SEL_WORD word).put pLc LC.OTP_WDATA_DATA bits
    ((h.blow word bits).put pLc LC.OTP_STAT_RESULT 0).irq pLc 0

/-- The rollback counter blown up to a booted GOOD slot's SEC_VER, upward (R573). -/
def Hub.raiseRollback (h : Hub) : Hub :=
  match h.upd.boot with
  | none => h
  | some b =>
    let sec := if b.slot = 0 then h.record.secA else h.record.secB
    if h.record.slot b.slot ≠ 1 then h
    else (List.range 8).foldl (fun g i => g.blowCounter (73 + i) (2 ^ min 32 (min 256 sec - 32 * i) - 1)) h

/-- The booted TRIAL slot, while it is still ACTIVE (R579). -/
def Hub.trialSlot (h : Hub) : Option Nat :=
  match h.upd.boot with
  | some b => if b.trial ∧ h.record.active = b.slot ∧ h.record.slot b.slot = 2 ∧ h.mode ≠ .cellar then some b.slot else none
  | none => none

/-- The trial slot is confirmed. -/
def Hub.confirm (h : Hub) (slot : Nat) : Hub :=
  (h.writeRecord (fun r => { r.setSlot slot 1 with tries := 0 })).raiseRollback

/-- UPD_CONFIRM (R579). -/
def execUpdConfirm (cls : SvcClass) (flashOk : Bool) (s : State) : Host.Outcome State Fault Refusal :=
  run s fun h => h.update cls 0x0105 fun g c =>
    match g.trialSlot with
    | none => g.answer c 0x800A []
    | some i => g.ifFlash flashOk c fun g => (g.confirm i).answer c 0 []

/-- AUTO_CONFIRM: Running or Degraded without interruption for CONFIRM_S seconds (R579). -/
def execAutoConfirm (flashOk : Bool) (s : State) : Host.Outcome State Fault Refusal :=
  run s fun h =>
    match h.trialSlot with
    | none => h
    | some i =>
      let due : Bool := match h.upd.runSince with
        | some t => decide (t + h.cfg pUpd UPD.CFG_CONFIRM_S * 1000000000 ≤ h.ns)
        | none => false
      if h.cfgOn pUpd UPD.CFG_AUTO_CONFIRM ∧ (h.mode = .running ∨ h.mode = .degraded) ∧ due ∧ h.upd.running = none ∧ h.fenced pUpd = false ∧
          h.on pStw STW.STAT_READY then
        (if flashOk then h.confirm i else h.flashFailed)
      else h

/-- UPD_REVERT (R579). -/
def execUpdRevert (cls : SvcClass) (flashOk : Bool) (s : State) : Host.Outcome State Fault Refusal :=
  run s fun h => h.update cls 0x0106 fun g c =>
    let r := g.record
    let a := r.active % 2
    if r.slot a = 2 then
      g.ifFlash flashOk c fun g => ((g.writeRecord (fun r => { r.setSlot a 3 with active := 1 - a })).noteReboot (leNat (c.args.take 1) % 2 == 1)).answer c 0 (leBytes 1 (1 - a))
    else if r.slot 0 = 1 ∧ r.slot 1 = 1 then
      g.ifFlash flashOk c fun g => ((g.writeRecord (fun r => { r with active := 1 - a })).noteReboot (leNat (c.args.take 1) % 2 == 1)).answer c 0 (leBytes 1 (1 - a))
    else g.answer c 0x800A []

/-- UPD_ABORT (R575). -/
def execUpdAbort (cls : SvcClass) (flashOk : Bool) (s : State) : Host.Outcome State Fault Refusal :=
  run s fun h => h.update cls 0x0107 fun g c =>
    if g.landing = 3 ∨ g.landing = 5 then g.answer c 0x800A []
    else g.ifFlash flashOk c fun g =>
      let g := (g.writeRecord (fun r => { r with land := 0 })).put pUpd UPD.LAND_OWNER_REQ 0xF
      ({ g with upd := { g.upd with part := [] } }.setLanding 0).answer c 0 []

/-- UPD_CELLAR (R574). -/
def execUpdCellar (cls : SvcClass) (flashOk : Bool) (s : State) : Host.Outcome State Fault Refusal :=
  run s fun h => h.update cls 0x0108 fun g c =>
    g.ifFlash flashOk c fun g => ((g.writeRecord (fun r => { r with cellar := true })).noteReboot (leNat (c.args.take 1) % 2 == 1)).answer c 0 []

/-- REBOOT: 100 ms after a reply with REBOOT set, RESTART as a request from the secure world; from Cellar, the boot ROM's reset (R68, R574, R582). -/
def execReboot (s : State) : Host.Outcome State Fault Refusal :=
  run s fun h =>
    if (match h.upd.reboot with | some t => decide (h.ns < t) | none => true) then h
    else
      let h := { h with upd := { h.upd with reboot := none } }
      if h.mode = .cellar then h.systemReset 0x03 6 else h.modeRequest .secure 0x6D0E0007

/-! ### The boot ROM (R570, R571, R582, R592) -/

/-- The hub enters Cellar: CELLAR_NEXT is cleared, and the ROM serves requests (R570, R582). -/
def Hub.bootCellar (h : Hub) (reason : Nat) (flashOk : Bool := true) : Hub :=
  if h.mode ≠ .waking then h
  else
    let h := if flashOk && h.flashUsable && h.record.cellar then h.writeRecord (fun r => { r with cellar := false }) else h
    ((h.put pUpd UPD.BOOT_INFO_KIND 4).leaveWaking .cellar reason).mailCalls

/-- A slot's image is loaded, and the firmware runs (R566, R570, R571). -/
def Hub.loadSlot (h : Hub) (slot kind : Nat) (trial : Bool) : Hub :=
  let base := h.area slot
  let bare := h.imageKey base == 15 && h.lifecycle != 1
  let h := match h.sectionOf base 1 with
    | some x => h.sramWrite sramBase (h.streamRead base x.off x.len)
    | none => h
  let annex := if bare then none else h.sectionOf base 2
  let h := match annex with
    | some x => h.sramWrite 0x20040000 (h.streamRead base x.off x.len)
    | none => h
  let b : BootImage := { slot := slot, trial := trial, annex := annex.map (fun x => x.param), auto := bitOf (h.streamNat base 12 1) 1
                         config := (h.sectionOf base 3).map (fun x => (x.off, x.len, x.param)), bare := bare }
  (({ h with upd := { h.upd with boot := some b }, stw := { h.stw with kickS := h.ns } }).put pUpd UPD.BOOT_INFO_KIND kind).put pStw STW.STAT_CORE 2

/-- The ROM turns to the slot that is not ACTIVE: booted only if it is GOOD and accepted, and then made ACTIVE (R571). -/
def Hub.turnTo (h : Hub) (slot kind : Nat) : Hub :=
  if h.record.slot slot ≠ 1 then h.bootCellar 0x11
  else
    let x := h.judgeImage slot h.slotBlocks
    if x.1 ≠ 0 then x.2.bootCellar 0x11
    else (x.2.writeRecord (fun r => { r with active := slot })).loadSlot slot kind false

/-- The ROM chooses and checks a slot by the record in effect (R571). -/
def Hub.bootByRecord (h : Hub) : Hub :=
  let a := h.record.active % 2
  match h.record.slot a with
  | 1 =>
    let x := h.judgeImage a h.slotBlocks
    if x.1 = 0 then x.2.loadSlot a 0 false else (x.2.writeRecord (fun r => r.setSlot a 3)).turnTo (1 - a) 0
  | 2 =>
    if h.record.tries < 3 then
      let h := h.writeRecord (fun r => { r with tries := r.tries + 1 })
      let x := h.judgeImage a h.slotBlocks
      if x.1 = 0 then x.2.loadSlot a 1 true else (x.2.writeRecord (fun r => r.setSlot a 3)).turnTo (1 - a) 0
    else ((h.writeRecord (fun r => r.setSlot a 3)).put pUpd UPD.STAT_REVERTED 1).turnTo (1 - a) 2
  | _ => h.turnTo (1 - a) 0

/-- With no valid record the ROM boots the first slot whose image is accepted, and writes a record (R570). -/
def Hub.bootWithoutRecord (h : Hub) : Hub :=
  let a := h.judgeImage 0 h.slotBlocks
  let b := a.2.judgeImage 1 h.slotBlocks
  let version (i : Nat) (r : BootRec) := r.setVersion i (h.streamNat (h.area i) 32 4) (h.streamNat (h.area i) 36 2)
  if a.1 = 0 then
    let g := b.2.writeRecord (fun r => if b.1 = 0 then version 1 (version 0 { r with active := 0, stateA := 1, stateB := 1 })
      else version 0 { r with active := 0, stateA := 1, stateB := 0 })
    g.loadSlot 0 3 false
  else if b.1 = 0 then (b.2.writeRecord (fun r => version 1 { r with active := 1, stateA := 0, stateB := 1 })).loadSlot 1 3 false
  else b.2.bootCellar 0x11

/-- The uncorrectable-error sources of a page's memories (R515, R592). -/
def uncSources (p : Nat) : List Nat :=
  match kindOf p with
  | some .topo => [3] | some .trk => [4] | some .atr => [3] | some .brg => [0, 2] | some .sw => [1] | some .ch => [3] | some .prs => [2, 4]
  | some .can => [4] | some .eth => [2] | some .host => [3] | some .mbx => [1] | some .stw => [4]
  | _ => []

/-- The power-on memory test: every memory ends at zero, the failing words raise their pages' sources (R592). -/
def Hub.powerOnTest (h : Hub) (pot : List (Nat × Nat × Nat)) (us : Nat) : Hub :=
  let pot := pot.filter (fun x => (uncSources x.1).contains x.2.1 && x.2.2 != 0)
  let words := pot.foldl (fun a x => a + x.2.2) 0
  let h := ((h.put pBist BIST.POT_RAN 1).put pBist BIST.POT_PASS (flag (pot == []))).put pBist BIST.POT_US (min 65535 us)
  let h := (h.put pBist BIST.POT_FAIL_PAGE (match pot with | x :: _ => x.1 | [] => 0)).put pBist BIST.POT_FAIL_WORDS (min 65535 words)
  let h := { h with prsMem := [], stw := { h.stw with sram := [] } }
  (pot.foldl (fun g x => (g.sourceEffect x.1 x.2.1).raise x.1 x.2.1) h).irq pBist 0

/-- Whether the power-on test runs: in Field, after a power-on or Shelf-exit reset (R592). -/
def Hub.powerOnTests (h : Hub) : Bool := h.lifecycle == 3 && h.get pSys SYS.RST_CAUSE_CAUSE % 4 != 0 && h.mode == .waking

/-- Steps 2 to 6 of R570. -/
def Hub.bootFromFlash (h : Hub) (flashOk : Bool) : Hub :=
  if h.get pSys SYS.STRAPS_CELLAR_N = 0 then h.bootCellar 0x12 flashOk
  else if !flashOk || !h.flashUsable then h.bootCellar 0x11 flashOk
  else
    let h := h.bootUpd.put pUpd UPD.STAT_REVERTED 0
    if h.record.cellar then h.bootCellar 0x12
    else if h.recordInEffect.isNone then h.bootWithoutRecord
    else h.bootByRecord

/-- BOOT_ROM_START: the boot ROM's steps (R570, R586). `pot` are the words that fail the power-on test, by page, fault source and number; the ROM
runs in Waking, and again where the release of a fence restarts the core (R515). -/
def execBootRomStart (flashOk : Bool) (pot : List (Nat × Nat × Nat)) (potUs : Nat) (s : State) : Host.Outcome State Fault Refusal :=
  run s fun h =>
    if h.get pStw STW.STAT_CORE ≠ 1 ∨ h.mode = .cellar ∨ h.mode = .test ∨ h.mode = .shelf then h
    else
      let h := h.completeTorn
      if h.lifecycle = 0 ∨ h.lifecycle = 5 then h.bootCellar 0x11 flashOk
      else if h.on pBist BIST.SEL_BOOT ∧ (h.lifecycle = 1 ∨ h.lifecycle = 4) ∧ h.mode = .waking then
        ((h.put pBist BIST.SEL_BOOT 0).leaveWaking .test 0x13).startSelfTest
      else
        let h := h.put pBist BIST.SEL_BOOT 0
        (if h.powerOnTests then h.powerOnTest pot potUs else h.put pBist BIST.POT_RAN 0).bootFromFlash flashOk

end Sys2Proof.Machine
end

