-- ==== Sys2Proof/Machine/SelfTest.lean ====
section
/-!
DEFINITION. The self-test controller (R584 to R599).
Where the manual is open: DEDUCED, log entry 32.
-/
namespace Sys2Proof.Machine

open Reg

/-- The lowest item of a mask, coded as STAT.ITEM: 0 none, 1 MEM, 2 LOGIC, 3 SERDES, 4 FSENSE. -/
def lowestItem (mask : Nat) : Nat :=
  if bitOf mask 0 then 1 else if bitOf mask 1 then 2 else if bitOf mask 2 then 3 else if bitOf mask 3 then 4 else 0

/-- The banks without a supply, and every zone where VDD_FP is absent: what FSENSE skips (R584). -/
def Hub.skipped (h : Hub) : Nat × Nat :=
  ((List.range 16).foldl (fun a k => if h.on (pBank k) BANK.STAT_VOK then a else a + 2 ^ k) 0,
    if bitOf (h.get pSys SYS.SUPPLY_STAT_DOM) 6 then 0 else 15)

/-- The items that a phase runs (R587). -/
def phaseItems (phase : Nat) : Nat :=
  match phase with
  | 1 => 1 | 2 => 4 | 3 => 8 | 4 => 2 | _ => 7

/-- BIST_PHASE_END: the phase ends with the items that failed in it, the first failure's page and detail; its blocks are re-initialised and
the next phase begins. After a failure the final phase is skipped (R587, R589). -/
def execBistPhaseEnd (failed page detail : Nat) (s : State) : Host.Outcome State Fault Refusal :=
  run s fun h =>
    let p := h.bist.phase
    if p = 0 ∨ 5 < p then h
    else
      let bad := failed &&& h.bist.items &&& phaseItems p
      let skip := if p = 3 then h.skipped else (h.bist.skipBanks, h.bist.skipZones)
      let first := match h.bist.first with
        | some f => some f
        | none => if bad = 0 then none else some (lowestItem bad, page, detail)
      let all := h.bist.failed ||| bad
      let b := { h.bist with failed := all, first := first, finalFailed := decide (p = 5 ∧ bad ≠ 0), skipBanks := skip.1, skipZones := skip.2 }
      let next := nextPhase b.items p
      let h := { h with bist := b }
      let h := (usedPages.filter (fun q => phasePage p q && q != pSys)).foldl (fun g q => g.reinit false q) h
      h.enterPhase (if next = 5 ∧ all ≠ 0 then 6 else next)

/-- RESULT, FAIL and SKIP of a full self-test (R590, R591). -/
def Hub.writeResult (h : Hub) : Hub :=
  let b := h.bist
  let h := (((h.put pBist BIST.RESULT_DONE 1).put pBist BIST.RESULT_PASS (flag (b.failed == 0))).put pBist BIST.RESULT_FULL (flag (b.items == 15))).put
    pBist BIST.RESULT_RAN b.items
  let h := (((h.put pBist BIST.RESULT_FAILED b.failed).put pBist BIST.RESULT_LC b.lc).put pBist BIST.RESULT_DEPLOY b.deploy).put
    pBist BIST.RESULT_MS h.bistElapsed
  let f := b.first.getD (0, 0, 0)
  let h := ((h.put pBist BIST.FAIL_ITEM f.1).put pBist BIST.FAIL_PAGE f.2.1).put pBist BIST.FAIL_DETAIL f.2.2
  (h.put pBist BIST.SKIP_BANKS b.skipBanks).put pBist BIST.SKIP_ZONES b.skipZones

/-- SELF_TEST_END: a pass ends with a system reset; a failure in the final phase leads to Safe-stop, any other leaves the hub in Test (R590). -/
def execSelfTestEnd (s : State) : Host.Outcome State Fault Refusal :=
  run s fun h =>
    if h.bist.phase ≠ 6 then h
    else
      let b := h.bist
      let h := (h.writeResult.irq pBist 0).put pBist BIST.STAT_ELAPSED h.bistElapsed
      let h := { (((h.put pBist BIST.STAT_STATE 0).put pBist BIST.STAT_ITEM 0).put pBist PG.STAT_BLOCK 0) with bist := {} }
      if b.failed = 0 then h.systemReset 0x03 5 else if b.finalFailed then h.safeStop 0x63 pBist 0 else h

/-! ### Tests of a fenced unit (R593 to R598) -/

/-- The items that apply to a unit (R596). -/
def unitItems (u : Nat) : Nat :=
  match kindOf u with
  | some .topo => 0b0011 | some .atr => 0b0011 | some .brg => 0b0011 | some .sw => 0b0011 | some .trk => 0b0011 | some .can => 0b0011
  | some .bank => 0b1011 | some .prs => 0b0011 | some .mbx => 0b0011 | some .host => 0b0011 | some .eth => 0b0111
  | some .rport => 0b0110 | some .zone => 0b1010 | some .therm => 0b1010
  | some _ => 0b0010
  | none => 0

/-- Why UNIT_TEST is refused; none where it starts (R594). -/
def Hub.unitRefused (h : Hub) (u items : Nat) : Option Nat :=
  if h.lifecycle ≠ 3 ∨ h.mode ≠ .maintenance then some 0x0003
  else if h.on pBist BIST.UNIT_BUSY then some 0x0004
  else if !h.active pBist || h.gated pBist then some 0x8020
  else if !h.fenced u || h.fenceQueued u then some 0x8021
  else if u = pStw ∨ u = pBist ∨ u = pSys ∨ u = pLc ∨ h.gated u then some 0x8022
  else if items = 0 then some 0x8023
  else none

/-- Whether a caller may use the self-test services: the owner of BIST and the local host (R593). -/
def Hub.bistCaller (h : Hub) (code : Nat) : Bool := h.codeOwns code pBist || code == 0x8

/-- BIST_INFO. -/
def execBistInfo (cls : SvcClass) (s : State) : Host.Outcome State Fault Refusal :=
  run s fun h => h.serve cls 0x0200 fun g c => if g.bistCaller c.req then (g, 0, (g.put pBist BIST.STAT_ELAPSED g.bistElapsed).regBytes pBist 0x044 9) else (g, 0x0003, [])

/-- A unit test starts (R593, R595). -/
def Hub.startUnitTest (h : Hub) (page u items : Nat) (load : Bool) : Hub :=
  let h := ((((h.put pBist BIST.UNIT_BUSY 1).put pBist BIST.UNIT_DONE 0).put pBist BIST.UNIT_PASS 0).put pBist BIST.UNIT_ABORTED 0).put
    pBist BIST.UNIT_ITEMS items
  let h := ((h.put pBist BIST.UNIT_FAILED 0).put pBist BIST.UNIT_PAGE page).inc pBist BIST.RUNS_COUNT
  let h := ((h.put pBist BIST.STAT_STATE 3).put pBist PG.STAT_BLOCK 3).put pBist BIST.STAT_ITEM (lowestItem items)
  let load := load && kindOf u == some .zone && bitOf items 3 && h.zoneMeasures
  { h with bist := { h.bist with unit := u, loadFailed := false, load := load, found := none, began := h.ns } }

/-- UNIT_TEST. -/
def execUnitTest (cls : SvcClass) (s : State) : Host.Outcome State Fault Refusal :=
  run s fun h => h.serve cls 0x0201 fun g c =>
    let page := leNat (c.args.take 2)
    let u := unitOf page
    let items := leNat ((c.args.drop 2).take 1) % 16 &&& unitItems u
    if !g.bistCaller c.req then (g, 0x0003, [])
    else
      match g.unitRefused u items with
      | some rc => (g, rc, [])
      | none => (g.startUnitTest page u items (leNat ((c.args.drop 3).take 1) % 2 == 1), 0, leBytes 1 items)

/-- UNIT_ABORT (R598). -/
def execUnitAbort (cls : SvcClass) (s : State) : Host.Outcome State Fault Refusal :=
  run s fun h => h.serve cls 0x0202 fun g c => if g.bistCaller c.req then (g.abortUnitTest, 0, []) else (g, 0x0003, [])

/-- A unit test ends with the items that failed and the first failure's page and detail; a LOAD ramp that tripped fails FSENSE (R595, R597). -/
def Hub.endUnitTest (h : Hub) (failed page detail : Nat) : Hub :=
  let own := failed &&& h.get pBist BIST.UNIT_ITEMS
  let bad := own ||| (if h.bist.loadFailed then 8 else 0)
  let h := h.put pBist BIST.UNIT_FAILED bad
  let h := ((h.put pBist BIST.UNIT_FAIL_ITEM (lowestItem bad)).put pBist BIST.UNIT_FAIL_PAGE (if bad = 0 then 0 else if own = 0 then h.bist.unit else page)).put
    pBist BIST.UNIT_FAIL_DETAIL (if bad = 0 then 0 else detail)
  h.closeUnitTest (bad == 0) false

/-- UNIT_TEST_END: the unit's items have run; with LOAD the zone's ramp follows, and the test ends once that has reached ON or tripped
(R595, R597). -/
def execUnitTestEnd (failed page detail : Nat) (s : State) : Host.Outcome State Fault Refusal :=
  run s fun h =>
    if !h.on pBist BIST.UNIT_BUSY then h
    else
      let z := instOf h.bist.unit
      match h.bist.found with
      | some (f, q, d) => if (h.zone z).probing then h else h.endUnitTest f q d
      | none =>
        if h.bist.load then
          let h := { h with bist := { h.bist with load := false, found := some (failed, page, detail) } }
          (h.setZone z (fun s => { s with probing := true })).zoneTo z 1
        else h.endUnitTest failed page detail

end Sys2Proof.Machine
end

