-- ==== Sys2Proof/Machine/Time.lean ====
section
/-!
DEFINITION. The time unit's commands: neighbour delay, sync frames, the servo, election, the fall-back path and its reads (R169 to R197).
Where the manual is open: DEDUCED, log entry 19; DESIGN CHOICE, log entry 56; free terms, log entry 45.
-/
namespace Sys2Proof.Machine

open Reg

/-! ### Neighbour delay (R177, R178) -/

/-- NEIGHBOUR_DELAY_REQUEST_SEND: an UP port sends its request; t1 is taken as the frame leaves (R177). -/
def execNeighbourDelayRequestSend (port : Nat) (s : State) : Host.Outcome State Fault Refusal :=
  run s fun h =>
    if port < 2 ∧ h.link port = 4 then
      let id := (h.port port).pd.nextId
      (h.sendLink port 0x32 (leBytes 2 id ++ leBytes 6 0)).setPd port (fun d => { d with nextId := (id + 1) % 65536 })
    else h

/-- NEIGHBOUR_DELAY_REQUEST: the answer is queued with the request's receive stamp; TURN goes in as it leaves (R177). -/
def execNeighbourDelayRequest (port stamp : Nat) (frame : Frame) (s : State) : Host.Outcome State Fault Refusal :=
  run s fun h =>
    if port < 2 ∧ h.link port = 4 then
      let payload := leBytes 2 (frame.field 0 2) ++ leBytes 1 (flag h.mainValid) ++ leBytes 1 0 ++ leBytes 8 0 ++ leBytes 12 0
      h.setPort port (fun p => p.push .link false
        { frame := { cls := .link, hdr := h.linkHeader 0x33 24 port, payload := payload }, rx := some stamp })
    else h

/-- The mean of delay values. -/
def meanOf (l : List Int) : Int := if l = [] then 0 else l.foldl (fun a d => a + d) 0 / l.length

/-- The registers of a port's delay brought up to date (PD_E, PD_W). -/
def Hub.noteDelay (h : Hub) (port : Nat) : Hub :=
  let d := (h.port port).pd
  h.putDelay port (decide (16 ≤ d.accepted)) (ofSigned 31 (meanOf d.values / 256))

/-- A value of d: accepted into the filter, or rejected beyond 5 ns of a full filter's mean; 16 rejections in a row restart the filter (R178). -/
def Hub.filterDelay (h : Hub) (port : Nat) (d : Int) : Hub :=
  let p := (h.port port).pd
  let far := (d - meanOf p.values).natAbs
  if p.values.length = 16 ∧ 163840 < far then
    let h := h.inc pTime TIME.PD_REJECT_COUNT
    if 15 ≤ p.rejected.length then
      ((h.setPd port (fun q => { q with values := (q.rejected ++ [d]).drop (q.rejected.length - 15), rejected := [] })).noteDelay
        port).raise pTime 3
    else h.setPd port (fun q => { q with rejected := q.rejected ++ [d] })
  else
    (h.setPd port (fun q =>
      let all := q.values ++ [d]
      { q with values := all.drop (all.length - 16), rejected := [], accepted := q.accepted + 1 })).noteDelay port

/-- NEIGHBOUR_DELAY_RESPONSE: d from t1, t4 and TURN, unless the response is late (R177, R178). The request waits for its response, or for PD_LOST,
whatever becomes of the link. -/
def execNeighbourDelayResponse (port stamp : Nat) (frame : Frame) (s : State) : Host.Outcome State Fault Refusal :=
  run s fun h =>
    match (h.port port).pd.waiting with
    | none => h
    | some (id, t1) =>
      if port < 2 ∧ h.link port = 4 ∧ frame.field 0 2 = id then
        (h.setPd port (fun q => { q with waiting := none })).filterDelay port
          ((h.stamp port false stamp - t1 - toSigned 64 (frame.field 4 8)) / 2)
      else h

/-- PD_LOST: 100 µs after a request without its response (R177). -/
def execPdLost (port : Nat) (s : State) : Host.Outcome State Fault Refusal :=
  run s fun h =>
    match (h.port port).pd.waiting with
    | none => h
    | some _ => (h.setPd port (fun q => { q with waiting := none })).inc pTime TIME.PD_LOST_COUNT

/-! ### Sync frames (R180, R182) -/

/-- The payload of a sync frame before ORIGIN and SUB are inserted (R180). -/
def Hub.syncPayload (h : Hub) : List Byte :=
  leBytes 9 0 ++ leBytes 1 (h.cfg pTime TIME.CFG_PRIO) ++ leBytes 1 (h.cfg pTime TIME.PTP_CFG_PTP_SCALE) ++ leBytes 1 0
    ++ leBytes 8 0 ++ leBytes 16 h.uid ++ leBytes 2 (h.get pTime TIME.STEP_GEN_GEN)
    ++ leBytes 1 (h.cfg pTime TIME.CFG_SYNC_INT) ++ leBytes 1 0

/-- SYNC_SEND: the master sends a sync frame in both directions (R180). -/
def execSyncSend (s : State) : Host.Outcome State Fault Refusal :=
  run s fun h =>
    if h.timeState = 3 then
      h.originate { cls := .timed, hdr := { type := 0x03, dst := 4095, ten := 0xF }, payload := h.syncPayload }
    else h

/-- The limit of the servo's phase term, in 2^-32 (SERVO.SLEW, R183). -/
def Hub.slew (h : Hub) : Int := (h.expert pTime TIME.SERVO_USE TIME.SERVO_SLEW 50 : Int) * 2 ^ 32 / 1000000

/-- The servo's update at an accepted sync: its integral and phase terms are open values; the phase term is limited to SLEW, and
the rate they ask for is held within ±200 ppm, beyond which SERVO_RANGE arises (R170, R183, R195). -/
def Hub.servo (h : Hub) : Hub :=
  let (i, h) := h.fresh
  let (p, h) := h.fresh
  let need := toSigned 128 i + clampTo h.slew (toSigned 128 p)
  let h := h.setTimeSt (fun t => { t with rateInt := (2 ^ 32 + clampTo ppm200 (toSigned 128 i)).toNat })
  let h := h.setRate (2 ^ 32 + clampTo ppm200 need).toNat
  if clampTo ppm200 need = need then h else h.raise pTime 1

/-- OFF changed so that main-path ring time at the ball-referenced receive stamp of a port equals `m` (R175, R183, R185). -/
def Hub.aimTime (h : Hub) (port : Nat) (m : Int) (c8 : Nat) : Hub :=
  h.setTimeSt (fun t => { t with off := (m - h.ballShift port false) * 2 ^ 16 - ((c8 * t.rate : Nat) : Int) / 8 })

/-- A step of the main path; a scheduled commit whose instant it passes is committed at the step (R185). -/
def Hub.stepTime (h : Hub) (port : Nat) (m : Int) (c8 : Nat) : Hub :=
  let before := h.now
  let h := (h.aimTime port m c8).setTimeSt (fun t => { t with stepRun := 0 })
  (((h.put pTime TIME.STEP_GEN_GEN (h.get pTime TIME.STEP_GEN_GEN + 1)).irq pTime 2).raise pTime 2).commitPassed before

/-- LOCK_THRESH in 2^-16 tick. -/
def Hub.lockThresh (h : Hub) : Nat := h.expert pTime TIME.LOCK_USE TIME.LOCK_LOCK_THRESH 100 * 32768

/-- LOCK_COUNT. -/
def Hub.lockCount (h : Hub) : Nat := h.expert pTime TIME.LOCK_USE TIME.LOCK_LOCK_COUNT 8

/-- STEP_THRESH in 2^-16 tick. -/
def Hub.stepThresh (h : Hub) : Nat := h.expert pTime TIME.STEP_THRESH_USE TIME.STEP_THRESH_US 10 * 32768000

/-- An accepted sync in ACQUIRE or RELOCK: a step after three large errors, LOCKED after LOCK_COUNT small ones (R183, R185). -/
def Hub.pullIn (h : Hub) (port : Nat) (e m : Int) (c8 : Nat) : Hub :=
  let h := h.setTimeSt (fun t => { t with
    lockRun := if e.natAbs < h.lockThresh then t.lockRun + 1 else 0
    stepRun := if h.stepThresh ≤ e.natAbs then t.stepRun + 1 else 0 })
  if 3 ≤ h.time.stepRun then h.stepTime port m c8
  else if h.lockCount ≤ h.time.lockRun then h.setTime 2
  else h

/-- An accepted sync in LOCKED: RELOCK after three errors above 1 µs (R183). -/
def Hub.watchLock (h : Hub) (e : Int) : Hub :=
  let h := h.setTimeSt (fun t => { t with bigRun := if 500 * 65536 < e.natAbs then t.bigRun + 1 else 0 })
  if 3 ≤ h.time.bigRun then h.setTime 5 else h

/-- What an accepted sync does to the fall-back value, by the state of the main path: a copy of the main path in use; else, in FREE, ACQUIRE and
FENCED and in Cellar, the master time at this edge, M being that of the ball-referenced receive stamp (R173, R175). R173's table has no row for OFF
outside Cellar and Test: nothing is loaded there, as in Test (DESIGN CHOICE, log entry 56). -/
def Hub.syncFallBack (h : Hub) (port : Nat) (m : Int) (c8 : Nat) : Hub :=
  let st := h.timeState
  let v := ((m - h.ballShift port false) * 2 ^ 16 + ((h.time.c : Int) * 8 - c8) * 2 ^ 29) % 2 ^ 96
  if h.mainInUse then h.fbCopy
  else if st = 0 ∨ st = 1 ∨ st = 6 ∨ h.mode = .cellar then h.fbLoad (v.toNat / 2 ^ 7)
  else h

/-- The change of state that an accepted sync of a master brings before its error is judged. A node in ACQUIRE changes to a better master through
RELOCK, as R187 says, though R183's table has no such row (DESIGN CHOICE, log entry 19). -/
def Hub.syncMaster (h : Hub) (key : Nat × Nat) (src : Nat) : Hub :=
  let st := h.timeState
  let better := match h.time.master with
    | some k => betterKey key k && key.2 != k.2
    | none => true
  if st = 3 then (if betterKey key h.ownKey then (h.setMaster src (some key)).setTime 5 else h)
  else if st = 4 then (h.setMaster src (some key)).setTime 5
  else if st = 1 ∨ st = 2 then (if better then (h.setMaster src (some key)).setTime 5 else h.setMaster src (some key))
  else if st = 0 ∨ st = 5 then h.setMaster src (some key)
  else h

/-- The error e = T(rx_ball) − M of a sync, both modulo 2^64 ticks (R169, R182). -/
def Hub.syncError (h : Hub) (port stamp : Nat) (m : Int) : Int := wrap80 (h.mainAt stamp + h.ballShift port false - m)

/-- A sync accepted: the error, the fall-back value, the master, the state machine and the servo (R173, R182 to R187). The fall-back value is
loaded in the state before the sync's own change of state, step and servo update (DESIGN CHOICE, log entry 56). -/
def Hub.acceptSync (h : Hub) (port stamp : Nat) (f : Frame) (d : Int) : Hub :=
  let m := syncTime f d
  let st := h.timeState
  let e := h.syncError port stamp m
  let h := (h.inc pTime TIME.SYNC_RX_COUNT).put pTime TIME.ERR_E (satSigned 32 (e / 256))
  let h := (h.syncFallBack port m stamp).syncMaster (f.field 9 1, f.field 20 16) f.hdr.src
  if st = 0 then (h.aimTime port m stamp).setTime 1
  else
    match h.timeState with
    | 1 => (h.pullIn port e m stamp).servo
    | 2 => (h.watchLock e).servo
    | 5 => (h.pullIn port e m stamp).servo
    | _ => h

/-- What follows from a change of validity, of the path in use or of ring time at a step: the Tracks and the open epoch (R174, R184, R185, R247). -/
def Hub.timeFollows (g h : Hub) : Hub :=
  if g.mainValid = h.mainValid ∧ g.mainInUse = h.mainInUse ∧ g.get pTime TIME.STEP_GEN_GEN = h.get pTime TIME.STEP_GEN_GEN then g
  else g.timeValidityHook h

/-- Whether a node ignores a sync for its rank: one that is not master and follows a better master in ACQUIRE, LOCKED or RELOCK; a sync of the master
followed is never another master's, whatever PRIO it now carries (R187). -/
def Hub.ignoresRank (h : Hub) (key : Nat × Nat) : Bool :=
  let st := h.timeState
  (st == 1 || st == 2 || st == 5) &&
    (match h.time.master with
     | some k => betterKey k key && k.2 != key.2
     | none => false)

/-- TIME_SYNC: a sync frame that the topology unit delivered (R182). -/
def execTimeSync (port stamp : Nat) (frame : Frame) (s : State) : Host.Outcome State Fault Refusal :=
  run s fun h =>
    match h.dIn port with
    | none => h.inc pTime TIME.SYNC_IGNORED_COUNT
    | some d =>
      if h.pllHeld ∨ h.ignoresRank (frame.field 9 1, frame.field 20 16) then h.inc pTime TIME.SYNC_IGNORED_COUNT
      else (h.acceptSync port stamp frame d).timeFollows h

/-- SYNC_TO: no accepted sync for SYNC_TO (R183). -/
def execSyncTo (s : State) : Host.Outcome State Fault Refusal :=
  run s fun h =>
    match h.timeState with
    | 1 => h.setTime 0
    | 2 => (h.setTime 4).timeValidityHook h
    | 5 => (h.setTime 4).timeValidityHook h
    | _ => h

/-- MASTER_CLAIM: a candidate in FREE, LOCKED or HOLDOVER becomes master; one in HOLDOVER for its lost reference stays there until the PLLs have switched
(R183, R187). -/
def execMasterClaim (s : State) : Host.Outcome State Fault Refusal :=
  run s fun h =>
    if h.timeCandidate ∧ (h.timeState = 0 ∨ h.timeState = 2 ∨ (h.timeState = 4 ∧ h.pllHeld = false)) then
      ((h.setTime 3).setMaster h.nodeId (some h.ownKey)).timeFollows h
    else h

/-- HOLD_VALID: its time has passed since the main path left LOCKED or MASTER; in HOLDOVER and RELOCK it stops being valid (R184). -/
def execHoldValid (s : State) : Host.Outcome State Fault Refusal :=
  run s fun h =>
    if h.timeState ≠ 2 ∧ h.timeState ≠ 3 then
      ((h.setTimeSt (fun t => { t with holdExpired := true })).noteTime).timeValidityHook h
    else h

/-! ### The fall-back path and the reads (R171 to R173) -/

/-- FALL_BACK_LOAD: every 125 µs while the main path is in use (R173). -/
def execFallBackLoad (s : State) : Host.Outcome State Fault Refusal :=
  run s fun h => if h.mainInUse then h.fbCopy else h

/-- The read of NOW_LO: NOW_HI and NOW_SUB take the same ring time (R171). -/
def Hub.readNow (h : Hub) : Nat × Hub :=
  let t := h.now % 2 ^ 64
  (t % 2 ^ 32, ((h.put pTime TIME.NOW_HI_THI (t / 2 ^ 32)).put pTime TIME.NOW_SUB_FB (flag (!h.mainInUse))).put
    pTime TIME.NOW_SUB_SUB h.nowSub)

/-- NOW_LO. -/
def execNowLo (req : Req) (s : State) : Host.Outcome State Fault Refusal :=
  run s fun h => h.read req pTime 0x048 Hub.readNow

/-- The lowest and highest FB_INC: 1.9 and 2.1 ns in 2^-24 ns (R196). -/
def fbIncOk (v : Nat) : Bool := decide (19 * 2 ^ 24 ≤ 10 * v) && decide (10 * v ≤ 21 * 2 ^ 24)

/-- FB_INC written; a value outside its limits is ignored, refused and recorded (R172, R196). -/
def Hub.writeFbInc (h : Hub) (req : Req) (v : Nat) : Hub × Bool :=
  if fbIncOk v then (h.put pTime TIME.FB_INC_INC v, true) else (h.accErr req pTime 0x064, false)

/-- FB_INC. -/
def execFbInc (req : Req) (value : Nat) (s : State) : Host.Outcome State Fault Refusal :=
  run s fun h => h.write req pTime 0x064 fun g => g.writeFbInc req value

end Sys2Proof.Machine
end

