-- ==== Sys2Proof/Machine/Derived.lean ====
section
/-!
DEFINITION. The values that the hub derives from the basic registers for its expert registers (R44).
Where the manual is open: DEDUCED, log entry 34.
-/
namespace Sys2Proof.Machine

open Reg

/-- A word with the bits of a field replaced. -/
def setBits (w : Nat) (f : Fld) (v : Nat) : Nat := w - slice w f.lo f.w * 2 ^ f.lo + v % 2 ^ f.w * 2 ^ f.lo

/-- A word put together from values of fields. -/
def wordOf (l : List (Fld × Nat)) : Nat := l.foldl (fun w e => setBits w e.1 e.2) 0

/-- The smallest prescaler that gives a whole number of time quanta within limits, with that number (R425). -/
def canPrescaler (rate lo hi : Nat) : Option (Nat × Nat) :=
  ((List.range 32).map (fun b => (b + 1, 80000000 / ((b + 1) * rate)))).find?
    (fun e => 80000000 % (e.1 * rate) == 0 && decide (lo ≤ e.2) && decide (e.2 ≤ hi))

/-- BRP, TSEG1, TSEG2 and SJW of a phase, from its rate and its sample point in thousandths (R425). -/
def canTiming (data : Bool) (rate sp : Nat) : Option (Nat × Nat × Nat × Nat) :=
  match if rate = 0 then none else canPrescaler rate (if data then 5 else 8) (if data then 49 else 385) with
  | none => none
  | some (brp, n) =>
    let t1 := (n * sp * 2 + 1000) / 2000 - 1
    some (brp, t1, n - 1 - t1, n - 1 - t1)

/-- Whether a derived timing lies within the ranges of its fields (R425). -/
def canTimingOk (data : Bool) (t : Nat × Nat × Nat × Nat) : Bool :=
  if data then decide (1 ≤ t.1) && decide (t.1 ≤ 32) && decide (1 ≤ t.2.1) && decide (t.2.1 ≤ 32) && decide (1 ≤ t.2.2.1) && decide (t.2.2.1 ≤ 16)
    && decide (1 ≤ t.2.2.2) && decide (t.2.2.2 ≤ 16)
  else decide (1 ≤ t.1) && decide (t.1 ≤ 32) && decide (2 ≤ t.2.1) && decide (t.2.1 ≤ 256) && decide (2 ≤ t.2.2.1) && decide (t.2.2.1 ≤ 128)
    && decide (1 ≤ t.2.2.2) && decide (t.2.2.2 ≤ 128)

/-- BRP and TSEG1 of the data phase in effect: DBT's where it replaces the derived ones (R425, R426). -/
def Hub.dataTiming (h : Hub) (p : Nat) : Option (Nat × Nat) :=
  if h.cfgOn p CAN.DBT_USE then some (h.cfg p CAN.DBT_BRP, h.cfg p CAN.DBT_TSEG1)
  else (canTiming true (1000 * h.cfg p CAN.DATA_RATE) (h.cfg p CAN.DATA_SP)).map (fun t => (t.1, t.2.1))

/-- A SerDes port's derived receive peaking code (RX_EQ). In OFF, where no rate is in effect, it shows the code of 1.25 Gbaud (DESIGN CHOICE, log
entry 34). -/
def peaking (rate : Nat) : Nat := if rate = 1 then 9 else if rate = 2 then 4 else 2

/-- Whether byte 8 of a module's A0h page identifies a passive direct-attach cable (R139; bit 2 under SFF-8472, PRESUMED, log entry 13). -/
def Hub.copperModule (h : Hub) (port : Nat) : Bool := h.modulePresent port && bitOf (Mem.read (h.port port).a0 8).toNat 2

/-- The nominal voltage of a bank class in mV (R327). -/
def classVolts (c : Nat) : Nat := if c = 1 then 1800 else if c = 2 then 2500 else if c = 3 then 3300 else 5000

/-- The derived fields of an expert register; none where the manual gives no value for them (R44). -/
def Hub.derived (h : Hub) (k : Kind) (p off : Nat) : Option (List (Fld × Nat)) :=
  let i := (off - 0x400) / 4
  match k, off with
  | .rport, 0x400 =>
    let e := Config.txEqualisation (h.copperModule (instOf p)) (h.get p RPORT.STAT_RATE_EFF)
    some [(RPORT.TX_EQ_PRE, e.1), (RPORT.TX_EQ_MAIN, e.2.1), (RPORT.TX_EQ_POST, e.2.2)]
  | .rport, 0x408 => some [(RPORT.AUTO_DWELL_DWELL, h.dwell (instOf p))]
  | .rport, 0x404 => some [(RPORT.RX_EQ_CTLE, peaking (h.get p RPORT.STAT_RATE_EFF))]
  | .topo, 0x400 => some [(TOPO.KA_TIMING_LOSS, 10), (TOPO.KA_TIMING_INTERVAL, 6)]
  | .time, 0x418 =>
    some [(TIME.TEMP_COEF_TX_TC, ofSigned 8 (Config.calibration h.calibrationWords 12)),
          (TIME.TEMP_COEF_RX_TC, ofSigned 8 (Config.calibration h.calibrationWords 13))]
  | .time, 0x41C =>
    let g := Config.servoGain (h.cfg pTime TIME.CFG_SYNC_INT)
    some [(TIME.SERVO_KP, g.1), (TIME.SERVO_KI, g.2), (TIME.SERVO_SLEW, 50)]
  | .time, 0x420 => some [(TIME.LOCK_LOCK_COUNT, 8), (TIME.LOCK_LOCK_THRESH, 100)]
  | .time, 0x424 => some [(TIME.STEP_THRESH_US, 10)]
  | .time, _ =>
    if i < 6 then
      some [(TIME.ASYM_TX_LAT i, ofSigned 15 (Config.calibration h.calibrationWords (2 * i))),
            (TIME.ASYM_RX_LAT i, ofSigned 15 (Config.calibration h.calibrationWords (2 * i + 1)))]
    else none
  | .trk, 0x400 => some []
  | .trk, 0x404 => some [(TRK.ESTIM_ORDER, 2)]
  | .sw, 0x400 => some [(SW.MATCH_ITER, 3)]
  | .bank, 0x400 =>
    (match h.bankClass (instOf p) with
     | 1 => some [(BANK.SLEW_CODE, 7)]
     | 2 => some [(BANK.SLEW_CODE, 6)]
     | 3 => some [(BANK.SLEW_CODE, 5)]
     | 4 => some [(BANK.SLEW_CODE, 3)]
     | _ => none)
  | .bank, 0x404 =>
    let mv := h.get p BANK.STAT_VMEAS
    (match h.bankClass (instOf p) with
     | 0 => none
     | 4 => some [(BANK.THRESH_VIH, 2000), (BANK.THRESH_VIL, 800)]
     | _ => some [(BANK.THRESH_VIH, mv * 7 / 10), (BANK.THRESH_VIL, mv * 3 / 10)])
  | .uart, 0x400 => some [(UART.BITTIME_TBIT, 128000000000 / h.cfg p UART.BAUD_RATE)]
  | .spi, 0x400 => some [(SPI.TIMING_HALF, (250000 + h.cfg p SPI.CLK_FREQ - 1) / h.cfg p SPI.CLK_FREQ)]
  | .i2c, 0x400 =>
    some [(I2C.TIMING_LOW, 150000 / h.cfg p I2C.CFG_RATE), (I2C.TIMING_HIGH, 100000 / h.cfg p I2C.CFG_RATE)]
  | .i2c, 0x404 => some [(I2C.HOLD_HOLD, min (150000 / h.cfg p I2C.CFG_RATE / 4) 75)]
  | .can, 0x400 =>
    (match canTiming false (h.cfg p CAN.NOMINAL_RATE) (h.cfg p CAN.NOMINAL_SP) with
     | some t => some [(CAN.NBT_BRP, t.1), (CAN.NBT_TSEG1, t.2.1), (CAN.NBT_TSEG2, t.2.2.1), (CAN.NBT_SJW, t.2.2.2)]
     | none => none)
  | .can, 0x404 =>
    (match canTiming true (1000 * h.cfg p CAN.DATA_RATE) (h.cfg p CAN.DATA_SP) with
     | some t => some [(CAN.DBT_BRP, t.1), (CAN.DBT_TSEG1, t.2.1), (CAN.DBT_TSEG2, t.2.2.1), (CAN.DBT_SJW, t.2.2.2)]
     | none => none)
  | .can, 0x408 =>
    (match h.dataTiming p with
     | some t => some [(CAN.TDC_EN, flag (h.cfgOn p CAN.CFG_BRS_EN && decide (1000 < h.cfg p CAN.DATA_RATE))), (CAN.TDC_OFS, (1 + t.2) * t.1)]
     | none => none)
  | .eth, 0x400 =>
    let x (tx : Bool) : Nat :=
      ofSigned 15 (Config.calibration h.calibrationWords (14 + 2 * h.cfg pEth ETH.CFG_MODE + flag (!tx)))
    some [(ETH.TS_LAT_TX_LAT, x true), (ETH.TS_LAT_RX_LAT, x false)]
  | .zone, 0x400 => some [(ZONE.IFAST_UV, min (2 * h.ilimEff (instOf p) * h.cfg p ZONE.SHUNT_RSHUNT) 48000000 / 1000)]
  | .zone, 0x404 => some [(ZONE.CAL_OFS, h.get p ZONE.ZERO_COLD)]
  | .zone, 0x408 => some [(ZONE.GATE_VGS_FULL, 90), (ZONE.GATE_VGS_RISE, 20)]
  | .therm, 0x400 => some [(THERM.TRIP_BULK_C, 120), (THERM.TRIP_BANK_C, 130)]
  | _, _ => none

/-- A read of an expert register whose expert level is open: what is written where USE is 1, else the derived value; a derived value that the
manual does not give is free (R44). -/
def Hub.readExpert (h : Hub) (k : Kind) (p off : Nat) : Nat × Hub :=
  let fs := fieldsAt k off
  if fs = [] ∨ bitOf (h.regWord p off) 31 then (h.regWord p off, h)
  else
    match h.derived k p off with
    | some l => (wordOf l, h)
    | none =>
      fs.foldl (fun (a : Nat × Hub) f => if f.lo = 31 then a else (setBits a.1 f a.2.fresh.1, a.2.fresh.2)) (0, h)

end Sys2Proof.Machine
end

