-- ==== Sys2Proof/Machine/Serial.lean ====
section
/-!
DEFINITION. The commands and events of the UART, SPI, SSI and I2C controllers (R361 to R394).
Where the manual is open: DEDUCED, log entry 27.
-/
namespace Sys2Proof.Machine

open Reg

/-! ### FIFOs and stamps (R361 to R364, R390) -/

/-- TXD: a write to TXD or to the push window; it is answered once the entry is stored or refused, or at STALL_TO. -/
def execTxd (req : Req) (page off value : Nat) (s : State) : Host.Outcome State Fault Refusal :=
  run s fun h =>
    match h.turnedAway req page off 4 with
    | some e => e.hear req (pageAddr page off) (h.stopStatus req page off 4 true)
    | none =>
      if pushPlace page off then h.pushTx page value (.reply req (pageAddr page off))
      else (h.accErr req page off).hear req (pageAddr page off) stNoTarget

/-- STALL_TO: the oldest stalled write of a serial controller or a Prism engine's IN has found no free entry within STALL_MAX. -/
def execStallTo (page : Nat) (s : State) : Host.Outcome State Fault Refusal :=
  run s fun h => if kindOf page = some .prs then h.stallTimeoutIn (instOf page) else h.stallTimeout page

/-- RXD: a read of RXD or of the pop window; any other offset is an error (R34). -/
def execRxd (req : Req) (page off : Nat) (s : State) : Host.Outcome State Fault Refusal :=
  run s fun h =>
    match h.readTurnedAway req page off 4 with
    | some e => e.readFails req (pageAddr page off) (h.stopStatus req page off 4 false)
    | none =>
      if popPlace page off then (h.popRx page).2.emit (.data req (h.popRx page).1)
      else (h.accErr req page off).readFails req (pageAddr page off) stNoTarget

/-- A write of FIFO_CTL (R390). -/
def Hub.writeFifoCtl (h : Hub) (p v : Nat) : Hub :=
  let h := if bitOf v 0 then h.flushTx p else h
  let h := if bitOf v 1 then h.flushRx p else h
  if bitOf v 2 then h.setSer p (fun s => { s with stamps := [], head := (s.head + s.stamps.length) % 16 }) else h

/-- TX_FLUSH. -/
def execTxFlush (req : Req) (page : Nat) (s : State) : Host.Outcome State Fault Refusal :=
  run s fun h => h.writeDo req page 0x050 fun g => g.writeFifoCtl page 1

/-- RX_FLUSH. -/
def execRxFlush (req : Req) (page : Nat) (s : State) : Host.Outcome State Fault Refusal :=
  run s fun h => h.writeDo req page 0x050 fun g => g.writeFifoCtl page 2

/-- TS_CLR. -/
def execTsClr (req : Req) (page : Nat) (s : State) : Host.Outcome State Fault Refusal :=
  run s fun h => h.writeDo req page 0x050 fun g => g.writeFifoCtl page 4

/-- A write of TS_ACK: the oldest stamps leave; more than there are is an error (R390). -/
def Hub.writeTsAck (h : Hub) (req : Req) (p v : Nat) : Hub × Bool :=
  let n := v % 32
  let s := h.ser p
  if s.stamps.length < n then (h.accErr req p 0x058, false)
  else (h.setSer p (fun s => { s with stamps := s.stamps.drop n, head := (s.head + n) % 16 }), true)

/-- TS_ACK. -/
def execTsAck (req : Req) (page value : Nat) (s : State) : Host.Outcome State Fault Refusal :=
  run s fun h => h.write req page 0x058 fun g => g.writeTsAck req page value

/-- RX_TO: entries wait in the receive FIFO and nothing has been pushed for RX_TO µs. -/
def execRxTo (page : Nat) (s : State) : Host.Outcome State Fault Refusal :=
  run s fun h => if (h.ser page).rx ≠ [] ∧ h.cfg page SER.FIFO_CFG_RX_TO ≠ 0 then h.irq page 2 else h

/-! ### UART reception (R370, R371, R374, R377, R378) -/

/-- Several receive entries pushed. -/
def Hub.pushAll (h : Hub) (p : Nat) (l : List Nat) : Hub := l.foldl (fun g e => g.pushRx p e) h

/-- A received message that was held for the routes ends: it is routed, or it enters the receive FIFO (R374). -/
def Hub.endHeld (h : Hub) (p : Nat) : Hub :=
  let u := (h.ser p).uart
  let idLen := h.cfg p UART.MSG_CFG_ID_LEN
  let bytes := u.held.map (fun e => BitVec.ofNat 8 e)
  let id := leNat (bytes.take idLen)
  let data := bytes.drop idLen
  let h := h.setUart p (fun u => { u with held := [], long := false })
  if u.long then h.inc p UART.MSG_BAD_COUNT
  else if u.held = [] then h
  else if !h.cfgOn p UART.MSG_CFG_ROUTE then h.pushAll p u.held
  else if data = [] ∨ 256 < data.length ∨ u.held.any (fun e => slice e 27 3 != 0) then (h.pushAll p u.held).inc p UART.MSG_BAD_COUNT
  else
    let taken := (List.range 512).any (fun e => h.routeMatches e 1 (instOf p) false id)
    let h := h.routeOut 1 (instOf p) 0 id (u.heldAt / 8) data
    if taken then h.inc p UART.MSG_ROUTED_COUNT else h.pushAll p u.held

/-- A received message ends; the next character carries FIRST (R374, R378). -/
def Hub.endMessage (h : Hub) (p : Nat) : Hub :=
  let opened := h.on p UART.STAT_MSG_OPEN
  let h := (h.endHeld p).setUart p (fun u => { u with first := true })
  if opened then (h.put p UART.STAT_MSG_OPEN 0).irq p 4 else h

/-- IOL_STATE set, with PG_IRQ_RAW bit 5 on a change. -/
def Hub.setIol (h : Hub) (p st : Nat) : Hub := h.putIrq p UART.STAT_IOL_STATE st 5

/-- The characters of a DATA entry (R371). -/
def dataChars (bits e : Nat) : List Nat :=
  if bits = 9 then [slice e 0 9] else (List.range (slice e 26 2)).map (fun i => slice e (8 * i) 8 % 2 ^ bits)

/-- What a transmit entry has sent, in order: characters, a break and a gap of so many bit times (R371). -/
inductive SendItem where
  | char (c : Nat)
  | brk (n : Nat)
  | gap (n : Nat)
deriving DecidableEq, Repr

/-- What a transmit entry sends; none where its OP or COUNT is refused (R371; a BREAK outside its range too, log entry 27). -/
def entryItems (bits e : Nat) : Option (List SendItem) :=
  let n := slice e 26 2
  let v := slice e 0 24
  match slice e 28 3 with
  | 0 => if n = 0 ∨ (bits = 9 ∧ n ≠ 1) then none else some ((dataChars bits e).map .char)
  | 1 => if v < 11 ∨ 65535 < v then none else some [.brk v]
  | 2 => some [.gap v]
  | 3 => some []
  | _ => none

/-- The first message of a transmit FIFO: what it sends and its number of entries, END included; none without an END (R377). -/
def firstMessage : List Nat → Option (List SendItem × Nat)
  | [] => none
  | e :: l =>
    if slice e 28 3 = 3 then some ([], 1)
    else (firstMessage l).map (fun r => ((entryItems 8 e).getD [] ++ r.1, r.2 + 1))

/-- A start bit ends the IO-Link sequence in OPERATE, and the first message leaves (R377); in OPERATE it is the awaited response (R378). -/
def Hub.iolAnswer (h : Hub) (p : Nat) : Hub :=
  let u := (h.ser p).uart
  let h := h.setUart p (fun u => { u with awaiting := false })
  if u.stage ≠ 4 then h
  else
    let n := match firstMessage (h.ser p).tx with
      | some r => r.2
      | none => 0
    (((h.setUart p (fun u => { u with stage := 0 })).put p UART.STAT_COM_EFF u.com).setIol p 3).dropTxN p n

/-- Whether the level of a character's parity bit is wrong: PARITY none, even, odd, mark or space (R369). -/
def parityWrong (parity bits d : Nat) (level : Bool) : Bool :=
  match parity with
  | 1 => level != oddOnes bits d
  | 2 => level == oddOnes bits d
  | 3 => !level
  | 4 => level
  | _ => false

/-- What a UART makes of its line: a character with its parity and framing errors, or none for a break, which is also a character whose
every bit is low (R370). -/
def judgeRx (parity bits : Nat) : UartRx → Option (Nat × Bool × Bool)
  | .brk => none
  | .char d level low =>
    if d % 2 ^ bits = 0 ∧ low ∧ (parity = 0 ∨ level = false) then none else some (d % 2 ^ bits, parityWrong parity bits d level, low)

/-- The errors of a received character or break, counted and stamped (R368, R370). -/
def Hub.noteChar (h : Hub) (p : Nat) (rx : Option (Nat × Bool × Bool)) (stamp : Nat) (fb : Bool) : Hub :=
  match rx with
  | none => ((h.inc p UART.BRK_COUNT).put p UART.STAT_BREAK 1).stampSer p 3 stamp fb
  | some (_, pe, fe) =>
    let h := if (h.ser p).uart.first then h.stampSer p 1 stamp fb else h
    let h := if pe then h.inc p UART.PERR_COUNT else h
    let h := if fe then h.inc p UART.FERR_COUNT else h
    if pe || fe then (h.note p 1).stampSer p 4 stamp fb else h

/-- The receive entry of a character or break (R371). -/
def rxEntry (first : Bool) : Option (Nat × Bool × Bool) → Nat
  | none => 2 ^ 29
  | some (d, pe, fe) => flag first * 2 ^ 30 + flag pe * 2 ^ 28 + flag fe * 2 ^ 27 + d

/-- An entry stored in the FIFO, or held in the message buffer for the routes (R374). -/
def Hub.storeChar (h : Hub) (p e stamp : Nat) (hold : Bool) : Hub :=
  let u := (h.ser p).uart
  if !hold || u.long then h.pushRx p e
  else if 258 ≤ u.held.length then ((h.pushAll p u.held).setUart p (fun u => { u with held := [], long := true })).pushRx p e
  else h.setUart p (fun u => { u with held := u.held ++ [e], heldAt := if u.held = [] then stamp % 2 ^ 64 else u.heldAt })

/-- A character or break received, whose start edge the synchroniser showed `ago` edges of the clock ago; `old` where it began before the last
commit (R56). After a break nothing is received until RX has been high (R370). -/
def Hub.receiveChar (h : Hub) (p : Nat) (rx : UartRx) (ago : Nat) (old : Bool) : Hub :=
  let stamp := h.inputStamp ago
  let fb := h.onFallBack
  let cfg (f : Fld) : Nat := h.serCfg p old f
  let mode := cfg UART.FRAME_MODE
  let h := h.setUart p (fun u => { u with rxSince := none })
  if !h.works p old || !h.hears p 1 || (h.on p UART.STAT_BREAK && !h.signalLevel p 1) then h
  else if cfg UART.FRAME_HALF = 1 ∧ cfg UART.FRAME_ECHO_OFF = 1 ∧ h.echoes p ago then h
  else
    let h := h.put p UART.STAT_BREAK 0
    let first := (h.ser p).uart.first
    let bits := if mode = 2 then 8 else cfg UART.FRAME_BITS
    let msb := mode != 2 && cfg UART.FRAME_MSB_FIRST == 1
    let got := (judgeRx (if mode = 2 then 1 else cfg UART.FRAME_PARITY) bits rx).map (fun x => (if msb then reverseBits bits x.1 else x.1, x.2))
    let h := (if mode = 2 then h.iolAnswer p else h).noteChar p got stamp fb
    let h := h.storeChar p (rxEntry first got) stamp (mode == 1 && cfg UART.MSG_CFG_ROUTE == 1)
    let h := if mode = 0 then h else h.put p UART.STAT_MSG_OPEN 1
    let h := match got with
      | none => h
      | some (d, _, _) =>
        let h := h.setUart p (fun u => { u with first := false })
        if mode ≠ 2 ∧ cfg UART.MSG_CFG_DELIM_EN = 1 ∧ d = cfg UART.MSG_CFG_DELIM then h.endMessage p else h
    h.finishSer p

/-- UART_CHARACTER_RECEIVE. -/
def execUartCharacterReceive (unit : Nat) (rx : UartRx) (ago : Nat) (old : Bool) (s : State) : Host.Outcome State Fault Refusal :=
  run s fun h => h.receiveChar (pUart unit) rx ago old

/-- MESSAGE_END: the idle gap after a received message: GAP character times, or T2_MAX + 1 bit times in IO-Link. -/
def execMessageEnd (unit : Nat) (s : State) : Host.Outcome State Fault Refusal :=
  run s fun h => if h.runs (pUart unit) then h.endMessage (pUart unit) else h

/-! ### UART transmission (R369, R371 to R373, R375, R377) -/

/-- The ticks from DE's assertion to the start bit of a transmission that begins: LEAD, or none where DE is asserted already (R372). -/
def Hub.leadIn (h : Hub) (p : Nat) : Nat :=
  if h.cfgOn p UART.DE_CFG_DE_EN && !h.deAsserted p then 50 * h.cfg p UART.DE_CFG_LEAD else 0

/-- DE is asserted, with DE_EN (R372). -/
def Hub.assertDe (h : Hub) (p : Nat) : Hub :=
  let de := h.cfgOn p UART.DE_CFG_DE_EN
  (h.setUart p (fun u => { u with de := de, releaseAt := if de then none else u.releaseAt })).serialEvent p 2

/-- A character begins: DE is asserted LEAD before its start bit, and the start bit of the first of a message is stamped (R368, R372). -/
def Hub.sendChar (h : Hub) (p c : Nat) : Hub :=
  let h := if (h.ser p).uart.open_ then h else h.stampSer p 2 (h.outputStamp (h.leadIn p)) h.onFallBack
  (((h.assertDe p).setUart p (fun u => { u with open_ := true })).put p UART.STAT_TX_BUSY 1).sendOut p 0 (h.charOut p c)

/-- The transmitter is at rest: DE is released LAG later (R372). -/
def Hub.restSender (h : Hub) (p : Nat) : Hub :=
  let at_ := h.clock + 50 * h.cfg p UART.DE_CFG_LAG
  let h := if (h.ser p).uart.de then h.serialEvent p 2 else h
  (h.setUart p (fun u => { u with open_ := false, de := false, releaseAt := if u.de then some at_ else u.releaseAt })).put p UART.STAT_TX_BUSY 0

/-- The end of a sent message: in OPERATE it starts a response check (R378). -/
def Hub.endSent (h : Hub) (p : Nat) : Hub :=
  let h := h.restSender p
  if h.cfg p UART.FRAME_MODE = 2 then h.setUart p (fun u => { u with awaiting := true }) else h

/-- A character, a break, which also asserts DE, or a gap begins (R371, R372). -/
def Hub.sendItem (h : Hub) (p : Nat) : SendItem → Hub
  | .char c => h.sendChar p c
  | .brk n => ((h.assertDe p).put p UART.STAT_TX_BUSY 1).sendOut p 0 (.brk n)
  | .gap _ => h.put p UART.STAT_TX_BUSY 0

/-- The transmitter takes the oldest entry of its FIFO; a refused one is discarded and counted (R371). -/
def Hub.sendEntry (h : Hub) (p : Nat) : Hub :=
  match (h.ser p).tx with
  | [] => h.restSender p
  | e :: _ =>
    let h := h.dropTx p
    match entryItems (h.charBits p) e with
    | none => h.inc p UART.BAD_CMD_COUNT
    | some [] => h.endSent p
    | some (x :: l) =>
      let cs := l.filterMap (fun y => match y with
        | .char c => some c
        | _ => none)
      (h.setUart p (fun u => { u with chars := cs })).sendItem p x

/-- The refused entries of the first message leave, counted (R371, R377). -/
def Hub.dropRefused (h : Hub) (p : Nat) : Hub :=
  let tx := (h.ser p).tx
  let head := tx.takeWhile (fun e => slice e 28 3 != 3)
  let good := head.filter (fun e => (entryItems 8 e).isSome)
  if good = head then h else (h.addTo p UART.BAD_CMD_COUNT (head.length - good.length)).setTx p (good ++ tx.drop head.length)

/-- The next of what the first message sends goes out without removing it; after the last, TA_MAX runs (R377). -/
def Hub.sendTry (h : Hub) (p : Nat) : Hub :=
  if (firstMessage (h.ser p).tx).isNone then h
  else
    let h := h.dropRefused p
    let items := ((firstMessage (h.ser p).tx).getD ([], 0)).1
    let n := (h.ser p).uart.sent
    match items[n]? with
    | some x => (h.setUart p (fun u => { u with sent := n + 1 })).sendItem p x
    | none => (h.restSender p).setUart p (fun u => { u with stage := 4, sent := 0 })

/-- Whether the transmitter has anything to send. -/
def Hub.hasWork (h : Hub) (p : Nat) : Bool :=
  let s := h.ser p
  s.tx != [] || s.uart.chars != [] || s.uart.buffer != [] || s.uart.stage == 6

/-- The wake-up request: DE asserted, TX opposite to the RX level (R377). -/
def Hub.sendWake (h : Hub) (p : Nat) : Hub :=
  ((h.setUart p (fun u => { u with stage := 1, de := true, releaseAt := none })).serialEvent p 2).sendOut p 0 (.wake (!h.signalLevel p 1))

/-- The transmitter at a character boundary. -/
def Hub.sendNext (h : Hub) (p : Nat) : Hub :=
  let u := (h.ser p).uart
  if h.cfg p UART.FRAME_MODE = 2 ∧ u.stage = 6 then h.sendWake p
  else if h.cfg p UART.FRAME_MODE = 2 ∧ u.stage = 3 then h.sendTry p
  else if h.cfg p UART.FRAME_MODE = 2 ∧ h.get p UART.STAT_IOL_STATE ≠ 3 then h
  else
    match u.chars with
    | c :: cs => (h.setUart p (fun u => { u with chars := cs })).sendChar p c
    | [] =>
      if u.fromBuffer || (!u.open_ && u.buffer != []) then
        match u.buffer with
        | b :: bs => (h.setUart p (fun u => { u with fromBuffer := true, buffer := bs })).sendChar p b.toNat
        | [] => ((h.setUart p (fun u => { u with fromBuffer := false })).put p UART.STAT_RT_PEND 0).endSent p
      else h.sendEntry p

/-- UART_CHARACTER_TRANSMIT: at a character boundary the transmitter sends what comes next, pauses while its outputs are held, waits for
CTS under FLOW, or comes to rest with nothing to send; the last character of a disabled one has ended (R56, R367, R369, R372, R373). -/
def execUartCharacterTransmit (unit : Nat) (s : State) : Host.Outcome State Fault Refusal :=
  run s fun h =>
    let p := pUart unit
    if !h.runs p then (if (h.ser p).finishing then (h.restSender p).finishSer p else h)
    else if h.serHeld p || (h.cfgOn p UART.FRAME_FLOW && !h.signalLevel p 4 && h.hasWork p) then h.put p UART.STAT_TX_BUSY 0
    else h.sendNext p

/-! ### IO-Link (R377, R378) -/

/-- A write of IOL_CTL: WAKE starts the sequence with the wake-up request. While the mode or a safe-value condition holds the outputs, the
request waits as transmit data does (R80, R367, R377). -/
def Hub.writeIol (h : Hub) (p v : Nat) : Hub :=
  if bitOf v 0 ∧ h.cfg p UART.FRAME_MODE = 2 ∧ h.runs p = true then
    let h := h.setUart p (fun u => { u with stage := 6, tries := 0, sent := 0, com := 0, awaiting := false })
    let h := (h.put p UART.STAT_COM_EFF 0).setIol p 1
    if h.serHeld p then h else h.sendWake p
  else h

/-- WAKE_IOL: a write of 1 to IOL_CTL.WAKE starts the sequence. -/
def execWakeIol (req : Req) (unit value : Nat) (s : State) : Host.Outcome State Fault Refusal :=
  run s fun h => h.writeDo req (pUart unit) 0x080 fun g => g.writeIol (pUart unit) value

/-- The next rate, or FAILED with its fault and a TO entry (R377). -/
def Hub.nextIolRate (h : Hub) (p : Nat) : Hub :=
  let u := (h.ser p).uart
  if h.cfg p UART.IOL_CFG_COM = 0 ∧ 1 < u.com then h.setUart p (fun u => { u with stage := 3, com := u.com - 1, tries := 0, sent := 0 })
  else (((h.setUart p (fun u => { u with stage := 0 })).setIol p 4).pushRx p (2 ^ 25)).note p 2

/-- IOL_STAGE_TIMER: the time of the present stage has run out. -/
def execIolStageTimer (unit : Nat) (s : State) : Host.Outcome State Fault Refusal :=
  run s fun h =>
    let p := pUart unit
    let u := (h.ser p).uart
    match u.stage with
    | 1 => h.setUart p (fun u => { u with stage := 2, de := false, releaseAt := some h.clock })
    | 2 =>
      let com := h.cfg p UART.IOL_CFG_COM
      (h.setUart p (fun u => { u with stage := 3, com := if com = 0 then 3 else com, tries := 0, sent := 0 })).setIol p 2
    | 4 =>
      if u.tries + 1 < h.cfg p UART.IOL_CFG_TRIES then h.setUart p (fun u => { u with stage := 5, tries := u.tries + 1 })
      else h.nextIolRate p
    | 5 => h.setUart p (fun u => { u with stage := 3, sent := 0 })
    | _ => h

/-- RESP_TO: no start bit has followed an END within TA_MAX bit times. -/
def execRespTo (unit : Nat) (s : State) : Host.Outcome State Fault Refusal :=
  run s fun h =>
    let p := pUart unit
    if (h.ser p).uart.awaiting then
      ((h.setUart p (fun u => { u with awaiting := false })).inc p UART.RESP_TO_COUNT).pushRx p (2 ^ 25)
    else h

/-! ### SPI (R379 to R381) -/

/-- The command entry that a write of FRAME pushes (R380). -/
def frameEntry (v : Nat) : Nat := 0xC5000000 + slice v 20 4 * 2 ^ 20 + v % 2 ^ 10

/-- FRAME: a write pushes a command entry. -/
def execFrame (req : Req) (unit value : Nat) (s : State) : Host.Outcome State Fault Refusal :=
  run s fun h =>
    match h.turnedAway req (pSpi unit) 0x078 4 with
    | some e => e.hear req (pageAddr (pSpi unit) 0x078) (h.stopStatus req (pSpi unit) 0x078 4 true)
    | none => h.pushTx (pSpi unit) (frameEntry value) (.reply req (pageAddr (pSpi unit) 0x078))

/-- The settings that a word runs under: WIDTH, LSB_FIRST, CPHA. -/
structure WordForm where
  width : Nat := 8
  lsb : Bool := false
  cpha : Bool := false
deriving DecidableEq, Repr

/-- The settings of a controller's words; `old` for one begun before the last commit (R56, R379). -/
def Hub.wordForm (h : Hub) (p : Nat) (old : Bool) : WordForm :=
  { width := h.serCfg p old SPI.WORD_WIDTH, lsb := h.serCfg p old SPI.WORD_LSB_FIRST == 1, cpha := h.serCfg p old SPI.CLK_CPHA == 1 }

/-- A word as it goes onto the line (R379). -/
def WordForm.out (x : WordForm) (e : Nat) : SerialOut := .word x.cpha (lineBits (!x.lsb) x.width e)

/-- The word received on a signal: the levels sampled, the last one lowest, in the order that LSB_FIRST gives (R353, R379). -/
def Hub.wordIn (h : Hub) (p s : Nat) (x : WordForm) (data : Nat) : Nat × Hub :=
  let got := h.heard p s x.width data
  (if x.lsb then reverseBits x.width got.1 else got.1, got.2)

/-- A word of a master's frame has been clocked (R380). The frame ends here where its outputs are held, which is an abort (R367), and where the
controller has been disabled (R56). -/
def Hub.masterWord (h : Hub) (p data : Nat) (x : WordForm) : Hub :=
  match (h.ser p).spi.frame, (h.ser p).tx with
  | some (_, _, off), e :: _ =>
    if h.betweenWords p then h
    else
      let left := h.get p SPI.STAT_WORDS_LEFT - 1
      let h := ((h.dropTx p).sendOut p 1 (x.out e)).put p SPI.STAT_WORDS_LEFT left
      let got := h.wordIn p 2 x data
      let h := if off || h.fenced p then h else got.2.pushRx p got.1
      if left = 0 then (h.endFrame p).takeEntries p else if h.serHeld p then h.abortFrame p else if (h.ser p).finishing then h.endFrame p else h
  | _, _ => h

/-- A word of a slave's selection has been clocked: it takes an entry, or sends zero (R381). While MISO is held at its safe value the transmit
data is held and nothing is shifted out (R80, R367). -/
def Hub.slaveWord (h : Hub) (p data : Nat) (x : WordForm) : Hub :=
  let h :=
    if h.serHeld p then h
    else
      match (h.ser p).tx with
      | e :: _ => (h.dropTx p).sendOut p 2 (x.out e)
      | [] => ((h.inc p SPI.SLV_UNDER_COUNT).note p 2).sendOut p 2 (x.out 0)
  let got := h.wordIn p 1 x data
  got.2.pushRx p got.1

/-- SPI_WORD: a word has been clocked; `data` is the levels sampled, the last one lowest, `old` where it began before the last commit (R56). A
fenced master's word ends its frame (R367). -/
def execSpiWord (unit data : Nat) (old : Bool) (s : State) : Host.Outcome State Fault Refusal :=
  run s fun h =>
    let p := pSpi unit
    let x := h.wordForm p old
    match h.serCfg p old SPI.CLK_ROLE with
    | 0 => if h.works p old || h.fenced p then (h.masterWord p data x).finishSer p else h
    | 1 => if h.works p old && h.on p SPI.STAT_FRAME_OPEN && h.hears p 0 then (h.slaveWord p data x).finishSer p else h
    | _ => h

/-- CS_ASSERT: CS0 is asserted at a slave; the synchroniser showed its edge `ago` edges of the clock ago. -/
def execCsAssert (unit ago : Nat) (s : State) : Host.Outcome State Fault Refusal :=
  run s fun h =>
    let p := pSpi unit
    if h.runs p ∧ h.cfg p SPI.CLK_ROLE = 1 ∧ h.hears p 3 then (h.put p SPI.STAT_FRAME_OPEN 1).stampSer p 1 (h.inputStamp ago) h.onFallBack else h

/-- CS_DEASSERT: CS0 is deasserted at a slave; a part of a word is discarded. -/
def execCsDeassert (unit : Nat) (partWord : Bool) (s : State) : Host.Outcome State Fault Refusal :=
  run s fun h =>
    let p := pSpi unit
    if h.cfg p SPI.CLK_ROLE = 1 ∧ h.on p SPI.STAT_FRAME_OPEN then
      (h.endSelection p partWord).finishSer p
    else h

/-! ### SSI (R382, R383) -/

/-- The number whose Gray code is given. -/
def grayDecode (n g : Nat) : Nat := (List.range n).foldl (fun a i => a ^^^ (g >>> i)) 0

/-- Whether an SPI controller is the encoder of a source Track (R383). -/
def Hub.trackEncoder (h : Hub) (unit : Nat) : Bool :=
  (List.range 16).any (fun k => h.isSource k && h.cfg (pTrk k) TRK.SRC_CFG_TYPE == 2 && h.cfg (pTrk k) TRK.SRC_CFG_SPI == unit)

/-- A write of SSI_CTL: READ starts one read, or is refused for a Track's encoder (R383). -/
def Hub.writeSsiCtl (h : Hub) (unit v : Nat) : Hub :=
  let p := pSpi unit
  if !bitOf v 0 || h.cfg p SPI.CLK_ROLE != 2 then h
  else if h.trackEncoder unit then h.inc p SPI.SSI_REFUSED_COUNT
  else if !h.runs p || h.serHeld p || (h.ser p).spi.reading then h
  else (h.startSsi p (h.ssiWait p)).setSpi p (fun s => { s with reading := true })

/-- SSI_CTL_READ. -/
def execSsiCtlRead (req : Req) (unit value : Nat) (s : State) : Host.Outcome State Fault Refusal :=
  run s fun h => h.writeDo req (pSpi unit) 0x074 fun g => g.writeSsiCtl unit value

/-- An SSI frame error, stamped with the first clock edge of its frame (R368, R382). -/
def Hub.ssiError (h : Hub) (p : Nat) : Hub :=
  let x := (h.ser p).spi.ssiStart
  ((h.inc p SPI.SSI_ERR_COUNT).note p 1).stampSer p 4 x.1 x.2

/-- Whether the levels of an SSI read of `n` value bits pass its checks: MISO high at the first falling edge, low at the encoder's monoflop
time with CHECK_END, and with PAR an even number of ones over the value and the parity bit that ends it (R382). -/
def Hub.ssiPasses (h : Hub) (p n raw : Nat) (first last : Bool) : Bool :=
  first && !(h.cfgOn p SPI.SSI_CHECK_END && last) && !(h.cfgOn p SPI.SSI_PAR && oddOnes (n + 1) raw)

/-- The value of an SSI read: its bits without the parity bit (R382). -/
def Hub.ssiValue (h : Hub) (p n raw : Nat) : Nat := (if h.cfgOn p SPI.SSI_PAR then raw / 2 else raw) % 2 ^ n

/-- SSI_READ_END: a read ends; `raw` is the bits sampled, the last one lowest, `first` and `last` the levels at the first falling edge and at
the monoflop time, which is half a clock period after the last rising edge. A read whose outputs are held ends without a value and is counted in FRAME_ABORT
(R367, R382, R383). Where MISO is not heard, every level is its idle level, which is free (R353). -/
def execSsiReadEnd (unit raw : Nat) (first last : Bool) (s : State) : Host.Outcome State Fault Refusal :=
  run s fun h =>
    let p := pSpi unit
    if !(h.works p true || h.fenced p) || h.serCfg p (h.ser p).finishing SPI.CLK_ROLE != 2 then h
    else
      let heard := h.hears p 2
      let idle := bitOf h.fresh.1 0
      let h := if heard then h else h.fresh.2
      let first := if heard then first else idle
      let last := if heard then last else idle
      let raw := if heard then raw else if idle then 2 ^ 40 - 1 else 0
      match h.ssiTrack unit with
      | some k =>
        let h := h.endSsi p
        if h.serHeld p then (h.setTrack k (fun t => { t with ssiReading := false })).inc p SPI.FRAME_ABORT_COUNT
        else
          let n := h.cfg (pTrk k) TRK.SRC_CFG_SSI_BITS
          if !h.ssiPasses p n raw first last then
            (let h := (h.setTrack k (fun t => { t with ssiReading := false })).ssiError p
             if h.sourceRuns k then h.encoderError k else h)
          else
            let v := h.ssiValue p n raw
            h.ssiPosition k (if h.cfgOn (pTrk k) TRK.SRC_CFG_SSI_GRAY then grayDecode n v else v)
      | none =>
        if !(h.ser p).spi.reading then h
        else
          let h := (h.endSsi p).setSpi p (fun s => { s with reading := false })
          let h :=
            if h.serHeld p then h.inc p SPI.FRAME_ABORT_COUNT
            else if h.ssiPasses p (h.cfg p SPI.SSI_WIDTH) raw first last then
              (h.pushRx p (h.ssiValue p (h.cfg p SPI.SSI_WIDTH) raw)).irq p 4
            else ((h.ssiError p).pushRx p 0x80000000).irq p 4
          h.finishSer p

/-! ### I²C (R385 to R388) -/

/-- Bytes that a master has read pushed, one receive entry each. -/
def Hub.pushBytes (h : Hub) (p : Nat) (l : List Byte) : Hub := l.foldl (fun g b => g.pushRx p b.toNat) h

/-- A master executes the entry at the front of its FIFO: `ack` is the acknowledge it saw, or whether BUS_CLEAR freed SDA, `arb` whether it
lost arbitration, `bytes` what a READ brought; a START was launched `ago` edges of the clock ago (R387). -/
def Hub.i2cEntry (h : Hub) (p e : Nat) (ack arb : Bool) (bytes : List Byte) (ago : Nat) : Hub :=
  let i := (h.ser p).i2c
  let lost (h : Hub) : Hub := (h.stampSer p 4 (h.inputStamp 0) h.onFallBack).i2cStatus p 0x03 0
  let sent (h : Hub) : Hub := (h.dropTx p).sendOut p 1 (.bus e)
  match slice e 28 3 with
  | 1 =>
    if i.held = none ∧ h.on p I2C.STAT_BUS_BUSY then h
    else
      let h := ((sent h).stampSer p 2 ((h.now8Ago ago + 32) % 2 ^ 64) h.onFallBack).put p I2C.STAT_BUS_BUSY 1
      let h := h.setI2c p (fun i => { i with held := some (bitOf e 11), index := 0 })
      if arb then lost h else if ack then h else h.i2cStatus p 0x01 0
  | 2 =>
    if i.held ≠ some false then h.i2cStatus p 0x07 0
    else
      let h := (sent h).setI2c p (fun i => { i with index := i.index + 1 })
      if arb then lost h else if ack then h else h.i2cStatus p 0x02 i.index
  | 3 =>
    let n := slice e 0 9
    if i.held ≠ some true ∨ n = 0 ∨ 256 < n then h.i2cStatus p 0x07 0
    else
      let got := bytes.take (min (n - i.read) (64 - (h.ser p).rx.length))
      let h := h.pushBytes p got
      if arb then lost (sent h)
      else if i.read + got.length = n then (sent h).setI2c p (fun i => { i with read := 0 })
      else h.setI2c p (fun i => { i with read := i.read + got.length })
  | 4 =>
    if i.held = none then h.i2cStatus p 0x07 0
    else ((sent h).put p I2C.STAT_BUS_BUSY 0).setI2c p (fun i => { i with held := none, index := 0 })
  | 5 =>
    let h := sent h
    if ack then (h.put p I2C.STAT_BUS_BUSY 0).setI2c p (fun i => { i with held := none, index := 0 }) else h.i2cStatus p 0x06 0
  | _ => h.i2cStatus p 0x07 0

/-- I2C_TRANSMIT_ENTRY: a transaction whose outputs are held ends with status 0x05; nothing starts there, nor while the receive FIFO is full or an
entry waits for room in it. The byte in progress of a disabled master ends its work (R56, R364). -/
def execI2cTransmitEntry (unit : Nat) (ack arb : Bool) (bytes : List Byte) (ago : Nat) (s : State) :
    Host.Outcome State Fault Refusal :=
  run s fun h =>
    let p := pI2c unit
    let x := h.ser p
    if !(h.works p true || h.fenced p) || h.serCfg p x.finishing I2C.CFG_ROLE != 0 then h
    else if h.serHeld p then (if x.i2c.held.isSome then h.i2cStatus p 0x05 0 else h)
    else if 64 ≤ x.rx.length ∨ x.i2c.due ≠ [] then h
    else
      match x.tx with
      | [] => h
      | e :: _ => (h.i2cEntry p e ack arb bytes ago).finishSer p

/-- STRETCH_TO: another device has held SCL low for longer than STRETCH_TO. -/
def execStretchTo (unit : Nat) (s : State) : Host.Outcome State Fault Refusal :=
  run s fun h =>
    let p := pI2c unit
    if (h.ser p).i2c.held.isSome ∧ h.cfg p I2C.TIMEOUT_STRETCH_TO ≠ 0 then h.i2cStatus p 0x04 0 else h

/-- Whether a slave hears its bus. -/
def Hub.slaveRuns (h : Hub) (p : Nat) : Bool := h.runs p && h.cfg p I2C.CFG_ROLE == 1 && h.hears p 0 && h.hears p 1

/-- OWN_ADDRESS_MATCHED: a slave is addressed, its input edge shown `ago` edges of the clock ago; a full receive FIFO stretches the clock and nothing happens yet. -/
def execOwnAddressMatched (unit : Nat) (read : Bool) (ago : Nat) (s : State) : Host.Outcome State Fault Refusal :=
  run s fun h =>
    let p := pI2c unit
    if !h.slaveRuns p || decide (64 ≤ (h.ser p).rx.length) || (h.ser p).i2c.due != [] then h
    else
      let h := ((h.put p I2C.STAT_BUS_BUSY 1).put p I2C.STAT_ADDRESSED 1).stampSer p 1 (h.inputStamp ago) h.onFallBack
      (h.setI2c p (fun i => { i with slave := some read })).pushRx p (0x20000000 + flag read)

/-- I2C_SLAVE_BYTE: a byte written to the slave is pushed; for a read a WRITE entry is sent, and the master's NACK ends the read. A full
receive FIFO and an empty transmit FIFO stretch the clock. While the outputs are held, transmit data is held and nothing is sent (R80, R367). -/
def execI2cSlaveByte (unit : Nat) (data : Byte) (nack : Bool) (s : State) : Host.Outcome State Fault Refusal :=
  run s fun h =>
    let p := pI2c unit
    if !h.slaveRuns p then h
    else
      match (h.ser p).i2c.slave with
      | none => h
      | some false => if 64 ≤ (h.ser p).rx.length ∨ (h.ser p).i2c.due ≠ [] then h else h.pushRx p data.toNat
      | some true =>
        if h.serHeld p then h
        else
        match (h.ser p).tx with
        | [] => h
        | e :: _ =>
          if slice e 28 3 ≠ 2 then h.i2cStatus p 0x07 0
          else
            let h := (h.dropTx p).sendOut p 1 (.bus (e % 256))
            if nack then h.setI2c p (fun i => { i with slave := none }) else h

/-- SLV_STRETCH_MAX: a slave with nothing to send has stretched the clock for SLV_STRETCH_MAX and sends 0xFF; the master's NACK ends the read. -/
def execSlvStretchMax (unit : Nat) (nack : Bool) (s : State) : Host.Outcome State Fault Refusal :=
  run s fun h =>
    let p := pI2c unit
    if h.slaveRuns p ∧ (h.ser p).i2c.slave = some true ∧ (h.ser p).tx = [] ∧ !h.serHeld p then
      (let h := h.sendOut p 1 (.bus 0xFF)
       if nack then h.setI2c p (fun i => { i with slave := none }) else h)
    else h

/-- I2C_BUS_STOP: a STOP condition on the bus; an addressed slave pushes its STOP entry, once there is room. -/
def execI2cBusStop (unit : Nat) (s : State) : Host.Outcome State Fault Refusal :=
  run s fun h =>
    let p := pI2c unit
    let addressed := h.on p I2C.STAT_ADDRESSED
    let h := ((h.put p I2C.STAT_BUS_BUSY 0).put p I2C.STAT_ADDRESSED 0).setI2c p (fun i => { i with slave := none })
    if addressed then h.pushOwed p 0x30000000 else h

end Sys2Proof.Machine
end

