-- ==== Sys2Proof/Machine/Zones.lean ====
section
/-!
DEFINITION. The commands and events of the field power zones (R490 to R512).
Where the manual is open: DEDUCED, log entry 29.
-/
namespace Sys2Proof.Machine

open Reg

/-! ### Commands (R494, R501) -/

/-- A write of CMD (R501). -/
def Hub.writeZoneCmd (h : Hub) (z v : Nat) : Hub :=
  let p := pZone z
  let was := h.on p ZONE.CMD_ON
  let h := h.put p ZONE.CMD_ON (v % 2)
  if v % 2 = 0 then (if h.zoneIs z = 6 then h else h.zoneTo z 0)
  else (if !was && (h.zone z).outSeen then h.raise p 4 else h).alignZone z

/-- ON. -/
def execOn (req : Req) (unit value : Nat) (s : State) : Host.Outcome State Fault Refusal :=
  run s fun h => h.writeDo req (pZone unit) 0x040 fun g => g.writeZoneCmd unit value

/-- A write of CTL: EN_CLR and UNLATCH (R494, R501). -/
def Hub.writeZoneCtl (h : Hub) (z v : Nat) : Hub :=
  let h := if bitOf v 2 then h.setZone z (fun s => { s with energy := 0, energyFrac := 0 }) else h
  if bitOf v 1 ∧ h.zoneIs z = 5 then h.zoneRecover z else h

/-- UNLATCH. -/
def execUnlatch (req : Req) (unit : Nat) (s : State) : Host.Outcome State Fault Refusal :=
  run s fun h => h.writeDo req (pZone unit) 0x044 fun g => g.writeZoneCtl unit 2

/-- EN_CLR. -/
def execEnClr (req : Req) (unit : Nat) (s : State) : Host.Outcome State Fault Refusal :=
  run s fun h => h.writeDo req (pZone unit) 0x044 fun g => g.writeZoneCtl unit 4

/-! ### Trips (R497, R500, R502, R503) -/

/-- A zone backs off for a time in ns. -/
def Hub.zoneBackoff (h : Hub) (z ns : Nat) : Hub :=
  (h.setZone z (fun s => { s with backAt := h.ns, backNs := ns })).zoneTo z 4

/-- A zone latches off (R502). -/
def Hub.zoneLatch (h : Hub) (z : Nat) : Hub :=
  ((h.inc (pZone z) ZONE.LATCHES_COUNT).zoneTo z 5).raise (pZone z) 2

/-- A retry is due after a back-off in ns; RETRY_CNT shows which (R502). -/
def Hub.zoneRetry (h : Hub) (z ns : Nat) : Hub :=
  let p := pZone z
  ((h.inc p ZONE.RETRIES_COUNT).put p ZONE.STAT_RETRY_CNT (min 15 (h.get p ZONE.STAT_RETRY_CNT + 1))).zoneBackoff z ns

/-- Whether a FAST trip is taken for a hot insertion (R500). -/
def Hub.zoneHotplug (h : Hub) (z cause : Nat) : Bool :=
  cause == 1 && h.zoneIs z == 3 && decide ((h.zone z).onAt + 10 ^ 9 ≤ h.ns) && h.cfgOn (pZone z) ZONE.CFG_HOTPLUG

/-- Where a zone goes after a trip (R500, R502, R504). -/
def Hub.zoneAfterTrip (h : Hub) (z cause : Nat) : Hub :=
  let p := pZone z
  let k := h.get p ZONE.STAT_RETRY_CNT
  let back := 10 ^ 6 * h.cfg p ZONE.RETRY_BACKOFF
  if h.modeEff = .safeStop then h.zoneLatch z
  else if h.zoneHotplug z cause then (h.inc p ZONE.HOTPLUGS_COUNT).zoneBackoff z (10 ^ 6)
  else if h.on p ZONE.STAT_PROBE then h.zoneRetry z (max back (49 * (h.ns - (h.zone z).rampAt)))
  else if h.cfg p ZONE.RETRY_COUNT ≤ k then h.zoneLatch z
  else h.zoneRetry z (back * 2 ^ k)

/-- A trip recorded and counted: 1 FAST, 2 SLOW, 3 RAMP_TIME, 4 RAMP_ENERGY, 5 GATE (R497, R509, R511). -/
def Hub.zoneRecord (h : Hub) (z cause : Nat) (i : Int) : Hub :=
  let p := pZone z
  let h := ((h.put p ZONE.TRIP_INFO_CAUSE cause).put p ZONE.TRIP_I_MA (ofSigned 32 i)).irq p 1
  let h := h.inc p (if cause = 1 then ZONE.FAST_TRIPS_COUNT else if cause = 2 then ZONE.SLOW_TRIPS_COUNT else ZONE.RAMP_FAILS_COUNT)
  if cause = 1 then (h.setZone z (fun s => { s with sinceFast := true })).raise p 0
  else if cause = 5 then h
  else (h.setZone z (fun s => { s with sinceSlow := true })).raise p 1

/-- A trip and what falls on its edge (R503). -/
def Hub.zoneTrip (h : Hub) (z cause : Nat) (i : Int) (edge : ZoneEdge) : Hub :=
  if (h.zone z).probing && edge == .alone then (h.zoneRecord z cause i).endProbe z true
  else match edge with
  | .alone => (h.zoneRecord z cause i).zoneAfterTrip z cause
  | .offWritten => ((h.zoneRecord z cause i).put (pZone z) ZONE.CMD_ON 0).zoneTo z 0
  | .vinOut => if cause = 1 then (h.zoneRecord z cause i).zoneTo z 7 else h
  | .damage => h

/-! ### Samples (R493, R494, R498, R499) -/

/-- The highest current since the last read of IPEAK (R511). -/
def Hub.zonePeak (h : Hub) (z : Nat) (i : Int) : Hub :=
  let p := pZone z
  let h := if !(h.zone z).peakSeen || decide (toSigned 32 (h.get p ZONE.IPEAK_MA) < i) then h.put p ZONE.IPEAK_MA (ofSigned 32 i) else h
  h.setZone z (fun s => { s with peakSeen := true })

/-- A current sample measured: current, energy, peak, REVERSE, and the counts of the trips (R493, R494, R497). -/
def Hub.zoneMeasure (h : Hub) (z : Nat) (vsh : Int) : Hub :=
  let p := pZone z
  let r := h.zoneCurrent z (max (-500000) (min 500000 vsh))
  let i := r.1
  let h := r.2
  let back := decide (i * (h.cfg p ZONE.SHUNT_RSHUNT : Int) < -500000)
  let above := h.zoneConducts z && decide ((h.ilimEff z : Int) < i)
  let h := h.setZone z (fun s =>
    let s := ({ s with iMa := i, sinceReverse := s.sinceReverse || back }).addEnergy
    { s with overRun := if above then s.overRun + 1 else 0, rampEnergy := s.rampEnergy + ((s.vinMv : Int) - s.voutMv) * i })
  (h.put p ZONE.STAT_REVERSE (flag back)).zonePeak z i

/-- The trip that a current sample decides: SLOW once the samples above the limit span TRIP_T, RAMP_ENERGY in a ramp (R497). -/
def Hub.zoneSampleTrip (h : Hub) (z : Nat) : Option Nat :=
  let p := pZone z
  let s := h.zone z
  if !h.zoneConducts z then none
  else if 10 * h.cfg p ZONE.ILIM_TRIP_T + 1 ≤ s.overRun then some 2
  else if h.zoneIs z = 2 ∧ (10 ^ 8 * h.cfg p ZONE.RAMP_E_MJ : Int) < s.rampEnergy then some 4
  else none

/-- Whether the converter of a zone samples in a slot now: 0 and 2 the shunt, 1 the output, 3 the drain, 5 µs each (R492). -/
def Hub.slotIs (h : Hub) (z : Nat) (slots : List Nat) : Bool :=
  h.zoneMeasures && slots.contains (h.zone z).slot && decide ((h.zone z).slotDue ≤ h.ns)

/-- The converter goes on to its next slot (R492). -/
def Hub.nextSlot (h : Hub) (z : Nat) : Hub := h.setZone z (fun s => { s with slot := (s.slot + 1) % 4, slotDue := h.ns + 5000 })

/-- SHUNT_SAMPLE: a shunt voltage in 0.1 µV (R492, R493). -/
def execShuntSample (unit : Nat) (vsh : Int) (edge : ZoneEdge) (s : State) : Host.Outcome State Fault Refusal :=
  run s fun h =>
    if !h.slotIs unit [0, 2] then h
    else
      let h := (h.nextSlot unit).zoneMeasure unit vsh
      let h := h.setZone unit (fun s => { s with shunts := (max (-500000) (min 500000 vsh) :: s.shunts).take 64 })
      match h.zoneSampleTrip unit with
      | some c => h.zoneTrip unit c (h.zone unit).iMa edge
      | none => h

/-- A voltage reading, which its field holds to 0 to 65,535 mV; outside that range it is ADC_CHK (R493, R509). -/
def Hub.zoneVoltage (h : Hub) (z : Nat) (mv : Int) : Nat × Hub :=
  ((max 0 (min 65535 mv)).toNat, if mv < 0 ∨ 65535 < mv then h.raise (pZone z) 5 else h)

/-- A drain sample judged against VLIM (R498). -/
def Hub.zoneDrain (h : Hub) (z : Nat) : Hub :=
  let p := pZone z
  let v := (h.zone z).vinMv
  let uv := decide (v < h.cfg p ZONE.VLIM_UV)
  let ov := decide (h.cfg p ZONE.VLIM_OV < v)
  let h := (h.put p ZONE.STAT_VIN_UV (flag uv)).put p ZONE.STAT_VIN_OV (flag ov)
  if (uv || ov) && !(h.zone z).outSeen then
    let h := h.zoneVinOut z
    if h.on p ZONE.CMD_ON then h.raise p 4 else h
  else if uv || ov then h.setZone z (fun s => { s with vinOk := false, inAt := none })
  else h.setZone z (fun s => { s with inAt := some (s.inAt.getD h.ns) })

/-- VGS_RISE and VGS_FULL in effect, in 0.1 V (R506). -/
def Hub.vgsRise (h : Hub) (z : Nat) : Nat := h.expert (pZone z) ZONE.GATE_USE ZONE.GATE_VGS_RISE 20
def Hub.vgsFull (h : Hub) (z : Nat) : Nat := h.expert (pZone z) ZONE.GATE_USE ZONE.GATE_VGS_FULL 90

/-- The ramp ends once VOUT has reached 95 % of VIN and the gate its full voltage; `vgs` is the gate's voltage to the source in 0.1 V (R499, R506). -/
def Hub.zoneRampEnd (h : Hub) (z vgs : Nat) : Hub :=
  let s := h.zone z
  if h.zoneIs z = 2 ∧ 95 * s.vinMv ≤ 100 * s.voutMv then
    let h := h.setZone z (fun s => { s with at95 := some (s.at95.getD h.ns) })
    if h.vgsFull z ≤ vgs then (if s.probing then (h.zoneTo z 3).endProbe z false else h.zoneTo z 3) else h
  else h

/-- VOLTAGE_SAMPLE: the drain or the output voltage in mV; `vgs` is the gate's voltage to the source in 0.1 V (R492, R498, R499). -/
def execVoltageSample (unit : Nat) (drain : Bool) (millivolts : Int) (vgs : Nat) (s : State) : Host.Outcome State Fault Refusal :=
  run s fun h =>
    if !h.slotIs unit [if drain then 3 else 1] then h
    else
      let r := (h.nextSlot unit).zoneVoltage unit millivolts
      let h := r.2.setZone unit (fun s => if drain then { s with vinMv := r.1 } else { s with voutMv := r.1 })
      (((if drain then h.zoneDrain unit else h).zoneRampEnd unit vgs).zoneWatch unit).zonePgood unit

/-- FAST_TRIP: the comparator finds the shunt voltage, in 0.1 µV, above IFAST while the zone conducts (R497). -/
def execFastTrip (unit : Nat) (vsh : Int) (edge : ZoneEdge) (s : State) : Host.Outcome State Fault Refusal :=
  run s fun h =>
    if h.zoneConducts unit ∧ (h.ifastNv unit : Int) < 100 * vsh then
      let r := h.zoneCurrent unit vsh
      let load := decide ((h.ilimEff unit : Int) ≤ 2 * r.1)
      let g := r.2.zoneTrip unit 1 r.1 edge
      if load && !g.zoneConducts unit then g.setZone unit (fun s => { s with hotPending := true }) else g
    else h

/-- RAMP_TIME: MAX_MS has passed since the start of the ramp (R497). -/
def execRampTime (unit : Nat) (edge : ZoneEdge) (s : State) : Host.Outcome State Fault Refusal :=
  run s fun h =>
    if h.zoneIs unit = 2 ∧ (h.zone unit).rampAt + 10 ^ 6 * h.cfg (pZone unit) ZONE.RAMP_MAX_MS ≤ h.ns then h.zoneTrip unit 3 (h.zone unit).iMa edge else h

/-! ### Turns and times (R498, R499, R502) -/

/-- RAMP_TURN: no zone ramps, and this is the first that waits (R499). -/
def execRampTurn (unit : Nat) (s : State) : Host.Outcome State Fault Refusal :=
  run s fun h =>
    if h.zoneIs unit = 1 ∧ [0, 1, 2, 3].all (fun z => h.zoneIs z != 2 && (decide (unit ≤ z) || h.zoneIs z != 1)) then h.zoneTo unit 2 else h

/-- BACKOFF_END: the back-off has passed (R500 to R502). -/
def execBackoffEnd (unit : Nat) (s : State) : Host.Outcome State Fault Refusal :=
  run s fun h => if h.zoneIs unit = 4 ∧ (h.zone unit).backAt + (h.zone unit).backNs ≤ h.ns then h.zoneTo unit 1 else h

/-- VIN_IN_RANGE: VIN has stayed within its limits for 100 ms (R498). -/
def execVinInRange (unit : Nat) (s : State) : Host.Outcome State Fault Refusal :=
  run s fun h =>
    match (h.zone unit).inAt with
    | some t =>
      if h.zoneMeasures ∧ t + 10 ^ 8 ≤ h.ns then
        ((h.setZone unit (fun s => { s with vinOk := true, outSeen := false })).zoneWatch unit).alignZone unit
      else h
    | none => h

/-- RETRY_CLR: the zone has stayed ON for RETRY.CLR seconds (R502, R504). -/
def execRetryClr (unit : Nat) (s : State) : Host.Outcome State Fault Refusal :=
  run s fun h =>
    let p := pZone unit
    if h.zoneIs unit = 3 ∧ (h.zone unit).onAt + 10 ^ 9 * h.cfg p ZONE.RETRY_CLR ≤ h.ns then ((h.put p ZONE.STAT_RETRY_CNT 0).put p ZONE.STAT_RECOVERY 0).zonePolicy unit else h

/-! ### Zero readings (R495) -/

/-- OFS_DRIFT: the two zeros differ by more than OFS_THR. -/
def Hub.zoneDrift (h : Hub) (z : Nat) : Hub :=
  let p := pZone z
  let d := toSigned 16 (h.get p ZONE.ZERO_HOT) - toSigned 16 (h.get p ZONE.ZERO_COLD)
  let thr : Int := h.cfg p ZONE.OFS_THR_THR
  if (h.zone z).hotTaken ∧ (thr < d ∨ d < -thr) then (h.put p ZONE.STAT_OFS_DRIFT 1).irq p 2 else h

/-- The mean of the latest 64 shunt samples in 0.1 µV, as a reading of ZERO (R495; which samples and the rounding are DEDUCED, log entry 29). -/
def ZoneState.zero (s : ZoneState) : Nat := ofSigned 16 (clampSigned 16 (s.shunts.foldl (· + ·) 0 / 64))

/-- Whether the gate has been clamped for a time in ns, and 64 shunt samples have been taken. -/
def Hub.zoneQuiet (h : Hub) (z ns : Nat) : Bool :=
  h.zoneMeasures && !h.zoneConducts z && decide ((h.zone z).clampAt + ns ≤ h.ns) && (h.zone z).shunts.length == 64

/-- ZERO_COLD: the mean of 64 shunt samples, 20 ms after the gate was clamped. -/
def execZeroCold (unit : Nat) (s : State) : Host.Outcome State Fault Refusal :=
  run s fun h =>
    if h.zoneQuiet unit (20 * 10 ^ 6) ∧ (h.zone unit).voutMv < 1000 ∧ (h.zone unit).rise < 10 ^ 13 then
      (h.put (pZone unit) ZONE.ZERO_COLD (h.zone unit).zero).zoneDrift unit
    else h

/-- ZERO_HOT: the mean of 64 shunt samples, 2 ms after a turn-off at load. -/
def execZeroHot (unit : Nat) (s : State) : Host.Outcome State Fault Refusal :=
  run s fun h =>
    if h.zoneQuiet unit (2 * 10 ^ 6) ∧ (h.zone unit).hotPending then
      ((h.put (pZone unit) ZONE.ZERO_HOT (h.zone unit).zero).setZone unit
        (fun s => { s with hotPending := false, hotTaken := true })).zoneDrift unit
    else h

/-! ### Damage to the pass transistor (R506 to R508) -/

/-- Whether the gate has missed a point of its check: VGS_RISE within GATE_T of the start of the ramp, or with `full` VGS_FULL within GATE_T of VOUT
reaching 95 % of VIN; `vgs` is the highest gate-to-source voltage until then, in 0.1 V (R506). -/
def Hub.gateMissed (h : Hub) (z vgs : Nat) (full : Bool) : Bool :=
  let s := h.zone z
  let t := 1000 * h.cfg (pZone z) ZONE.DAMAGE_GATE_T
  if full then decide (vgs < h.vgsFull z) && (match s.at95 with | some a => decide (a + t ≤ h.ns) | none => false)
  else decide (vgs < h.vgsRise z) && decide (s.rampAt + t ≤ h.ns)

/-- GATE_T: in a ramp the gate misses a point of its check (R506). -/
def execGateT (unit vgs : Nat) (full : Bool) (s : State) : Host.Outcome State Fault Refusal :=
  run s fun h =>
    let p := pZone unit
    let z := h.zone unit
    let checked := bitOf (h.cfg p ZONE.CFG_DMG_CHK) 0 || z.probing
    if h.zoneIs unit = 2 ∧ checked ∧ h.gateMissed unit vgs full then
      let h := (h.zoneRecord unit 5 z.iMa).put p ZONE.STAT_DMG_GATE 1
      if z.probing then (h.raise p 3).endProbe unit true else (h.zoneTo unit 5).raise p 3
    else h

/-- OFF_T: VOUT has stayed above half of VIN for OFF_T while the gate is clamped (R507). -/
def execOffT (unit : Nat) (s : State) : Host.Outcome State Fault Refusal :=
  run s fun h =>
    let p := pZone unit
    let z := h.zone unit
    let stayed : Bool := match z.overAt with | some t => decide (t + 10 ^ 6 * h.cfg p ZONE.DAMAGE_OFF_T ≤ h.ns) | none => false
    if h.zoneMeasures ∧ stayed ∧ (bitOf (h.cfg p ZONE.CFG_DMG_CHK) 1 ∨ z.probing) ∧ ¬ (h.zoneIs unit = 6 ∧ h.on p ZONE.STAT_DMG_OUT) then
      (h.put p ZONE.STAT_DMG_OUT 1).raise p 3
    else h

/-- CHOP_CYCLE: every 1 ms; the converter's own offset in 0.1 µV, and the shunt's temperature rise (R492, R493, R509). -/
def execChopCycle (unit : Nat) (offset : Int) (s : State) : Host.Outcome State Fault Refusal :=
  run s fun h =>
    let g := h.setZone unit (fun s => { s with chopDue := h.ns + 10 ^ 6 })
    if !h.zoneMeasures ∨ h.ns < (h.zone unit).chopDue then h
    else if 50 < offset ∨ offset < -50 then (g.zoneWarm unit).raise (pZone unit) 5
    else g.zoneWarm unit

/-! ### Reads that latch (R511) -/

/-- What a read of IMEAS gives, and the registers it latches. -/
def Hub.readImeas (h : Hub) (z : Nat) : Nat × Hub :=
  let p := pZone z
  let s := h.zone z
  let mw := clampSigned 32 (s.iMa * s.voutMv / 1000)
  (ofSigned 32 s.iMa, ((h.put p ZONE.VOUT_MV s.voutMv).put p ZONE.VIN_MV s.vinMv).put p ZONE.PWR_MW (ofSigned 32 mw))

/-- IMEAS. -/
def execImeas (req : Req) (unit : Nat) (s : State) : Host.Outcome State Fault Refusal :=
  run s fun h => h.read req (pZone unit) 0x084 fun g => g.readImeas unit

/-- What a read of ENERGY_LO gives; it latches ENERGY_HI. -/
def Hub.readEnergy (h : Hub) (z : Nat) : Nat × Hub :=
  let e := (h.zone z).energy
  (e % 2 ^ 32, h.put (pZone z) ZONE.ENERGY_HI_UJ (e / 2 ^ 32))

/-- ENERGY_LO. -/
def execEnergyLo (req : Req) (unit : Nat) (s : State) : Host.Outcome State Fault Refusal :=
  run s fun h => h.read req (pZone unit) 0x094 fun g => g.readEnergy unit

end Sys2Proof.Machine
end

