-- ==== Sys2Proof/Machine/Shown.lean ====
section
/-!
DEFINITION. What the registers show that no command stores: identities, status and levels that follow from the state of the blocks.
Where the manual is open: DEDUCED, log entry 34.
-/
namespace Sys2Proof.Machine

open Reg

/-- Bits of a number by a test. -/
def bitsOf (n : Nat) (f : Nat → Bool) : Nat := (List.range n).foldl (fun a i => a + flag (f i) * 2 ^ i) 0

/-- A word with the bits of several fields replaced. -/
def withFields (w : Nat) (l : List (Fld × Nat)) : Nat := l.foldl (fun a e => setBits a e.1 e.2) w

/-! ### The common registers (R35, R36, R627) -/

/-- PG_CAPS.BLOCK of a group. -/
def capsBlock : Kind → Nat
  | .rport => 0xF | .topo => 16 | .trk => 0x84 | .atr => 0x410 | .brg => 16 | .sw => 0x48 | .qos => 16 | .ten => 8 | .ch => 16
  | .bank => 8 | .uart => 64 | .spi => 64 | .i2c => 64 | .prs => 16 | .can => 128 | .eth => 32 | .host => 8 | .mbx => 16
  | .flt => 129 | .therm => 4 | .bist => 0xF
  | _ => 0

/-- The groups whose chapters give registers in 0x400 to 0xBFF. -/
def hasExpert (k : Kind) : Bool := (fieldTable k).any (fun f => expertOffset f.off)

/-- The groups whose chapters give a block memory window. -/
def hasWindow : Kind → Bool
  | .rport => true | .topo => true | .trk => true | .atr => true | .ch => true | .uart => true | .spi => true | .i2c => true
  | .prs => true | .can => true | .host => true | .mbx => true | .upd => true
  | _ => false

/-- PG_CAPS of a group. -/
def capsWord (k : Kind) : Nat :=
  wordOf [(PG.CAPS_EXPERT, flag (hasExpert k)), (PG.CAPS_STAGED, 1), (PG.CAPS_OWNED, 1),
    (PG.CAPS_FENCEABLE, flag (k != .sys && k != .lc)), (PG.CAPS_MEMWIN, flag (hasWindow k)), (PG.CAPS_BLOCK, capsBlock k)]

/-- PG_STAT.BLOCK of a page: the status that its chapter repeats there. -/
def Hub.statBlock (h : Hub) (k : Kind) (p : Nat) : Nat :=
  let i := instOf p
  match k with
  | .rport => h.get p RPORT.STAT_STATE
  | .time => h.get p TIME.STAT_STATE
  | .trk => h.get p TRK.STAT_STATE
  | .atr => h.atrState
  | .brg => h.openReads.length
  | .dram => h.get p DRAM.STAT_STATE
  | .ch => h.cfg p CH.CFG_MODE
  | .bank => h.get p BANK.STAT_VCLASS
  | .uart => (h.ser p).tx.length * 256 + (h.ser p).rx.length
  | .spi => (h.ser p).tx.length * 256 + (h.ser p).rx.length
  | .i2c => (h.ser p).tx.length * 256 + (h.ser p).rx.length
  | .prs => h.prsState i
  | .can => h.canState i
  | .eth => h.get p ETH.STAT_LINK
  | .host => h.hostIf
  | .mbx => bitsOf 16 h.full
  | .zone => h.get p ZONE.STAT_STATE
  | .flt => h.flt.queue.length
  | .therm => h.get p THERM.STAT_LEVEL
  | .stw => h.annexState
  | .lc => h.lifecycle
  | .upd => h.get p UPD.STAT_LAND_STATE
  | .bist => h.get p BIST.STAT_STATE
  | _ => 0

/-- Whether an entry of a register file overrides a derived value: USE of an expert register, 1 (R44). -/
def overrides (e : Key × Nat) : Bool := expertOffset e.1.off && e.1.lo == 31 && e.2 != 0

/-- Whether a page has committed expert overrides (PG_STAT.XOVR). -/
def Hub.overridden (h : Hub) (p : Nat) : Bool := h.committed.any (fun e => e.1.page == p && overrides e)

/-- Whether a staged value of a page differs from its committed value (PG_SEAL.DIRTY). -/
def Hub.dirty (h : Hub) (p : Nat) : Bool := h.staged.filter (fun e => e.1.page == p) != h.committed.filter (fun e => e.1.page == p)

/-- A common register; `w` is what its stored fields show. -/
def Hub.shownCommon (h : Hub) (k : Kind) (p off w : Nat) : Nat :=
  match off with
  | 0x000 => withFields w [(PG.ID_TYPE, k.base), (PG.ID_INST, instOf p)]
  | 0x004 => capsWord k
  | 0x00C => withFields w [(PG.STAT_XOVR, flag (h.overridden p)), (PG.STAT_ACTIVE, flag (h.runs p)), (PG.STAT_OWNER_EFF, h.owner p),
      (PG.STAT_BLOCK, h.statBlock k p)]
  | 0x018 => h.irqPend p
  | 0x024 => withFields w [(PG.SEAL_DIRTY, flag (h.dirty p))]
  | _ => w

/-! ### System, faults, temperature, lifecycle -/

/-- Whether a request to gate a group is pending (R110). -/
def Hub.gatePending (h : Hub) (g : Nat) : Bool := h.gateWanted g != 0 && h.gateWanted g != h.gateState g

/-- SYS. -/
def Hub.shownSys (h : Hub) (off w : Nat) : Nat :=
  match off with
  | 0x048 => withFields w [(SYS.SEAL_STATE_STAGED_DIFF, flag (usedPages.any h.dirty)), (SYS.SEAL_STATE_EXPERT, flag (h.committed.any overrides))]
  | 0x090 =>
    let u := h.armUnmet
    withFields w [(SYS.ARM_WAIT_TIME, u), (SYS.ARM_WAIT_TRACK, u / 2), (SYS.ARM_WAIT_EPOCH, u / 4), (SYS.ARM_WAIT_TRK_WAIT, h.tracksUnlocked)]
  | 0x0C8 => withFields w [(SYS.CLK_STAT_SD_LOCK, flag (h.on (pRport 0) RPORT.STAT_PLL_LOCK && h.on (pRport 1) RPORT.STAT_PLL_LOCK))]
  | 0x0E8 =>
    withFields w [(SYS.GATE_PEND_BY_UNIT, bitsOf 12 (fun g => h.gatePending g && !h.gateUnitsIdle g)),
      (SYS.GATE_PEND_BY_HOLD, bitsOf 12 (fun g => h.gatePending g && h.gateHeld g))]
  | _ => w

/-- The seconds left of REPEAT_CLR of a unit; 0 while it is fenced or its count is 0 (UNIT_STAT). -/
def Hub.clearSeconds (h : Hub) (u : Nat) : Nat :=
  if h.fenced u ∨ h.fenceCount u = 0 then 0
  else h.cfg pFlt FLT.CFG_REPEAT_CLR - (h.clock - Map.getD h.flt.released u 0) / 500000000

/-- FLT. -/
def Hub.shownFlt (h : Hub) (off w : Nat) : Nat :=
  if off = 0x044 then
    withFields w [(FLT.STAT_UNITS, (usedPages.filter (fun p => unitOf p == p && h.fenced p)).length), (FLT.STAT_QUEUE, h.flt.queue.length)]
  else if off = 0x064 then
    let u := unitOf (h.get pFlt FLT.UNIT_SEL_PAGE)
    withFields w [(FLT.UNIT_STAT_FENCED, flag (h.fenced u)), (FLT.UNIT_STAT_QUEUED, flag (h.fenceQueued u)),
      (FLT.UNIT_STAT_COUNT, h.fenceCount u), (FLT.UNIT_STAT_CLR_S, h.clearSeconds u)]
  else if 0x080 ≤ off ∧ off < 0x0B0 then bitsOf 32 (fun b => h.get ((off - 0x080) * 8 + b) PG.FLT_SRC != 0)
  else if 0x0C0 ≤ off ∧ off < 0x0F0 then bitsOf 32 (fun b => h.fenced ((off - 0x0C0) * 8 + b))
  else w

/-- LC; OTP_DATA shows words 24 to 255 to the secure world only (R552 to R555). -/
def Hub.shownLc (h : Hub) (req : Req) (off w : Nat) : Nat :=
  match off with
  | 0x040 =>
    wordOf [(LC.STATE_STATE, h.lifecycle), (LC.STATE_DEPLOY, h.deployment), (LC.STATE_TORN, flag h.tornBit.isSome),
      (LC.STATE_DEBUG_OPEN, flag (h.lifecycle == 0 || h.lifecycle == 1))]
  | 0x05C => h.fuse 7
  | 0x060 => wordOf [(LC.KEYSLOT_REVOKED, h.fuse 64 / 16), (LC.KEYSLOT_PROG, h.fuse 64)]
  | 0x064 => h.rollback
  | 0x06C =>
    let i := h.get pLc LC.OTP_SEL_WORD
    if (65 ≤ i ∧ i ≤ 72) ∨ (24 ≤ i ∧ req ≠ .secure) then 0 else h.fuse i
  | _ => if 0x04C ≤ off ∧ off < 0x05C then h.fuse ((off - 0x04C) / 4) else w

/-! ### The ring -/

/-- RPORT. With SFP_MGMT = 0 the levels of the module's inputs are ignored and read 0 (R138, R141). -/
def Hub.shownRport (h : Hub) (i off w : Nat) : Nat :=
  let p := h.port i
  match off with
  | 0x044 =>
    if h.cfgOn (pRport i) RPORT.CFG_SFP_MGMT then w
    else withFields w [(RPORT.STAT_SFP_PRESENT, 0), (RPORT.STAT_SFP_LOS, 0), (RPORT.STAT_SFP_TXFAULT, 0)]
  | 0x060 => p.rxFrames % 2 ^ 32
  | 0x068 => p.txFrames % 2 ^ 32
  | 0x070 => p.rxBytes % 2 ^ 32
  | 0x078 => p.txBytes % 2 ^ 32
  | _ => w

/-- What MEMB_DATA and MEMB_UID show of a member (R151, R158). -/
def Hub.memberWord (h : Hub) (off : Nat) (m : Member) : Nat :=
  if off = 0x064 then
    wordOf [(TOPO.MEMB_DATA_PRESENT, 1), (TOPO.MEMB_DATA_FIXED, flag m.fixed), (TOPO.MEMB_DATA_REACH_E, flag (h.reaches m 0)),
      (TOPO.MEMB_DATA_REACH_W, flag (h.reaches m 1)), (TOPO.MEMB_DATA_HOPS_E, m.hopsE.getD 0), (TOPO.MEMB_DATA_HOPS_W, m.hopsW.getD 0),
      (TOPO.MEMB_DATA_MODE, m.mode)]
  else slice m.uid (8 * (off - 0x068)) 32

/-- TOPO. -/
def Hub.shownTopo (h : Hub) (off w : Nat) : Nat :=
  match off with
  | 0x04C => wordOf [(TOPO.LIMITS_LIMIT_E, h.limit 0), (TOPO.LIMITS_LIMIT_W, h.limit 1)]
  | 0x050 => wordOf [(TOPO.ARC_MEMBERS, h.topo.members.length), (TOPO.ARC_SIZE, h.arcSize)]
  | 0x05C => wordOf [(TOPO.RECS_REC_E, (h.records 0).length), (TOPO.RECS_REC_W, (h.records 1).length)]
  | _ =>
    if 0x064 ≤ off ∧ off ≤ 0x074 then
      match h.member (h.get pTopo TOPO.MEMB_SEL_ID) with
      | some m => h.memberWord off m
      | none => 0
    else w

/-- TIME. -/
def Hub.shownTime (h : Hub) (off w : Nat) : Nat :=
  match off with
  | 0x060 =>
    (match h.time.leftAt with
     | some c => min ((h.clock - c) / 500) (2 ^ 32 - 1)
     | none => 0)
  | 0x068 => h.fbTicks % 2 ^ 32
  | 0x0C0 => withFields w [(TIME.PTP_CFG_P2P, flag (h.on pTime TIME.PTP_CFG_P2P || h.on pTime TIME.PTP_CFG_PROFILE))]
  | _ => w

/-- TRK. -/
def Hub.shownTrk (h : Hub) (k off w : Nat) : Nat :=
  match off with
  | 0x060 => withFields w [(TRK.STAT_FOLLOWED, flag (h.followed k)), (TRK.STAT_CTX, h.contexts.findIdx (fun i => i == k) % 4 * flag (h.followed k))]
  | 0x064 =>
    (match h.trackAge k with
     | some a => min (a.toNat / 500) (2 ^ 32 - 1)
     | none => 2 ^ 32 - 1)
  | 0x0D0 => (h.bindsOf k).length
  | _ => w

/-- ATR. -/
def Hub.shownAtr (h : Hub) (off w : Nat) : Nat :=
  match off with
  | 0x050 => withFields w [(ATR.STAT_STATE, h.atrState), (ATR.STAT_FB, flag (h.atrOn && !h.mainInUse)),
      (ATR.STAT_OPEN_RX, (h.atr.back.filter (fun e => e.2.2)).length)]
  | 0x054 => h.atr.desc.number % 2 ^ 32
  | _ => w

/-- BRG; the table entry that RT_IDX selects appears at RT_ENT (R276). -/
def Hub.shownBrg (h : Hub) (off w : Nat) : Nat :=
  if off = 0x048 then wordOf [(BRG.STAT_TAGS_FULL, flag (h.freeReadSlot == none)), (BRG.STAT_OPEN, h.openReads.length)]
  else if 0x054 ≤ off ∧ off ≤ 0x060 then h.get pBrg (routeFld (h.get pBrg BRG.RT_IDX_IDX) ((off - 0x054) / 4))
  else w

/-- SW; a pin entry's idle time in ms saturates. -/
def Hub.shownSw (h : Hub) (off w : Nat) : Nat :=
  match off with
  | 0x054 => withFields w [(SW.LENS_STAT_PINNED, h.sw.pins.length)]
  | 0x060 =>
    (match Map.find h.sw.pins (h.get pSw SW.PIN_IDX_IDX) with
     | some x => wordOf [(SW.PIN_ENT_VALID, 1), (SW.PIN_ENT_WEST, flag x.west), (SW.PIN_ENT_IDLE, min 0xFFFF ((h.clock - x.used) / 500000))]
     | none => 0)
  | 0x0E0 => withFields w [(SW.CELLS_FREE, h.freeCells)]
  | 0x0E4 => wordOf [(SW.USE_XT, h.xtCells), (SW.USE_BULK, h.bulkCells)]
  | _ => w

/-- QOS; the entries that CLS_IDX and MTR_IDX select (R292, R293). -/
def Hub.shownQos (h : Hub) (off w : Nat) : Nat :=
  let e := h.get pQos QOS.CLS_IDX_IDX
  let m := h.get pQos QOS.MTR_IDX_IDX
  match off with
  | 0x044 => if e < 288 then wordOf [(QOS.CLS_ENT_MEN, h.get pQos (clsMen e)), (QOS.CLS_ENT_METER, h.get pQos (clsMeter e)),
      (QOS.CLS_ENT_QUEUE, h.get pQos (clsQueue e))] else 0
  | 0x04C => h.get pQos (mtrCir m)
  | 0x050 => h.get pQos (mtrPir m)
  | 0x054 => wordOf [(QOS.MTR_BS_PBS, h.get pQos (mtrPbs m)), (QOS.MTR_BS_CBS, h.get pQos (mtrCbs m))]
  | 0x058 => Map.getD h.sw.meterCounts (4 * m) 0
  | 0x05C => Map.getD h.sw.meterCounts (4 * m + 1) 0
  | 0x060 => Map.getD h.sw.meterCounts (4 * m + 2) 0
  | 0x150 => Map.getD h.sw.redDrops h.selectedQueue 0
  | 0x154 => Map.getD h.sw.tailDrops h.selectedQueue 0
  | 0x158 => Map.getD h.sw.sent h.selectedQueue 0
  | _ => w

/-! ### Channels (R356 to R358) -/

/-- What a channel's driver is asked for: disabled, a level, or a serial controller's waveform, which the model does not keep bit by bit. -/
inductive Drive where
  | off
  | level (b : Bool)
  | wave
deriving DecidableEq, Repr

/-- The pull of a pin: none, up or down, 50 kΩ (R342). -/
inductive Pull where
  | none
  | up
  | down
deriving DecidableEq, Repr

/-- What a channel's pin shows outside: high-impedance with its pull off, released to its pull, low, high, or a waveform (R98, R341, R342). -/
inductive PinLevel where
  | highZ
  | released (pull : Pull)
  | low
  | high
  | wave
deriving DecidableEq, Repr

/-- The pull in effect of a channel, in every mode (R342). -/
def Hub.pull (h : Hub) (c : Nat) : Pull :=
  match h.cfg (pCh c) CH.CFG_PULL with
  | 1 => .up
  | 2 => .down
  | _ => .none

/-- The safe value of a channel's SAFE field (R63, R342). -/
def Hub.safeDrive (h : Hub) (c : Nat) : Drive :=
  match h.cfg (pCh c) CH.CFG_SAFE with
  | 1 => .level false
  | 2 => .level true
  | _ => .off

/-- The idle level of a signal that a serial controller drives, which is its safe value (R63); the manual gives MOSI none, and a slave's MISO is
no output while it is not selected (DEDUCED, log entry 27). -/
def Hub.serIdle (h : Hub) (p s : Nat) : Drive :=
  match kindOf p with
  | some .uart => if s = 2 then .level (h.cfgOn p UART.DE_CFG_DE_POL) else if s = 3 then .level false else .level true
  | some .spi =>
    if s = 0 then .level (h.cfg p SPI.CLK_ROLE == 2 || h.cfgOn p SPI.CLK_CPOL)
    else if s = 1 then .wave else if s = 2 then .off else .level true
  | _ => .level true

/-- Whether a serial controller works a signal at present, so that its level is a waveform. -/
def Hub.serWorks (h : Hub) (p s : Nat) : Bool :=
  match kindOf p with
  | some .uart => s == 0 && h.on p UART.STAT_TX_BUSY
  | some .spi => decide (s < 3) && (h.on p SPI.STAT_FRAME_OPEN || (h.ser p).spi.reading || (List.range 16).any (fun k => (h.track k).ssiReading &&
      pSpi (h.cfg (pTrk k) TRK.SRC_CFG_SPI) == p))
  | _ => (h.ser p).i2c.held.isSome || (h.ser p).i2c.slave.isSome

/-- Whether a master asserts a chip select: in a frame, or after one with KEEP (R380). -/
def Hub.csAsserted (h : Hub) (p cs : Nat) : Bool :=
  (h.on p SPI.STAT_FRAME_OPEN && h.get p SPI.STAT_CS_ACT == cs) || (h.ser p).spi.kept == some cs

/-- What a serial controller asks of a channel that carries its signal; an input signal's driver is disabled. After a safe value the idle level stays until
the signal's next event (R22, R63, R64, R351, R353, R372, R373). -/
def Hub.serDrive (h : Hub) (c p s : Nat) : Drive :=
  if !(h.outSignals p).contains s then .off
  else if h.safeNow c || h.fenced p || !(h.runs p || (h.ser p).finishing) then h.serIdle p s
  else if kindOf p = some .spi ∧ 3 ≤ s then .level (!h.csAsserted p (s - 3))
  else if h.serWorks p s then .wave
  else if kindOf p = some .uart ∧ s = 2 then .level (h.deAsserted p != h.cfgOn p UART.DE_CFG_DE_POL)
  else if kindOf p = some .uart ∧ s = 3 then .level (h.ser p).uart.rts
  else h.serIdle p s

/-- What a channel's driver is asked for (R62, R63, R333, R341, R344, R351). -/
def Hub.drive (h : Hub) (c : Nat) : Drive :=
  match h.chMode c with
  | 1 => if h.safeNow c then h.safeDrive c else .level (h.ch c).level
  | 2 => if h.safeNow c then h.safeDrive c else .level (h.pwmLevel c)
  | 4 =>
    match h.claim c with
    | none => .off
    | some (page, s) =>
      if kindOf page = some .prs then
        (if bitOf (h.eng (instOf page)).safe s then h.safeDrive c
         else if !bitOf (h.eng (instOf page)).dirs s then .off else if h.safeNow c then h.safeDrive c else .level (h.ch c).level)
      else h.serDrive c page s
  | _ => .off

/-- A channel's pin: high-impedance while its bank or the core is without supply, its bank has no class, or the hub is in Shelf; an open-drain
output only pulls low (R98, R328, R341, R353). -/
def Hub.pinOut (h : Hub) (c : Nat) : PinLevel :=
  let od := h.cfgOn (pCh c) CH.CFG_OD || (match h.claim c with
    | some (page, _) => kindOf page == some .i2c
    | none => false)
  if !h.pinPowered c then .highZ
  else
    match h.drive c with
    | .off => .released (h.pull c)
    | .level false => .low
    | .level true => if od then .released (h.pull c) else .high
    | .wave => .wave

/-- The level that a channel drives or is commanded to; none of a waveform (STAT.DRV). -/
def Hub.driven (h : Hub) (c : Nat) : Option Bool :=
  match h.drive c with
  | .off => some false
  | .level b => some b
  | .wave => none

/-- Whether a channel has an output: OUTPUT or PWM, or UNIT with a claim of a Prism engine or of a signal that a controller drives (R333). -/
def Hub.hasOutput (h : Hub) (c : Nat) : Bool :=
  match h.chMode c with
  | 1 => true
  | 2 => true
  | 4 => (match h.claim c with
    | some (page, s) => kindOf page == some .prs || (h.outSignals page).contains s
    | none => false)
  | _ => false

/-- CH.STAT, with the level driven. SAFE_WAIT is the safe value that an output still holds once no condition asks for it (R22, R356). -/
def Hub.channelStat (h : Hub) (c : Nat) (drv : Bool) : Nat :=
  let s := h.ch c
  wordOf [(CH.STAT_IN, flag s.filt), (CH.STAT_RAW, flag s.raw), (CH.STAT_DRV, flag drv), (CH.STAT_SAFE_MODE, flag (!h.driving)),
    (CH.STAT_SAFE_FENCE, flag (h.fenced (pCh c))), (CH.STAT_SAFE_SHED, flag (h.bankShed (c / 8))), (CH.STAT_SAFE_POLICY, flag (s.policies != [])),
    (CH.STAT_SAFE_WAIT, flag (h.hasOutput c && s.waiting && !h.safeCond c)), (CH.STAT_HELD, flag (h.claim c).isSome), (CH.STAT_ARMED, flag s.armed),
    (CH.STAT_PEND_END, flag s.ending.isSome), (CH.STAT_Q_LEN, s.queue.length)]

/-- A read of CH.STAT; the level of a serial line is free. -/
def Hub.readChannelStat (h : Hub) (c : Nat) : Nat × Hub :=
  match h.driven c with
  | some d => (h.channelStat c d, h)
  | none => (h.channelStat c (bitOf h.fresh.1 0), h.fresh.2)

/-- The words of a capture FIFO entry (R357). -/
def capBytes (e : CapEntry) : List Byte :=
  let q := match e.pos with
    | some x => (x.1.getD 0, flag x.1.isSome, x.2.1, x.2.2)
    | none => (0, 0, 0, 0)
  leBytes 8 e.stamp ++ leBytes 6 q.1 ++ leBytes 1 (flag e.level + 2 * flag e.fb + 4 * q.2.1 + 8 * (q.2.2.1 % 8)) ++ leBytes 1 q.2.2.2

/-- An entry placed in firing order: by instant, after those with the same one; an entry without an instant last (R357). -/
def placeEntry (e : QEntry) : List QEntry → List QEntry
  | [] => [e]
  | x :: l =>
    match e.instant, x.instant with
    | some a, some b => if a < b then e :: x :: l else x :: placeEntry e l
    | some _, none => e :: x :: l
    | none, _ => x :: placeEntry e l

/-- A queue in firing order. -/
def firingOrder (q : List QEntry) : List QEntry := q.foldl (fun a e => placeEntry e a) []

/-- The bytes of a queue entry's view (R357). -/
def entryBytes (e : QEntry) : List Byte :=
  let w0 := e.qe0 - slice e.qe0 16 2 * 2 ^ 16 + 2 ^ 17 + flag e.instant.isSome * 2 ^ 16
  leBytes 4 w0 ++ leBytes 4 e.qe1 ++ leBytes 4 e.qe2 ++ leBytes 4 e.tag ++ leBytes 8 (e.instant.getD 0) ++ leBytes 8 0

/-- A byte of a channel's window (R357). -/
def Hub.channelWindow (h : Hub) (c o : Nat) : Byte :=
  let s := h.ch c
  if o < 0x100 then
    match s.fifo[(o / 16 + 16 - s.head) % 16]? with
    | some e => (capBytes e).getD (o % 16) 0
    | none => 0
  else if o < 0x300 then
    match (firingOrder s.queue)[(o - 0x100) / 32]? with
    | some e => (entryBytes e).getD (o % 32) 0
    | none => 0
  else 0

/-! ### Serial controllers, Prism engines, CAN -/

/-- The registers of every serial controller (R390). -/
def Hub.shownSer (h : Hub) (p off w : Nat) : Nat :=
  let s := h.ser p
  match off with
  | 0x048 => withFields w [(SER.FIFO_STAT_TX_LVL, s.tx.length), (SER.FIFO_STAT_RX_LVL, s.rx.length)]
  | 0x054 => withFields w [(SER.TS_STAT_COUNT, s.stamps.length), (SER.TS_STAT_HEAD, s.head)]
  | _ => w

/-- UART. -/
def Hub.shownUart (h : Hub) (p off w : Nat) : Nat :=
  if off = 0x084 then
    withFields w [(UART.STAT_PAUSED, flag (h.serHeld p && h.hasWork p)), (UART.STAT_BREAK, flag (h.on p UART.STAT_BREAK && !h.signalLevel p 1)),
      (UART.STAT_DE, flag (h.deAsserted p != h.cfgOn p UART.DE_CFG_DE_POL)), (UART.STAT_CTS, flag (h.signalLevel p 4)),
      (UART.STAT_RX_BUSY, flag (h.rxBusy p))]
  else h.shownSer p off w

/-- SPI. -/
def Hub.shownSpi (h : Hub) (p off w : Nat) : Nat :=
  if off = 0x07C then
    withFields w [(SPI.STAT_PAUSED, flag (h.serHeld p && (h.ser p).tx != [])), (SPI.STAT_TRK_SSI, flag (h.trackEncoder (instOf p)))]
  else h.shownSer p off w

/-- I2C. -/
def Hub.shownI2c (h : Hub) (p off w : Nat) : Nat :=
  if off = 0x06C then
    withFields w [(I2C.STAT_SCL, flag (h.signalLevel p 0)), (I2C.STAT_SDA, flag (h.signalLevel p 1)),
      (I2C.STAT_PAUSED, flag (h.serHeld p && (h.ser p).tx != []))]
  else h.shownSer p off w

/-- A byte of the stamp FIFO's window (R390). -/
def Hub.stampWindow (h : Hub) (p o : Nat) : Byte :=
  let s := h.ser p
  if 0x100 ≤ o then 0
  else
    match s.stamps[(o / 16 + 16 - s.head) % 16]? with
    | some e => (leBytes 8 e.stamp ++ leBytes 2 e.rxPos ++ leBytes 1 e.code ++ leBytes 1 (flag e.fb)).getD (o % 16) 0
    | none => 0

/-- STAT.WAIT of what an engine waits for. -/
def waitCode : PrsWait → Nat
  | .none => 0
  | .pin _ _ _ _ => 1
  | .time _ => 2
  | .events _ _ => 3
  | .pull _ => 4
  | .push _ => 5
  | .delay => 6
  | .shift _ _ _ _ _ => 6

/-- An armed action slot of an engine. -/
def Hub.slotOf (h : Hub) (e s : Nat) : Option Slot := Map.find h.slots (e * 16 + s)

/-- PRS. -/
def Hub.shownPrs (h : Hub) (e off w : Nat) : Nat :=
  let x := h.eng e
  match off with
  | 0x05C => withFields w [(PRS.STAT_WAIT, waitCode x.wait), (PRS.STAT_SP, x.stack.length), (PRS.STAT_C, flag x.c), (PRS.STAT_N, flag x.n),
      (PRS.STAT_Z, flag x.z), (PRS.STAT_PC, x.pc)]
  | 0x080 => wordOf [(PRS.EVT_FIRED, (h.flagsOf e).1), (PRS.EVT_DROPPED, (h.flagsOf e).2)]
  | 0x084 => wordOf [(PRS.SLOTS_ARMED, bitsOf 16 (fun s => (h.slotOf e s).isSome)),
      (PRS.SLOTS_POS, bitsOf 16 (fun s => match h.slotOf e s with
        | some y => y.pos.isSome
        | none => false))]
  | 0x090 => wordOf [(PRS.QSTAT_OUT_LVL, (h.outQueue e).length), (PRS.QSTAT_IN_LVL, x.inq.length)]
  | _ => w

/-- The bytes of a slot's view (R421). -/
def slotBytes (x : Slot) : List Byte :=
  match x.pos with
  | none =>
    leBytes 4 (2 ^ 31 + flag x.evt * 2 ^ 28 + x.mask % 256 * 256 + x.val % 256) ++ leBytes 8 x.at_ ++ leBytes 8 x.at_ ++ leBytes 12 0
  | some b =>
    leBytes 4 (2 ^ 31 + 2 ^ 30 + flag b.fire.isSome * 2 ^ 29 + flag x.evt * 2 ^ 28 + b.track % 16 * 2 ^ 24 + b.prof % 4 * 2 ^ 22
      + b.policy % 4 * 2 ^ 20 + flag b.measure * 2 ^ 19 + x.mask % 256 * 256 + x.val % 256)
      ++ leBytes 8 b.target ++ leBytes 8 (b.fire.getD 0) ++ leBytes 12 0

/-- A byte of the slot view. -/
def Hub.slotWindow (h : Hub) (e o : Nat) : Byte :=
  match h.slotOf e (o / 32) with
  | some x => (slotBytes x).getD (o % 32) 0
  | none => 0

/-! ### The other blocks -/

/-- DRAM. -/
def Hub.shownDram (h : Hub) (off w : Nat) : Nat := if off = 0x048 then h.overflowCells else w

/-- TEN. -/
def Hub.shownTen (h : Hub) (t off w : Nat) : Nat :=
  if off = 0x050 then
    withFields w [(TEN.STAT_XREQ_USED, (h.expressHeld.filter (fun u => u == t)).length), (TEN.STAT_TAGS_USED, min 255 (h.tagsUsed t))]
  else w

/-- ZONE; the back-off that remains, in whole ms. -/
def Hub.shownZone (h : Hub) (z off w : Nat) : Nat :=
  let s := h.zone z
  if off = 0x080 ∧ h.zoneIs z = 4 then withFields w [(ZONE.STAT_WAIT_MS, min 0xFFFF ((s.backNs - (h.ns - s.backAt)) / 1000000))] else w

/-- MBX. -/
def Hub.shownMbx (h : Hub) (off w : Nat) : Nat :=
  if 0x100 ≤ off ∧ off < 0x140 ∧ off % 16 = 8 then h.doorbells ((off - 0x108) / 16) else w

/-- THERM. -/
def Hub.shownTherm (h : Hub) (off w : Nat) : Nat :=
  if off = 0x044 then withFields w [(THERM.STAT_SENSE_FENCED, flag (h.fenced pTherm))] else w

/-- What a register below the expert level shows to a requester. -/
def Hub.shown (h : Hub) (req : Req) (k : Kind) (p off : Nat) : Nat :=
  let w := h.regWord p off
  let i := instOf p
  if off < 0x040 then h.shownCommon k p off w
  else
    match k with
    | .sys => h.shownSys off w
    | .flt => h.shownFlt off w
    | .lc => h.shownLc req off w
    | .rport => h.shownRport i off w
    | .topo => h.shownTopo off w
    | .time => h.shownTime off w
    | .trk => h.shownTrk i off w
    | .atr => h.shownAtr off w
    | .brg => h.shownBrg off w
    | .sw => h.shownSw off w
    | .qos => h.shownQos off w
    | .uart => h.shownUart p off w
    | .spi => h.shownSpi p off w
    | .i2c => h.shownI2c p off w
    | .prs => h.shownPrs i off w
    | .dram => h.shownDram off w
    | .ten => h.shownTen i off w
    | .zone => h.shownZone i off w
    | .mbx => h.shownMbx off w
    | .therm => h.shownTherm off w
    | .bist => if off = 0x044 then setBits w BIST.STAT_ELAPSED h.bistElapsed else w
    | _ => w

end Sys2Proof.Machine
end

