-- ==== Sys2Proof/Machine/RegRead.lean ====
section
/-!
DEFINITION. Register reads: the checks, what each register shows, what a read clears, pops or latches, and the memory windows of the pages
(R32 to R38, R41, R44, R45).
Where the manual is open: DEDUCED, log entries 33 and 34.
-/
namespace Sys2Proof.Machine

open Reg

/-! ### Registers -/

/-- The RC fields of a register cleared by a read of it (R6). -/
def Hub.clearOnRead (h : Hub) (k : Kind) (p off : Nat) : Hub :=
  (fieldsAt k off).foldl (fun g f => if f.acc = .rc then g.put p f 0 else g) h

/-- A member entry read; a HOPS field that has expired shows a free value, as the manual gives none (R151). -/
def Hub.readMember (h : Hub) (w : Nat) : Nat × Hub :=
  match h.member (h.get pTopo TOPO.MEMB_SEL_ID) with
  | none => (w, h)
  | some m =>
    let (w, h) := if m.hopsE.isNone then (setBits w TOPO.MEMB_DATA_HOPS_E h.fresh.1, h.fresh.2) else (w, h)
    if m.hopsW.isNone then (setBits w TOPO.MEMB_DATA_HOPS_W h.fresh.1, h.fresh.2) else (w, h)

/-- A 64-bit counter of a ring port: its low word read, its high word latched (R141). -/
def Hub.readCount64 (h : Hub) (p : Nat) (hi : Fld) (n : Nat) : Nat × Hub := (n % 2 ^ 32, h.put p hi (n / 2 ^ 32))

/-- A count of the switch core read and cleared: its table without the entry (R307). -/
def Hub.readSwCount (h : Hub) (m : Map Nat) (key : Nat) (f : Map Nat → SwState → SwState) : Nat × Hub :=
  (Map.getD m key 0, h.setSw (f (Map.erase m key)))

/-- A 32-bit read of a register that a requester may read, below the memory window. -/
def Hub.readReg (h : Hub) (req : Req) (k : Kind) (p off : Nat) : Nat × Hub :=
  let i := instOf p
  let m := h.get pQos QOS.MTR_IDX_IDX
  if expertOffset off then (if h.on p PG.STAT_XOPEN then h.readExpert k p off else (0, h))
  else
    match k, off with
    | .time, 0x048 => h.readNow
    | .time, 0x068 => h.readCount64 p TIME.FB_HI_THI h.fbTicks
    | .rport, 0x060 => h.readCount64 p RPORT.RX_FRAMES_HI_HI (h.port i).rxFrames
    | .rport, 0x068 => h.readCount64 p RPORT.TX_FRAMES_HI_HI (h.port i).txFrames
    | .rport, 0x070 => h.readCount64 p RPORT.RX_BYTES_HI_HI (h.port i).rxBytes
    | .rport, 0x078 => h.readCount64 p RPORT.TX_BYTES_HI_HI (h.port i).txBytes
    | .topo, 0x064 => h.readMember (h.shown req k p off)
    | .trk, 0x068 => h.readSample i
    | .trk, 0x084 => h.readPosition i
    | .atr, 0x054 => h.readEpoch
    | .brg, 0x068 =>
      (h.shown req k p off, (h.put p BRG.RX_ERR_ADDR_ADDR (h.get p (latched BRG.RX_ERR_ADDR_ADDR))).put p BRG.RX_ERR_TAG_TAG
        (h.get p (latched BRG.RX_ERR_TAG_TAG)))
    | .brg, 0x074 => (h.shown req k p off, h.put p BRG.UNM_TAG_TAG (h.get p (latched BRG.UNM_TAG_TAG)))
    | .qos, 0x058 => h.readSwCount h.sw.meterCounts (4 * m) (fun t s => { s with meterCounts := t })
    | .qos, 0x05C => h.readSwCount h.sw.meterCounts (4 * m + 1) (fun t s => { s with meterCounts := t })
    | .qos, 0x060 => h.readSwCount h.sw.meterCounts (4 * m + 2) (fun t s => { s with meterCounts := t })
    | .qos, 0x144 => h.readDepth
    | .qos, 0x150 => h.readSwCount h.sw.redDrops h.selectedQueue (fun t s => { s with redDrops := t })
    | .qos, 0x154 => h.readSwCount h.sw.tailDrops h.selectedQueue (fun t s => { s with tailDrops := t })
    | .qos, 0x158 => h.readSwCount h.sw.sent h.selectedQueue (fun t s => { s with sent := t })
    | .ch, 0x054 => h.readChannelStat i
    | .ch, 0x05C => h.readCapture i
    | .ch, 0x07C => h.readFire i
    | .uart, 0x044 => h.popRx p
    | .spi, 0x044 => h.popRx p
    | .i2c, 0x044 => h.popRx p
    | .prs, 0x0AC => h.readStampLo i
    | .host, 0x04C => (h.shown req k p off, h.put p HOST.WERR_LO_ADDR (h.get p (latched HOST.WERR_LO_ADDR)))
    | .therm, 0x048 => (h.shown req k p off, { h.put p THERM.TJ_MAX_TJ 0 with therm := { h.therm with maxSeen := false } })
    | .zone, 0x084 => h.readImeas i
    | .zone, 0x094 => h.readEnergy i
    | .zone, 0x09C => (h.shown req k p off, (h.put p ZONE.IPEAK_MA 0).setZone i (fun s => { s with peakSeen := false }))
    | _, _ => (h.shown req k p off, h.clearOnRead k p off)

/-! ### Memory windows -/

/-- The little-endian word of `size` bytes that a function of the offset gives. -/
def wordFrom (f : Nat → Byte) (o size : Nat) : Nat := leNat ((List.range size).map (fun i => f (o + i)))

/-- A byte of the drift statistics (R229). -/
def Hub.driftByte (h : Hub) (k o : Nat) : Byte :=
  let bin (q b : Nat) : Bin := Map.getD (h.track k).bins (q * 8 + b) {}
  if o < 0x200 then
    let x := bin (o / 0x80) (o / 0x10 % 8)
    (leBytes 4 x.count ++ leBytes 4 (ofSigned 32 x.mean) ++ leBytes 4 (ofSigned 32 x.min) ++ leBytes 4 (ofSigned 32 x.max)).getD (o % 0x10) 0
  else if o < 0x280 then (leBytes 4 (ofSigned 32 (bin ((o - 0x200) / 0x20) (o / 4 % 8)).res)).getD (o % 4) 0
  else 0

/-- A read of a page's memory window, at an offset from 0xC00 on; none where the window does not take the access. -/
def Hub.readWindow (h : Hub) (k : Kind) (p off size : Nat) : Option (Nat × Hub) :=
  let i := instOf p
  let o := off - 0xC00
  let word (f : Nat → Byte) : Option (Nat × Hub) := if size = 4 then some (wordFrom f o 4, h) else none
  match k with
  | .rport =>
    let m := if o < 0x100 then (h.port i).a0 else (h.port i).a2
    some (if o < 0x200 then Mem.word m (o % 0x100) size else 0, h)
  | .topo => some (if o < 0x200 then Mem.word h.topo.groups o size else 0, h)
  | .trk => word (h.driftByte i)
  | .atr => if size = 4 then some (if o < 0x3C then h.get p (ATRC (o / 4)) else 0, if o < 0x3C then h.put p (ATRC (o / 4)) 0 else h) else none
  | .ch => word (h.channelWindow i)
  | .uart => if size ≠ 4 ∨ o < 0x100 then (if size = 4 then some (0, h) else none) else if o < 0x200 then some (h.popRx p) else
      some (wordFrom (h.stampWindow p) (o - 0x200) 4, h)
  | .spi => if size ≠ 4 ∨ o < 0x100 then (if size = 4 then some (0, h) else none) else if o < 0x200 then some (h.popRx p) else
      some (wordFrom (h.stampWindow p) (o - 0x200) 4, h)
  | .i2c => if size ≠ 4 ∨ o < 0x100 then (if size = 4 then some (0, h) else none) else if o < 0x200 then some (h.popRx p) else
      some (wordFrom (h.stampWindow p) (o - 0x200) 4, h)
  | .prs => if size ≠ 4 ∨ o < 0x100 then (if size = 4 then some (0, h) else none) else if o < 0x200 then h.popOut i else
      some (wordFrom (h.slotWindow i) (o - 0x200) 4, h)
  | .can => (h.readObject i off size).map (fun v => (v, h))
  | .host => some (Mem.word h.host.msix o size, h)
  | .mbx => some (Mem.word h.host.mail o size, h)
  | .upd => some (Mem.word h.upd.buf o size, h)
  | _ => some (0, h)

/-- The status of a read that its window does not take: OUT feeds the next engine, or the form of the access (R33, R415). -/
def Hub.windowStatus (h : Hub) (req : Req) (k : Kind) (p off size : Nat) : Nat × Hub :=
  if k = .prs ∧ size = 4 then (stBusy, h) else (stBadSize, h.accErr req p off)

/-- A read of a page: its status (0 where it is served), the data, and the hub after it. -/
def Hub.regRead (h : Hub) (req : Req) (p off size : Nat) : Nat × Nat × Hub :=
  match h.readTurnedAway req p off size with
  | some e => (h.stopStatus req p off size false, 0, e)
  | none =>
    match kindOf p with
    | none => (stNoTarget, 0, h)
    | some k =>
      if k = .prs ∧ off = 0x098 then
        (match h.popOut (instOf p) with
         | some x => (0, x.1, x.2)
         | none => (stBusy, 0, h))
      else if off < 0xC00 then (0, h.readReg req k p off)
      else
        match h.readWindow k p off size with
        | some x => (0, x.1, x.2)
        | none => ((h.windowStatus req k p off size).1, 0, (h.windowStatus req k p off size).2)

end Sys2Proof.Machine
end

