-- ==== Sys2Proof/Machine/Topology.lean ====
section
/-!
DEFINITION. The topology unit: node IDs, keep-alives, announcements, break records, heals and steering holds (R142 to R168).
Where the manual is open: DEDUCED, log entries 14 and 18.
-/
namespace Sys2Proof.Machine

open Reg

/-! ### Keep-alives (R147, R148) -/

/-- KEEP_ALIVE_SEND: a port in UP or SETTLING has started no frame for the interval, or its seed has changed (R148). -/
def execKeepAliveSend (port : Nat) (s : State) : Host.Outcome State Fault Refusal :=
  run s fun h => if port < 2 ∧ (h.link port = 4 ∨ h.link port = 5) then h.sendKeepAlive port else h

/-- The seed that a keep-alive carries, noted for its port with the clock count of its arrival (R145). -/
def Hub.noteSeed (h : Hub) (port : Nat) (f : Frame) : Hub :=
  h.setPort port (fun p => { p with seed := some (f.field 6 16, f.field 4 2, h.clock) })

/-- A keep-alive with LEAVING = 1: the first of them sends BREAK, and the port is wrapped and no longer open; every one starts the stable time again
(R150, R159, R162). -/
def Hub.peerLeaves (h : Hub) (port : Nat) : Hub :=
  let first := !(h.port port).peerLeaving
  let h := (h.setPort port (fun p => { p with peerLeaving := true })).cancelOwnHeal port
  if first then ((h.breakPort port).wrap port).resteerIf h else h

/-- KEEP_ALIVE: a keep-alive received on a port in UP or SETTLING (R147, R632). -/
def execKeepAlive (port : Nat) (frame : Frame) (s : State) : Host.Outcome State Fault Refusal :=
  run s fun h =>
    if port < 2 ∧ (h.link port = 4 ∨ h.link port = 5) then
      let h := (h.setPort port (fun p => { p with peerSrc := frame.hdr.src, peerKa := true })).noteSeed port frame
      if bitOf (frame.field 0 1) 7 then h.peerLeaves port else h.setPort port (fun p => { p with peerLeaving := false })
    else h

/-! ### Taking an ID (R142 to R146) -/

/-- Whether the peer of a port is numbered: the port is UP and its last keep-alive carried an ID (R144). -/
def Hub.peerNumbered (h : Hub) (port : Nat) : Bool := h.link port == 4 && (h.port port).peerKa && (h.port port).peerSrc != 0

/-- The first ID after `id` in a direction that the member table does not show, looking at most `fuel` far (R144). -/
def freeId (members : Map Member) (up : Bool) : Nat → Nat → Option Nat
  | 0, _ => none
  | fuel + 1, id =>
    let next := if up then (if id = 4094 then 1 else id + 1) else if id ≤ 1 then 4094 else id - 1
    match Map.find members next with
    | none => some next
    | some _ => freeId members up fuel next

/-- The ID that a position-mode node takes: after its West neighbour's, else before its East neighbour's (R144). -/
def Hub.candidate (h : Hub) : Option Nat :=
  if h.peerNumbered 1 then freeId h.topo.members true 4094 (h.port 1).peerSrc
  else if h.peerNumbered 0 then freeId h.topo.members false 4094 (h.port 0).peerSrc
  else none

/-- A position-mode node without an ID takes the candidate, if there is one (R143, R144). -/
def Hub.assignId (h : Hub) : Hub :=
  if h.numberless then
    (match h.candidate with
     | some id => h.takeId id 1
     | none => h)
  else h

/-- ID_ASSIGN: a position-mode node that has not withdrawn takes an ID (R144). -/
def execIdAssign (s : State) : Host.Outcome State Fault Refusal :=
  run s fun h => if h.get pTopo TOPO.STAT_ID_STATE = 3 then h else h.assignId

/-- ID_RETAKE: 1 ms after it withdrew, a position-mode node takes a new ID (R146). -/
def execIdRetake (s : State) : Host.Outcome State Fault Refusal :=
  run s fun h => if h.get pTopo TOPO.STAT_ID_STATE = 3 then h.assignId else h

/-- Whether every seed received on an UP port names this unit (R145). -/
def Hub.ownSeedOnly (h : Hub) (port : Nat) : Bool :=
  match h.portSeed port with
  | some (u, _) => u == h.uid
  | none => true

/-- SEED: for 50 ms no announcement and no seed but this node's own; it takes ID 1 (R145). -/
def execSeed (s : State) : Host.Outcome State Fault Refusal :=
  run s fun h =>
    if h.numberless ∧ h.mode.forwards ∧ h.ownSeedOnly 0 ∧ h.ownSeedOnly 1 then
      (h.takeId 1 1).put pTopo TOPO.STAT_SEEDED 1
    else h

/-! ### Announcements received (R146, R149 to R151, R158) -/

/-- PRESENT_SEND: every ANN_INT (R150). -/
def execPresentSend (s : State) : Host.Outcome State Fault Refusal :=
  run s fun h => h.announce 2 0 0 0

/-- Whether the announcement's sender wins against this node, so that this node withdraws (R146). -/
def Hub.losesTo (h : Hub) (f : Frame) : Bool :=
  let theirs := bitOf (f.field 19 1) 6
  if h.idFixed then theirs && decide (f.field 0 16 < h.uid)
  else theirs || decide (f.field 0 16 < h.uid)

/-- An announcement with this node's ID and another unit ID: the node that loses withdraws, and its member entry goes (R146, R151). -/
def Hub.conflict (h : Hub) (f : Frame) : Hub :=
  let h := (h.inc pTopo TOPO.ID_CONFLICT_COUNT).irq pTopo 2
  let h := if h.idFixed ∧ bitOf (f.field 19 1) 6 then h.raise pTopo 0 else h
  if h.losesTo f then h.withdraw else h.removeMember f.hdr.src

/-- A member entry after an announcement that arrived on a port (R151). -/
def memberAfter (m : Member) (port : Nat) (f : Frame) : Member :=
  let n : Member := { m with uid := f.field 0 16, inc := f.field 16 2, mode := f.field 20 1 % 16, fixed := bitOf (f.field 19 1) 6 }
  if port = 0 then { n with hopsE := some f.hdr.hops } else { n with hopsW := some f.hdr.hops }

/-- An announcement from a member creates or refreshes its entry; a new incarnation empties its windows (R151, R156). -/
def Hub.refreshMember (h : Hub) (port : Nat) (f : Frame) : Hub :=
  let src := f.hdr.src
  let old := h.member src
  let h := h.setTopo (fun t => { t with members := Map.set t.members src (memberAfter (old.getD {}) port f) })
  match old with
  | none => h.irq pTopo 0
  | some m => if m.inc = f.field 16 2 then h else h.emptyOriginWindows src

/-- The generation of a port that an announcement carries (R149). -/
def annGen (port : Nat) (f : Frame) : Nat := if port = 0 then f.field 22 2 else f.field 24 2

/-- Serial-number order of generations: `g` is lower than `r` (R158). -/
def genLower (g r : Nat) : Bool :=
  let d := (r + 65536 - g) % 65536
  decide (1 ≤ d) && decide (d ≤ 32767)

/-- The record of a sender on a port. -/
def Hub.recordOf (h : Hub) (port src : Nat) : Option BreakRec := (h.records port).find? (fun r => r.sender == src)

/-- The highest HOPS over records. -/
def highestHops (rs : List BreakRec) : Nat := rs.foldl (fun m r => max m r.hops) 0

/-- Sixteen records at most: the first with the highest HOPS is dropped (R158). -/
def capRecords (rs : List BreakRec) : List BreakRec :=
  if rs.length ≤ 16 then rs
  else
    let top := highestHops rs
    match rs.findIdx? (fun r => r.hops == top) with
    | some i => rs.eraseIdx i
    | none => rs

/-- A record created or refreshed, unless the announcement's generation is lower than the record's (R158). -/
def Hub.putRecord (h : Hub) (port : Nat) (f : Frame) : Hub :=
  let src := f.hdr.src
  let g := annGen port f
  let new : BreakRec := { sender := src, hops := f.hdr.hops, gen := g }
  match h.recordOf port src with
  | none => h.setRecords port (capRecords (h.records port ++ [new]))
  | some r => if genLower g r.gen then h else h.setRecords port ((h.records port).map (fun x => if x.sender = src then new else x))

/-- A record removed, unless the announcement's generation is lower than the record's (R158). -/
def Hub.dropRecord (h : Hub) (port src g : Nat) : Hub :=
  match h.recordOf port src with
  | none => h
  | some r => if genLower g r.gen then h else h.setRecords port ((h.records port).filter (fun x => x.sender != src))

/-- A JOIN or PRESENT on a port: a record goes where the sender shows its port open, and one is made on the matching port where it is not (R158). -/
def Hub.recordOpenness (h : Hub) (port : Nat) (f : Frame) : Hub :=
  [0, 1].foldl (fun g p =>
    if bitOf (f.field 19 1) (if p = 0 then 3 else 2) then g.dropRecord p f.hdr.src (annGen p f)
    else if p = port then g.putRecord p f else g) h

/-- What an announcement of an event does here: an ID conflict is resolved first; one that is this node's own, or another event's, does nothing. One
that shows a conflict which this node wins counts in ID_CONFLICT and not in EVENTS, R167 leaving that open (DESIGN CHOICE, log entry 18). -/
def Hub.onAnnouncement (h : Hub) (port event : Nat) (f : Frame) (k : Hub → Hub) : Hub :=
  let src := f.hdr.src
  if port ≥ 2 ∨ f.hdr.type ≠ 0x10 ∨ f.field 18 1 ≠ event ∨ src = 0 ∨ 4094 < src then h
  else if src = h.nodeId then
    (if f.field 0 16 = h.uid then h
     else
       let g := h.conflict f
       if g.nodeId = src then g else (k g).resteerIf g)
  else (k h).resteerIf h

/-- JOIN (R151, R158). EVENTS counts each copy received: the manual does not say whether the two copies of one announcement count once (DESIGN
CHOICE, log entry 18); so for LEAVE, BREAK and HEAL. -/
def execJoin (port : Nat) (frame : Frame) (s : State) : Host.Outcome State Fault Refusal :=
  run s fun h => h.onAnnouncement port 1 frame fun g =>
    ((g.inc pTopo TOPO.EVENTS_JOINS).refreshMember port frame).recordOpenness port frame

/-- PRESENT (R151, R158). -/
def execPresent (port : Nat) (frame : Frame) (s : State) : Host.Outcome State Fault Refusal :=
  run s fun h => h.onAnnouncement port 2 frame fun g => (g.refreshMember port frame).recordOpenness port frame

/-- LEAVE: the member's entry is removed (R151). -/
def execLeave (port : Nat) (frame : Frame) (s : State) : Host.Outcome State Fault Refusal :=
  run s fun h => h.onAnnouncement port 3 frame fun g => (g.inc pTopo TOPO.EVENTS_LEAVES).removeMember frame.hdr.src

/-- The port that a BREAK or HEAL names (R149). -/
def namedPort (f : Frame) : Nat := if bitOf (f.field 19 1) 7 then 1 else 0

/-- A BREAK with a higher generation cancels a pending HEAL for the same port (R162). -/
def Hub.cancelHeal (h : Hub) (port : Nat) (f : Frame) : Hub :=
  h.setTopo (fun t => { t with
    heals := t.heals.filter (fun r => !(r.sender == f.hdr.src && r.port == port && genLower r.gen (annGen port f))) })

/-- BREAK: on the port it names it makes a record and cancels a pending heal; on the other it has crossed the break and makes none (R158, R162). -/
def execBreakAnnouncement (port : Nat) (frame : Frame) (s : State) : Host.Outcome State Fault Refusal :=
  run s fun h => h.onAnnouncement port 4 frame fun g =>
    let g := (g.inc pTopo TOPO.EVENTS_BREAKS).refreshMember port frame
    if namedPort frame = port then (g.cancelHeal port frame).putRecord port frame else g

/-- HEAL: its record goes at T_h, or at once where T_h has passed (R162). -/
def execHeal (port : Nat) (frame : Frame) (s : State) : Host.Outcome State Fault Refusal :=
  run s fun h => h.onAnnouncement port 5 frame fun g =>
    let g := (g.inc pTopo TOPO.EVENTS_HEALS).refreshMember port frame
    let p := namedPort frame
    let src := frame.hdr.src
    if frame.field 28 8 ≤ g.now then g.dropRecord p src (annGen p frame)
    else g.setTopo (fun t => { t with
      heals := t.heals.filter (fun r => !(r.sender == src && r.port == p))
        ++ [{ sender := src, port := p, gen := annGen p frame, at_ := frame.field 28 8 }] })

/-- A member whose last direction has expired is removed (R151). -/
def Hub.dropSilent (h : Hub) (id : Nat) : Hub :=
  match h.member id with
  | some m => if m.hopsE.isNone && m.hopsW.isNone then h.removeMember id else h
  | none => h

/-- HOPS_EXPIRE: 3 × ANN_INT without an announcement from a member on a port (R151). -/
def execHopsExpire (id port : Nat) (s : State) : Host.Outcome State Fault Refusal :=
  run s fun h =>
    match h.member id with
    | none => h
    | some m =>
      let n := if port = 0 then { m with hopsE := none } else { m with hopsW := none }
      ((h.setTopo (fun t => { t with members := Map.set t.members id n })).dropSilent id).resteerIf h

/-! ### Heals (R162) -/

/-- LINK_STABLE: a port that is UP but not open has been stable; HEAL is sent with T_h (R162). -/
def execLinkStable (port : Nat) (s : State) : Host.Outcome State Fault Refusal :=
  run s fun h =>
    if port < 2 ∧ h.link port = 4 ∧ h.portOpen port = false ∧ (h.port port).peerLeaving = false ∧
        Map.find h.topo.healAt port = none ∧ h.fenced pSw = false then
      let th := h.now + 500000 * h.cfg pTopo TOPO.TIMERS_HEAL_DELAY
      let h := ((h.bumpGen port).setTopo (fun t => { t with healAt := Map.set t.healAt port th })).noteHeal
      h.announce 5 port (h.port port).peerSrc th
    else h

/-- This node's own port opens at its T_h (R162). -/
def Hub.openPort (h : Hub) (port : Nat) : Hub :=
  let h := (h.put pTopo (if port = 0 then TOPO.STAT_E_OPEN else TOPO.STAT_W_OPEN) 1).bumpGen port
  (h.setTopo (fun t => { t with healAt := Map.erase t.healAt port })).noteHeal

/-- HEAL_INSTANT: T_h of a HEAL, this node's own where `sender` is its ID (0 where it has none) (R162). -/
def execHealInstant (sender port : Nat) (s : State) : Host.Outcome State Fault Refusal :=
  run s fun h =>
    if sender = h.nodeId then
      (if (Map.find h.topo.healAt port).isSome ∧ h.link port = 4 ∧ h.fenced pSw = false then (h.openPort port).resteerIf h else h)
    else
      match h.topo.heals.find? (fun r => r.sender == sender && r.port == port) with
      | none => h
      | some r =>
        ((h.setTopo (fun t => { t with heals := t.heals.filter (fun x => x != r) })).dropRecord port sender r.gen).resteerIf h

/-- STEER_HOLD: a flow held after its change of direction may be sent on the new one (R161). -/
def execSteerHold (flow : Nat) (s : State) : Host.Outcome State Fault Refusal :=
  run s fun h => h.setTopo (fun t => { t with heldFlows := t.heldFlows.filter (fun f => f != flow) })

/-! ### Parking (R164) -/

/-- A write of TOPO.WAKE: each bit written 1 unparks its port (R164). -/
def Hub.writeWake (h : Hub) (v : Nat) : Hub :=
  let h := if bitOf v 0 then h.unpark 0 else h
  if bitOf v 1 then h.unpark 1 else h

/-- WAKE. -/
def execWake (req : Req) (value : Nat) (s : State) : Host.Outcome State Fault Refusal :=
  run s fun h => h.writeDo req pTopo 0x058 fun g => g.writeWake value

end Sys2Proof.Machine
end

