-- ==== Sys2Proof/Machine/RegWrite.lean ====
section
/-!
DEFINITION. Register writes: the checks, what each register does on being written, and the memory windows of the pages (R32 to R41, R45, R54).
Where the manual is open: DEDUCED, log entries 16 and 33.
-/
namespace Sys2Proof.Machine

open Reg

/-! ### Outcomes -/

/-- A write that is always accepted. -/
def accepted (h : Hub) : Hub × Nat := (h, 0)

/-- A write with its outcome, and the status it has where it is refused. -/
def outcome (st : Nat) (r : Hub × Bool) : Hub × Nat := (r.1, if r.2 then 0 else st)

/-- Staged fields written with values; refused whole where a commit runs and one would change (R54). -/
def Hub.stageFields (h : Hub) (p : Nat) (fs : List (Fld × Nat)) : Hub × Nat :=
  if h.commitBusy && fs.any (fun x => x.2 % 2 ^ x.1.w != h.get p x.1) then (h.blocked, stStaging)
  else (fs.foldl (fun g x => g.put p x.1 x.2) h, 0)

/-- A write to a register whose fields only store. -/
def Hub.storeReg (h : Hub) (req : Req) (p off v : Nat) : Hub × Nat := outcome stStaging (h.plainWrite req p off v)

/-! ### Registers with effects of their own -/

/-- A write of PG_CTRL: OWNER and EN are staged, then XKEY and SRST act (R44, R48, R54, R61). -/
def Hub.writePgCtrl (h : Hub) (req : Req) (p v : Nat) : Hub × Nat :=
  match h.plainWrite req p 0x008 v with
  | (g, false) => (g, stStaging)
  | (g, true) =>
    let g := g.xkey p (slice v 8 8)
    (if bitOf v 1 then g.softReset p else g, 0)

/-- A write to a queue pair's registers (R472): all but TX_PROD, RX_TAIL and CFG.EN are open only while EN is 0. -/
def Hub.writeQp (h : Hub) (req : Req) (off v : Nat) : Hub × Nat :=
  let q := (off - 0x100) / 64
  let on := h.on pHost (HOST.QP_CFG_EN q)
  match (off - 0x100) % 64 with
  | 0x00 =>
    if on then accepted (if bitOf v 31 then h else h.disableQp q)
    else
      let r := h.storeReg req pHost off v
      if bitOf v 31 then (r.1.startQp q, r.2) else r
  | 0x1C => accepted (h.writeTxProd q v)
  | 0x20 => accepted (h.writeRxTail q v)
  | _ => if on && !(pageFields pHost off).isEmpty then (h, stBusy) else h.storeReg req pHost off v

/-- A write of STW.WDOG: a changed period restarts its watchdog (R543). -/
def Hub.writeWdog (h : Hub) (req : Req) (v : Nat) : Hub × Nat :=
  let now := h.ns
  let s := slice v 16 16 != h.get pStw STW.WDOG_S_MS
  let a := slice v 0 16 != h.get pStw STW.WDOG_A_MS
  let h := { h with stw := { h.stw with kickS := if s then now else h.stw.kickS, kickA := if a then now else h.stw.kickA } }
  h.storeReg req pStw 0x04C v

/-- A write of ANX_IRQ_HI: inputs 32 and 34 to 40 stay with the secure world, input 33 with the Annex (R541). -/
def annexInputs (v : Nat) : Nat := (v % 2 ^ 32 - (v % 2 ^ 32 &&& 0x1FD)) ||| 2

/-- Whether a register takes writes from the secure world alone (R537). -/
def secureOnly (k : Kind) (off : Nat) : Bool :=
  match k with
  | .stw => decide (0x40 ≤ off) && off != 0x050
  | .lc => off == 0x068 || off == 0x074
  | _ => false

/-- A write to an MBX register that would change a staged value is refused unless it comes from the owner of SYS or the secure world (R479). -/
def Hub.mbxShut (h : Hub) (req : Req) (k : Kind) (off v : Nat) : Bool :=
  k == .mbx && !h.sysOwner req && h.changesStaged req pMbx (pageFields pMbx off) v

/-- A write to a page's own registers, from 0x040 on. -/
def Hub.writeOwn (h : Hub) (req : Req) (k : Kind) (p off v : Nat) (ready : Hub → Nat → Hub × Bool) : Hub × Nat :=
  let i := instOf p
  match k, off with
  | .sys, 0x040 => outcome stBusy (h.writeCommit req v)
  | .sys, 0x084 => outcome stBusy (h.writeModeReq req v)
  | .sys, 0x0DC => accepted (h.writeGateReq v)
  | .sys, 0x0E0 => accepted (h.writeGateHold req v)
  | .flt, 0x048 => accepted (h.writeRelease (slice v 16 16) (slice v 0 12))
  | .topo, 0x058 => accepted (h.writeWake v)
  | .time, 0x064 => outcome stBusy (h.writeFbInc req v)
  | .trk, 0x054 => accepted (h.writePreset i v)
  | .trk, 0x1C4 => accepted (h.clearStats i (v % 16))
  | .brg, 0x064 => accepted (h.writeIrqSend v)
  | .brg, 0x054 => h.stageFields p [(routeFld (h.get pBrg BRG.RT_IDX_IDX) 0, v)]
  | .brg, 0x058 => h.stageFields p [(routeFld (h.get pBrg BRG.RT_IDX_IDX) 1, v)]
  | .brg, 0x05C => h.stageFields p [(routeFld (h.get pBrg BRG.RT_IDX_IDX) 2, v)]
  | .brg, 0x060 => h.stageFields p [(routeFld (h.get pBrg BRG.RT_IDX_IDX) 3, v)]
  | .qos, 0x044 =>
    let e := h.get pQos QOS.CLS_IDX_IDX
    if e < 288 then h.stageFields p [(clsMen e, slice v 31 1), (clsMeter e, slice v 12 8), (clsQueue e, slice v 0 4)] else accepted h
  | .qos, 0x04C => h.stageFields p [(mtrCir (h.get pQos QOS.MTR_IDX_IDX), slice v 0 20)]
  | .qos, 0x050 => h.stageFields p [(mtrPir (h.get pQos QOS.MTR_IDX_IDX), slice v 0 20)]
  | .qos, 0x054 =>
    let m := h.get pQos QOS.MTR_IDX_IDX
    h.stageFields p [(mtrPbs m, slice v 16 16), (mtrCbs m, slice v 0 16)]
  | .ch, 0x04C => accepted (h.writeCtl i v)
  | .ch, 0x050 => outcome (h.outStatus true) (h.writeOut i v)
  | .ch, 0x058 => outcome stBusy (h.writeCount i v)
  | .ch, 0x068 => outcome stBusy (h.writeCapAck req i (v % 32))
  | .ch, 0x078 => outcome (h.outStatus true) (h.pushEntry i (v % 65536))
  | .uart, 0x050 => accepted (h.writeFifoCtl p v)
  | .spi, 0x050 => accepted (h.writeFifoCtl p v)
  | .i2c, 0x050 => accepted (h.writeFifoCtl p v)
  | .uart, 0x058 => outcome stBusy (h.writeTsAck req p v)
  | .spi, 0x058 => outcome stBusy (h.writeTsAck req p v)
  | .i2c, 0x058 => outcome stBusy (h.writeTsAck req p v)
  | .uart, 0x080 => accepted (h.writeIol p v)
  | .spi, 0x074 => accepted (h.writeSsiCtl i v)
  | .prs, 0x04C => outcome stBusy (h.writeProg i v)
  | .prs, 0x058 => outcome (h.outStatus (bitOf v 0)) (h.writePrsCtl i v)
  | .prs, 0x09C => accepted (h.writeQctl i v)
  | .prs, 0x0A0 => outcome (h.outStatus (slice v 16 16 == 0x47A1 && (v % 16 == 1 || v % 16 == 2))) (h.writeGroup req i v)
  | .can, 0x04C =>
    let t := h.objType i (v % 128)
    outcome (h.outStatus (t == 1 || t == 3)) (h.writeGo i v)
  | .can, 0x050 => accepted (h.writeCancel i v)
  | .can, 0x054 => accepted (h.writeRecover i v)
  | .eth, 0x060 => outcome stBusy (h.writeMdio v)
  | .eth, 0x068 => accepted (h.writeWakeTx v)
  | .mbx, 0x0C0 => outcome stBusy (h.mailCommand req v)
  | .mbx, 0x100 => outcome stBusy (h.writeDbRaw req 0 v)
  | .mbx, 0x110 => outcome stBusy (h.writeDbRaw req 1 v)
  | .mbx, 0x120 => outcome stBusy (h.writeDbRaw req 2 v)
  | .mbx, 0x130 => outcome stBusy (h.writeDbRaw req 3 v)
  | .mbx, 0x104 => outcome stBusy (h.writeDbMask req 0 v)
  | .mbx, 0x114 => outcome stBusy (h.writeDbMask req 1 v)
  | .mbx, 0x124 => outcome stBusy (h.writeDbMask req 2 v)
  | .mbx, 0x134 => outcome stBusy (h.writeDbMask req 3 v)
  | .mbx, 0x10C => accepted (h.writeRing req 0 v)
  | .mbx, 0x11C => accepted (h.writeRing req 1 v)
  | .mbx, 0x12C => accepted (h.writeRing req 2 v)
  | .mbx, 0x13C => accepted (h.writeRing req 3 v)
  | .zone, 0x040 => accepted (h.writeZoneCmd i v)
  | .zone, 0x044 => accepted (h.writeZoneCtl i v)
  | .stw, 0x044 => outcome stBusy (ready h (slice v 16 16))
  | .stw, 0x04C => h.writeWdog req v
  | .stw, 0x050 => outcome stBusy (h.kick req v)
  | .stw, 0x054 => accepted (h.writeAnxCtl v)
  | .stw, 0x0D4 => h.storeReg req p off (annexInputs v)
  | .lc, 0x044 => outcome stBusy (h.writeTrans req v)
  | .lc, 0x074 => accepted (h.writeOtpProg v)
  | _, _ =>
    if k = .prs ∧ 0x060 ≤ off ∧ off < 0x080 then
      (if h.loadable i then h.storeReg req p off v else (h, stBusy))
    else if k = .host ∧ 0x100 ≤ off ∧ off < 0x300 then h.writeQp req off v
    else h.storeReg req p off v

/-- A write to a register of a page, below the memory window and other than one that may stall. -/
def Hub.writeReg (h : Hub) (req : Req) (k : Kind) (p off v : Nat) (ready : Hub → Nat → Hub × Bool) : Hub × Nat :=
  if secureOnly k off && req != .secure then (h, stBusy)
  else if h.mbxShut req k off v then (h, stBusy)
  else
    match off with
    | 0x008 => h.writePgCtrl req p v
    | 0x010 => accepted (h.clearIrq p v 0)
    | 0x01C => accepted (h.clearFlt p v 0)
    | 0x024 => if bitOf v 0 then outcome stStaging (h.discardPage p) else accepted h
    | _ => h.writeOwn req k p off v ready

/-! ### Memory windows -/

/-- Whether a window ignores writes of 32 bits and takes no others. -/
def wordWindow (k : Kind) : Bool :=
  match k with
  | .trk => true | .atr => true | .ch => true | .uart => true | .spi => true | .i2c => true | .prs => true
  | _ => false

/-- A write to a page's memory window, other than a push. -/
def Hub.writeWindow (h : Hub) (req : Req) (k : Kind) (p off size v : Nat) : Hub × Nat :=
  let o := off - 0xC00
  match k with
  | .topo => if o < 0x200 then accepted { h with topo := { h.topo with groups := Mem.setWord h.topo.groups o size v } } else accepted h
  | .can => if (off - 0xC00) % 128 < 32 ∧ size ≠ 4 then (h.accErr req p off, stBadSize) else outcome stBusy (h.writeObject (instOf p) off size v)
  | .host => accepted { h with host := { h.host with msix := Mem.setWord h.host.msix o size v } }
  | .mbx => outcome stBusy (h.mailData req off size v)
  | .upd => accepted { h with upd := { h.upd with buf := Mem.setWord h.upd.buf o size v } }
  | k => if wordWindow k && size != 4 then (h.accErr req p off, stBadSize) else accepted h

/-! ### The whole write -/

/-- The entry that a write pushes into a transmit FIFO; none where it pushes none (R361, R379). -/
def pushedEntry (k : Kind) (off size v : Nat) : Option Nat :=
  let window := inWin 0xC00 off && size == 4
  match k with
  | .uart => if off = 0x040 ∨ window then some v else none
  | .i2c => if off = 0x040 ∨ window then some v else none
  | .spi => if off = 0x040 ∨ window then some v else if off = 0x078 then some (frameEntry v) else none
  | _ => none

/-- Whether a write pushes a word into an engine's IN (R413). -/
def pushesIn (k : Kind) (off size : Nat) : Bool := k == .prs && (off == 0x094 || (inWin 0xC00 off && size == 4))

/-- A write that the checks admit, with what its completion goes to. -/
def Hub.admittedWrite (h : Hub) (req : Req) (k : Kind) (p off size v : Nat) (w : Waiter) (ready : Hub → Nat → Hub × Bool) : Hub :=
  match pushedEntry k off size v with
  | some e => h.pushTx p e w
  | none =>
    if pushesIn k off size then h.pushIn (instOf p) v w
    else
      let r := if off < 0xC00 then h.writeReg req k p off v ready else h.writeWindow req k p off size v
      r.1.stallEnds w r.2

/-- A write to a page: its checks, its effect, and the status that its completion has. `ready` is the effect of STW.READY (R560). -/
def Hub.regWrite (h : Hub) (req : Req) (p off size v : Nat) (w : Waiter) (ready : Hub → Nat → Hub × Bool) : Hub :=
  if p = pSys ∧ off = 0x084 ∧ size = 4 ∧ h.modeReqShut req = false then
    let r := h.writeModeReq req v
    r.1.stallEnds w (if r.2 then 0 else stOwner)
  else
    match h.turnedAway req p off size with
    | some e => e.stallEnds w (h.stopStatus req p off size true)
    | none =>
      match kindOf p with
      | some k => h.admittedWrite req k p off size v w ready
      | none => h.stallEnds w stNoTarget

end Sys2Proof.Machine
end

