-- ==== Sys2Proof/Machine/Start.lean ====
section
/-!
DEFINITION. The end of start-up: the Annex is loaded, the configuration section is applied, and the firmware declares itself ready
(R544, R566, R569, R572, R573).
Where the manual is open: DEDUCED, log entry 31.
-/
namespace Sys2Proof.Machine

open Reg

/-! ### Prism engine memories (R396, R397) -/

/-- An access to the Prism engines' windows by the form it has: 0 where a memory takes it, else its status. -/
def memForm (e o size : Nat) : Nat :=
  if 32 ≤ e ∨ 0x1400 ≤ o then stNoTarget
  else if o % size ≠ 0 then stBadSize
  else if o < 0x1000 then (if size = 4 then 0 else stBadSize)
  else if size = 1 ∨ size = 2 ∨ size = 4 then 0 else stBadSize

/-- An access that no region takes, or in a form that its region does not take, recorded by its address (R32, R33). -/
def Hub.mapErr (h : Hub) (req : Req) (a : Nat) : Hub := h.accErr req (a / 4096) (a % 4096)

/-- A write to an engine's memories: `a` is the offset from 0x0_9000_0000. -/
def Hub.writeMem (h : Hub) (req : Req) (a size v : Nat) : Hub × Nat :=
  let e := a / 0x10000
  let o := a % 0x10000
  if memForm e o size ≠ 0 then (h.mapErr req (0x90000000 + a), memForm e o size)
  else if h.underTest (pPrs e) then (h, stBusy)
  else
    match h.memTurnedAway req e o with
    | some g => (g, h.memStatus req e)
    | none =>
      if o < 0x1000 then outcome stBusy (h.writeProgWord e o v)
      else ({ h with prsMem := Mem.setWord h.prsMem (0x10000 * e + o) size v }, 0)

/-- A read of an engine's memories. -/
def Hub.readMem (h : Hub) (req : Req) (a size : Nat) : Nat × List Byte × Hub :=
  let e := a / 0x10000
  let o := a % 0x10000
  if memForm e o size ≠ 0 then (memForm e o size, [], h.mapErr req (0x90000000 + a))
  else if h.underTest (pPrs e) then (stBusy, [], h)
  else if h.gated (pPrs e) then (stGated, [], h.gateErr req (pPrs e) o)
  else (0, Mem.readN h.prsMem a size, h)

/-! ### Configuration records (R569) -/

/-- A write of the secure world with its outcome; its completion goes to the firmware. A write that a full FIFO stalls is refused. -/
def Hub.firmwareWrite (h : Hub) (f : Hub → Hub) : Hub × Bool :=
  let g := f { h with out := [] }
  ({ g with out := h.out ++ g.out.filter (fun o => match o with | .resp .secure _ => false | _ => true) }, g.out.contains (.resp .secure true))

/-- STW.READY has no effect on a firmware that is not ready yet and writes it by a record. -/
def noReady (h : Hub) (_ : Nat) : Hub × Bool := (h, true)

/-- One record applied. -/
def Hub.applyRecord (h : Hub) (w0 w1 : Nat) : Hub × Bool :=
  if w0 / 2 ^ 24 = 0 then h.firmwareWrite (fun g => g.regWrite .secure (slice w0 12 12) (slice w0 0 12) 4 w1 (.reply .secure 0) noReady)
  else if w0 / 2 ^ 24 = 1 then
    let r := h.writeMem .secure (4 * (w0 % 2 ^ 24)) 4 w1
    (r.1, r.2 == 0)
  else (h, false)

/-- Records applied in order; the index of the first that is refused, if any. -/
def Hub.applyRecords (h : Hub) (i : Nat) : List (Nat × Nat) → Hub × Option Nat
  | [] => (h, none)
  | r :: rs =>
    match h.applyRecord r.1 r.2 with
    | (g, true) => g.applyRecords (i + 1) rs
    | (g, false) => (g, some i)

/-- The records of a section's bytes. -/
def recordsOf (bs : List Byte) : List (Nat × Nat) :=
  (List.range (bs.length / 8)).map (fun i => (leNat ((bs.drop (8 * i)).take 4), leNat ((bs.drop (8 * i + 4)).take 4)))

/-- PG_SEAL.DISCARD written 1 on every page. -/
def Hub.discardAll (h : Hub) : Hub := usedPages.foldl (fun g p => (g.discardPage p).1) h

/-- A configuration section that is not applied: nothing of it stays staged, and UPD.CFG_ERR says why (R572). -/
def Hub.configFailed (h : Hub) (rc record : Nat) : Hub := (h.discardAll.put pUpd UPD.CFG_ERR_RC rc).put pUpd UPD.CFG_ERR_RECORD record

/-- The booted image's configuration section applied; whether start-up goes on to Transparent. -/
def Hub.applyConfig (h : Hub) (b : BootImage) : Hub × Bool :=
  match b.config with
  | none => (h, true)
  | some (off, len, code) =>
    if b.bare then (h.configFailed 0x8005 0, false)
    else
      match h.applyRecords 0 (recordsOf (h.streamRead (h.area b.slot) off len)) with
      | (g, none) => (g.put pSys SYS.SEAL_CODE_CODE code, true)
      | (g, some i) => (g.configFailed 0x800D i, false)

/-! ### STW.READY (R544, R572) -/

/-- The booted image's Annex section loaded into a region of its own (R539, R566, R572). -/
def Hub.loadAnnex (h : Hub) : Hub :=
  match h.upd.boot with
  | some b =>
    (match b.annex with
     | some size => if h.annexState = 0 then (h.grantAnnex size).setAnnex 1 else h
     | none => h)
  | none => h

/-- The hub leaves Waking as READY is set: Transparent, or Held after a section that was not applied (R572). -/
def Hub.startUp (h : Hub) : Hub :=
  let b := h.upd.boot.getD {}
  let r := h.applyConfig b
  let h := (r.1.setReady true).put pUpd UPD.BOOT_INFO_MS (min 0xFFFF ((h.ns - h.stw.bootNs) / 1000000))
  let h := if r.2 then h.leaveWaking .transparent 0x10 else h.leaveWaking .held 0x23
  let h := if b.auto && r.2 then h.startAnnex else h
  h.raiseRollback

/-- A write of STW.READY by the firmware while it runs: with the key it sets READY, and in Waking start-up ends (R544, R572). -/
def Hub.declareReady (h : Hub) (key : Nat) : Hub × Bool :=
  if key ≠ 0x3EAD ∨ h.get pStw STW.STAT_CORE ≠ 2 ∨ h.on pStw STW.STAT_READY then (h, true)
  else
    let h := h.loadAnnex
    ((if h.mode = .waking then h.startUp else (h.setReady true).raiseRollback).mailCalls, true)

/-- STEWARD_READY. -/
def execStewardReady (req : Req) (key : Nat) (s : State) : Host.Outcome State Fault Refusal :=
  run s fun h => h.secureWrite req pStw 0x044 fun g => (g.declareReady (key % 65536)).1

/-- REGISTER_WRITE: an aligned write of `size` bytes to a page, with the checks and the effect of the register or window it reaches
(R31 to R35, R41, R48, R54). -/
def execRegisterWrite (req : Req) (page off size value : Nat) (s : State) : Host.Outcome State Fault Refusal :=
  run s fun h => h.regWrite req page off size value (.reply req (pageAddr page off)) Hub.declareReady

end Sys2Proof.Machine
end

