-- ==== Sys2Proof/Machine/Bus.lean ====
section
/-!
DEFINITION. The local map, and the accesses that reach it from the ring, the host port, the Steward core and the control path
(R255 to R270, R454 to R475, R535, R536).
Where the manual is open: DEDUCED, log entry 33; PRESUMED, log entry 43.
-/
namespace Sys2Proof.Machine

open Reg

/-! ### The local map (R256) -/

/-- The region that a local address lies in, with the offset there. -/
inductive Region where
  | page (p off : Nat)
  | atrium (o : Nat)
  | prism (o : Nat)
  | channels (o : Nat)
  | dram (o : Nat)
  | none
deriving DecidableEq, Repr

/-- The bytes of DRAM outside the Bulk overflow area (R256, R290). -/
def Hub.dramBytes (h : Hub) : Nat := 2 ^ (28 + h.cfg pDram DRAM.CFG_SIZE) - h.cfg pDram DRAM.CFG_OVF_SIZE * 1048576

/-- The region of a local address. -/
def Hub.regionOf (h : Hub) (a : Nat) : Region :=
  if 0x40000000 ≤ a ∧ a < 0x41000000 then .page (a / 4096 % 4096) (a % 4096)
  else if 0x80000000 ≤ a ∧ a < 0x80311000 then .atrium (a - 0x80000000)
  else if 0x90000000 ≤ a ∧ a < 0x98000000 then .prism (a - 0x90000000)
  else if 0x98000000 ≤ a ∧ a < 0xA0000000 then .channels (a - 0x98000000)
  else if 0x100000000 ≤ a ∧ a < 0x100000000 + h.dramBytes then .dram (a - 0x100000000)
  else .none

/-- The number of a region, for ranges that must not leave it. -/
def Region.code : Region → Nat
  | .none => 0
  | .page _ _ => 1
  | .atrium _ => 2
  | .prism _ => 3
  | .channels _ => 4
  | .dram _ => 5

/-- Whether a range lies inside the map. -/
def Hub.inMap (h : Hub) (a n : Nat) : Bool :=
  (h.regionOf a).code != 0 && (h.regionOf a).code == (h.regionOf (a + n - 1)).code

/-- The status of an access to DRAM that its controller does not serve: gated, or not ready; 0 where it is served. -/
def Hub.dramStatus (h : Hub) : Nat := if h.gated pDram then stGated else if h.dramReady then 0 else stBusy

/-- Whether an Annex access to a local address outside the register pages is turned away before it reaches the hub (R538). -/
def Hub.annexShut (h : Hub) (req : Req) (r : Region) (a : Nat) (write : Bool) : Option Hub :=
  match req, r with
  | .annex, .page _ _ => none
  | .annex, .dram _ => if h.annexState ≠ 2 then some h else if h.on pStw STW.DRAM_WIN_ANX then none else some h.annexFault
  | .annex, _ => if h.annexState ≠ 2 then some h else if h.annexReaches a (flag write) then none else some h.annexFault
  | _, _ => none

/-! ### Words written -/

/-- A word written outside the register pages: its status and the hub after it. -/
def Hub.writeRegion (h : Hub) (req : Req) (r : Region) (a n v : Nat) : Hub × Nat :=
  match r with
  | .atrium o =>
    if a % n ≠ 0 then (h.mapErr req a, stBadSize)
    else if h.underTest pAtr then (h, stBusy)
    else if 0x300000 ≤ o ∧ o < 0x300400 then
      outcome (if h.mayWrite req pAtr then stBusy else stOwner) (h.writeShadow req (o - 0x300000) (leBytes n v))
    else if (h.atrByte o).isNone then (h.mapErr req a, stNoTarget)
    else (h, stReadOnly)
  | .prism o => h.writeMem req o n v
  | .channels o =>
    if 0x1000 ≤ o then (h.mapErr req a, stNoTarget) else if a % n ≠ 0 ∨ n < 4 then (h.mapErr req a, stBadSize) else (h, stReadOnly)
  | .dram o =>
    if a % n ≠ 0 then (h.mapErr req a, stBadSize)
    else if h.dramStatus ≠ 0 then (h, h.dramStatus)
    else ({ h with dram := Mem.setWord h.dram o n v }, 0)
  | _ => (h, stNoTarget)

/-- A word of `n` bytes written at a local address; its outcome goes to `w`. -/
def Hub.writeLocal (h : Hub) (req : Req) (a n v : Nat) (w : Waiter) : Hub :=
  match h.annexShut req (h.regionOf a) a true with
  | some g => g.stallEnds w stBusy
  | none =>
    match h.regionOf a with
    | .page p off => h.regWrite req p off n v w Hub.declareReady
    | r => (h.writeRegion req r a n v).1.stallEnds w (h.writeRegion req r a n v).2

/-! ### Words read -/

/-- The words of a channel in the image at 0x0_9800_0000 (R358): a read latches and consumes nothing. -/
def Hub.imageWord (h : Hub) (c i : Nat) : Nat × Hub :=
  let w := h.captureWords c
  let f := (h.ch c).fired
  match i with
  | 0 => h.readChannelStat c
  | 1 => (h.get (pCh c) CH.CNT_COUNT, h)
  | 2 => (w.1, h)
  | 3 => (w.2.1, h)
  | 4 => (w.2.2, h)
  | 5 => (f.1, h)
  | 6 => (f.2.1, h)
  | _ => (f.2.2, h)

/-- A word read outside the register pages: its status, its bytes and the hub after it. -/
def Hub.readRegion (h : Hub) (req : Req) (r : Region) (a n : Nat) : Nat × List Byte × Hub :=
  match r with
  | .atrium o =>
    if a % n ≠ 0 then (stBadSize, [], h.mapErr req a)
    else if h.underTest pAtr then (stBusy, [], h)
    else if (h.atrByte o).isNone then (stNoTarget, [], h.mapErr req a)
    else (0, (List.range n).map (fun i => (h.atrByte (o + i)).getD 0), h)
  | .prism o => h.readMem req o n
  | .channels o =>
    if 0x1000 ≤ o then (stNoTarget, [], h.mapErr req a)
    else if a % n ≠ 0 ∨ n < 4 then (stBadSize, [], h.mapErr req a)
    else if h.underTest (pCh (o / 32)) then (stBusy, [], h)
    else
      let x := h.imageWord (o / 32) (o % 32 / 4)
      if n = 4 then (0, leBytes 4 x.1, x.2)
      else
        let y := x.2.imageWord (o / 32) (o % 32 / 4 + 1)
        (0, leBytes 4 x.1 ++ leBytes 4 y.1, y.2)
  | .dram o =>
    if a % n ≠ 0 then (stBadSize, [], h.mapErr req a)
    else if h.dramStatus ≠ 0 then (h.dramStatus, [], h)
    else (0, Mem.readN h.dram o n, h)
  | _ => (stNoTarget, [], h)

/-- A word of `n` bytes read at a local address. -/
def Hub.readLocal (h : Hub) (req : Req) (a n : Nat) : Nat × List Byte × Hub :=
  match h.annexShut req (h.regionOf a) a false with
  | some g => (stBusy, [], g)
  | none =>
    match h.regionOf a with
    | .page p off =>
      let x := h.regRead req p off n
      (x.1, if x.1 = 0 then leBytes n x.2.1 else [], x.2.2)
    | r => h.readRegion req r a n

/-! ### Whole accesses (R264) -/

/-- SYS.OWN_ERR and its count as another hub has them. -/
def Hub.ownErrOf (h g : Hub) : Hub :=
  (((h.put pSys SYS.OWN_ERR_REQ (g.get pSys SYS.OWN_ERR_REQ)).put pSys SYS.OWN_ERR_PAGE (g.get pSys SYS.OWN_ERR_PAGE)).put
    pSys SYS.OWN_ERR_OFFSET (g.get pSys SYS.OWN_ERR_OFFSET)).put pSys SYS.OWN_ERR_CNT_COUNT (g.get pSys SYS.OWN_ERR_CNT_COUNT)

/-- A write applied word by word, every word of it, at a width of `n` bytes; `x` says who learns the outcome. A remote request is recorded and counted
once in OWN_ERR, at its first word that a missing ownership refuses (R41, R264, R279). -/
def Hub.writeWords (h : Hub) (x : Serving) (req : Req) (a n : Nat) (data : List Byte) : Hub :=
  let count := data.length / n
  let id := h.brg.serving.foldl (fun m e => max m (e.1 + 1)) 0
  let h := h.setBrg (fun b => { b with serving := Map.set b.serving id { x with left := count } })
  ((List.range count).foldl (fun (s : Hub × Bool) i =>
    let g := s.1.writeLocal req (a + n * i) n (leNat ((data.drop (n * i)).take n)) (.part id i (a + n * i))
    if s.2 then (g.ownErrOf s.1, true)
    else (g, x.frame.isSome && g.get pSys SYS.OWN_ERR_CNT_COUNT != s.1.get pSys SYS.OWN_ERR_CNT_COUNT)) (h, false)).1

/-- What a read has found so far: the first failure, with its address, and the bytes. -/
structure ReadResult where
  fail : Option (Nat × Nat) := none
  bytes : List Byte := []
deriving DecidableEq, Repr

/-- A read of `count` words at a width of `n` bytes: it succeeds only if every word does. -/
def Hub.readWords (h : Hub) (req : Req) (a n count : Nat) : Hub × ReadResult :=
  (List.range count).foldl (fun (s : Hub × ReadResult) i =>
    let r := s.1.readLocal req (a + n * i) n
    (r.2.2, if r.1 = 0 then { s.2 with bytes := s.2.bytes ++ r.2.1 }
            else { s.2 with fail := match s.2.fail with | none => some (r.1, a + n * i) | f => f })) (h, {})

/-! ### Requests served at this target (R257, R262 to R264, R270, R311, R317) -/

/-- Whether an enabled window of a tenant lets a request through (R311). -/
def Hub.windowOpen (h : Hub) (t a n : Nat) (read express : Bool) : Bool :=
  let p := pTen (t % 8)
  h.tenantOn t && (List.range 8).any (fun i =>
    let base := h.cfg p (TEN.WIN_BASE_BASE i) * 4096
    h.cfgOn p (TEN.WIN_CTL_EN i) && decide (base ≤ a) && decide (a + n ≤ base + h.cfg p (TEN.WIN_CTL_PAGES i) * 4096)
      && h.cfgOn p (if read then TEN.WIN_CTL_RD i else TEN.WIN_CTL_WR i) && (!express || h.cfgOn p (TEN.WIN_CTL_XOK i)))

/-- The byte-lane window that a range touches (R270). -/
def Hub.laneWindow (h : Hub) (a n : Nat) : Option Nat :=
  (List.range 16).find? (fun i =>
    let base := h.cfg pBrg (BRG.WIN_BASE_BASE i) * 4096
    h.cfgOn pBrg (BRG.WIN_CTL_EN i) && h.cfg pBrg (BRG.WIN_CTL_RULE i) == 1
      && decide (a < base + h.cfg pBrg (BRG.WIN_CTL_PAGES i) * 4096) && decide (base < a + n))

/-- The size of the elements whose bytes are exchanged in a range: 1 for none; none where the range breaks its window's rule (R270). -/
def Hub.laneSize (h : Hub) (a n : Nat) : Option Nat :=
  match h.laneWindow a n with
  | none => some 1
  | some i =>
    let base := h.cfg pBrg (BRG.WIN_BASE_BASE i) * 4096
    let e := 2 ^ (h.cfg pBrg (BRG.WIN_CTL_ELEM i) + 1)
    if base ≤ a ∧ a + n ≤ base + h.cfg pBrg (BRG.WIN_CTL_PAGES i) * 4096 ∧ a % e = 0 ∧ n % e = 0 then some e else none

/-- The bytes of each element of `e` bytes exchanged: byte i at i XOR (e - 1) (R270). -/
def exchange (e : Nat) (bs : List Byte) : List Byte :=
  (List.range (bs.length / e)).flatMap (fun i => ((bs.drop (e * i)).take e).reverse)

/-- The first check of R263 before the region's own that a request fails; 0 for none. -/
def Hub.requestStatus (h : Hub) (f : Frame) (read : Bool) (a acc n : Nat) : Nat :=
  if !h.windowOpen f.hdr.ten a n read (f.cls != .bulk) then stTenant
  else if !h.inMap a n then stNoTarget
  else if dataLimit (f.cls == .bulk) < n ∨ a / 4096 ≠ (a + n - 1) / 4096 then stBadReq
  else if 4 ≤ acc ∨ a % 2 ^ acc ≠ 0 ∨ n % 2 ^ acc ≠ 0 ∨ (h.laneSize a n).isNone then stBadSize
  else 0

/-- An Express request refused because the bridge, or its tenant's share of it, holds no room for it (R264, R317). -/
def Hub.expressFull (h : Hub) (f : Frame) : Option Hub :=
  let t := f.hdr.ten
  let held := h.expressHeld
  if f.cls = .bulk then none
  else if h.cfg (pTen (t % 8)) TEN.SLOTS_XREQ ≤ (held.filter (fun u => u == t)).length then
    some ((h.inc (pTen (t % 8)) TEN.XREQ_REF_COUNT).irq (pTen (t % 8)) 1)
  else if 64 ≤ held.length then some h
  else none

/-- A remote write served (R259, R263, R264). -/
def Hub.serveWrite (h : Hub) (f : Frame) : Hub :=
  let a := addressOf f
  let acc := f.field 5 1 % 4
  let data := f.payload.drop 8
  let n := data.length
  if n = 0 ∨ dataLimit (f.cls == .bulk) < n then h.inc pBrg BRG.BAD_REQ_COUNT
  else
    let st := h.requestStatus f false a acc n
    if st ≠ 0 then h.requestError f true st a
    else
      (h.inc pBrg BRG.RX_WR_COUNT).writeWords { frame := some f, addr := a } (.tenant f.hdr.ten) a (2 ^ acc)
        (exchange ((h.laneSize a n).getD 1) data)

/-- A remote read request served; `uncorr` is the offset of the first byte read at which memory has an uncorrectable error: the word that holds it
fails (R260 to R264). -/
def Hub.serveRead (h : Hub) (f : Frame) (uncorr : Option Nat) : Hub :=
  let a := addressOf f
  let acc := f.field 5 1 % 4
  let n := f.field 6 2
  if f.payload.length ≠ 8 then h.inc pBrg BRG.BAD_REQ_COUNT
  else if n = 0 then (h.inc pBrg BRG.BAD_REQ_COUNT).requestError f false stBadReq a
  else
    let st := h.requestStatus f true a acc n
    if st ≠ 0 then h.requestError f false st a
    else
      let r := (h.inc pBrg BRG.RX_RD_COUNT).readWords (.tenant f.hdr.ten) a (2 ^ acc) (n / 2 ^ acc)
      let bad := (uncorr.filter (fun o => decide (o < n))).map (fun o => a + o / 2 ^ acc * 2 ^ acc)
      match r.2.fail, bad with
      | some (st, b), some c => if c < b then r.1.requestError f false 0x09 c else r.1.requestError f false st b
      | some (st, b), none => r.1.requestError f false st b
      | none, some c => r.1.requestError f false 0x09 c
      | none, none => r.1.respond f false 0 0 (exchange ((h.laneSize a n).getD 1) r.2.bytes)

/-! ### Requests in their order (R264, R279, R280) -/

/-- Whether a scheduled commit instant lies less than 32 ns ahead, so that no burst starts (R279). -/
def Hub.commitNear (h : Hub) : Bool :=
  h.get pSys SYS.COMMIT_STATE_STATE == 2 && (match h.scheduledFor h.now with
    | some t => decide (t ≤ h.now + 16)
    | none => true)

/-- Whether the bridge can take a request up now: no earlier write still waits for a word, and a write starts no burst just before a commit instant
(R264, R279). -/
def Hub.canServe (h : Hub) (r : BrgRequest) : Bool := h.servingRemote == [] && !(r.frame.hdr.type == 0x08 && h.commitNear)

/-- A request served, by its type. -/
def Hub.serveRequest (h : Hub) (r : BrgRequest) : Hub := if r.frame.hdr.type = 0x08 then h.serveWrite r.frame else h.serveRead r.frame r.uncorr

/-- The next request served, if it can be: the oldest Express request, and without one the oldest Bulk request (R264). -/
def Hub.serveNext (h : Hub) : Hub :=
  match h.brg.express, h.brg.bulk with
  | r :: rest, _ => if h.canServe r then (h.setBrg (fun b => { b with express := rest })).serveRequest r else h
  | [], r :: rest => if h.canServe r then (h.setBrg (fun b => { b with bulk := rest })).serveRequest r else h
  | [], [] => h

/-- Every request served that can be. Service takes no time of its own: R264 bounds it from above only (DESIGN CHOICE, log entry 23). -/
def Hub.serveAll (h : Hub) : Hub := (List.range (h.brg.express.length + h.brg.bulk.length)).foldl (fun g _ => g.serveNext) h

/-- A request delivered to the bridge: a fenced one discards it, an Express one may find no room, and the others are served in their order
(R263, R264, R280, R317). -/
def Hub.takeRequest (h : Hub) (r : BrgRequest) : Hub :=
  if h.fenced pBrg then h
  else if r.frame.cls = .bulk then (h.setBrg (fun b => { b with bulk := b.bulk ++ [r] })).serveAll
  else
    match h.expressFull r.frame with
    | some g => g.requestError r.frame (r.frame.hdr.type == 0x08) stBusy (addressOf r.frame)
    | none => (h.setBrg (fun b => { b with express := b.express ++ [r] })).serveAll

/-- REMOTE_WRITE: a remote write delivered to this node (R263, R264). -/
def execRemoteWrite (frame : Frame) (s : State) : Host.Outcome State Fault Refusal :=
  run s fun h => if frame.hdr.type = 0x08 then h.takeRequest { frame := frame } else h

/-- REMOTE_READ_REQUEST: a read request delivered to this node; `uncorr` is the offset of the first byte read at which memory has an uncorrectable
error (R261, R263, R264). -/
def execRemoteReadRequest (frame : Frame) (uncorr : Option Nat) (s : State) : Host.Outcome State Fault Refusal :=
  run s fun h => if frame.hdr.type = 0x09 then h.takeRequest { frame := frame, uncorr := uncorr } else h

/-- The local path applies this node's own broadcast writes here; a refusal is recorded as a target records it, and not answered (R257, R264). -/
def Hub.applyOwn (h : Hub) : Hub :=
  h.brg.own.foldl (fun g (e : Req × Frame) =>
    g.writeWords { frame := some e.2, addr := addressOf e.2 } e.1 (addressOf e.2) (2 ^ (e.2.field 5 1 % 4)) (e.2.payload.drop 8))
    (h.setBrg (fun b => { b with own := [] }))

/-- What the bridge does at an edge without a command: the requests that had to wait, and the broadcast writes for this node (R257, R264). -/
def Hub.bridgeEdge (h : Hub) : Hub := if h.brg.express = [] ∧ h.brg.bulk = [] ∧ h.brg.own = [] then h else h.serveAll.applyOwn

/-! ### Accesses by local requesters (R255, R257, R467, R536) -/

/-- An access to a ring address by a local requester. -/
structure BusAccess where
  origin : Origin := .none
  req : Req := .host
  ten : Nat := 0xF
  node : Nat := 0
  addr : Nat := 0
  bulk : Bool := false
  /-- The access width in bytes. -/
  width : Nat := 4
  qp : Option Nat := none
  pri : Nat := 0
deriving DecidableEq, Repr

/-- Whether a node number names this node (R255). -/
def Hub.isHere (h : Hub) (node : Nat) : Bool := node == 0 || (node == h.nodeId && node != 4095)

/-- The ACC code of a width (R259). -/
def accOf (width : Nat) : Nat := if width = 1 then 0 else if width = 2 then 1 else if width = 4 then 2 else 3

/-- Whether a fenced host port turns a request of the host's away: all but those to the SYS page (R487). -/
def Hub.portShut (h : Hub) (x : BusAccess) : Bool := x.req == .host && h.fenced pHost && !(h.isHere x.node && x.addr / 4096 == 0x40000)

/-- A write to a ring address: served locally, issued to the ring, or both for a broadcast, which the local path applies as it leaves (R255, R257). -/
def Hub.accessWrite (h : Hub) (x : BusAccess) (data : List Byte) : Hub :=
  if h.portShut x then h.complete x.origin true x.bulk x.node x.addr stBusy []
  else if h.isHere x.node then
    if data.length = 0 ∨ data.length % x.width ≠ 0 then h.complete x.origin true x.bulk x.node x.addr stBadReq []
    else h.writeWords { origin := x.origin, node := x.node, addr := x.addr, bulk := x.bulk } x.req x.addr x.width data
  else
    (h.issueRemote x.origin x.ten x.node false x.bulk x.addr (accOf x.width) 0 data x.qp x.pri).applyOwn

/-- A read of a ring address: served locally or issued to the ring. -/
def Hub.accessRead (h : Hub) (x : BusAccess) (len : Nat) : Hub :=
  if h.portShut x then h.complete x.origin false x.bulk x.node x.addr stBusy []
  else if h.isHere x.node then
    if len = 0 ∨ len % x.width ≠ 0 then h.complete x.origin false x.bulk x.node x.addr stBadReq []
    else
      let r := h.readWords x.req x.addr x.width (len / x.width)
      match r.2.fail with
      | some (st, b) => r.1.complete x.origin false x.bulk x.node b st []
      | none => r.1.complete x.origin false x.bulk x.node x.addr 0 r.2.bytes
  else h.issueRemote x.origin x.ten x.node true x.bulk x.addr (accOf x.width) len [] x.qp x.pri

/-- The tenant of a local requester's remote accesses (BRG.ISSUE, R258). -/
def Hub.issueTenant (h : Hub) : Req → Nat
  | .host => h.cfg pBrg BRG.ISSUE_HOST_TEN
  | .secure => h.cfg pBrg BRG.ISSUE_STW_TEN
  | .annex => h.cfg pBrg BRG.ISSUE_ANX_TEN
  | .tenant _ => 0xF

/-- The origin of a local requester's access number `n`. -/
def originOf (req : Req) (n : Nat) : Origin :=
  match req with
  | .host => .host n
  | .secure => .secure n
  | .annex => .annex n
  | .tenant _ => .none

/-- An aperture of a requester's remote window: its node, its class and the upper bits of its local addresses; none where it is disabled
or belongs to the other world (R467, R535, R536). -/
def Hub.aperture (h : Hub) (req : Req) (a : Nat) : Option (Nat × Bool × Nat) :=
  match req with
  | .host =>
    if h.cfgOn pHost (HOST.RWIN_EN a) then
      some (h.cfg pHost (HOST.RWIN_NODE a), h.cfgOn pHost (HOST.RWIN_CLS a), h.cfg pHost (HOST.RWIN_BASE a))
    else none
  | .tenant _ => none
  | r =>
    if h.on pStw (STW.RWIN_EN a) ∧ h.on pStw (STW.RWIN_ANX a) = (r == .annex) then
      some (h.get pStw (STW.RWIN_NODE a), h.on pStw (STW.RWIN_CLS a), h.get pStw (STW.RWIN_BASE a))
    else none

/-- An access through aperture `off` / 16 MiB of a requester's remote window, at its width. -/
def Hub.throughWindow (h : Hub) (req : Req) (n off width : Nat) : Option BusAccess :=
  (h.aperture req (off / 2 ^ 24 % 16)).map (fun w =>
    { origin := originOf req n, req := req, ten := h.issueTenant req, node := w.1, bulk := w.2.1, addr := w.2.2 * 2 ^ 24 + off % 2 ^ 24, width := width })

/-- Whether a local requester can make accesses: the firmware while the core runs, the Annex while it runs, the host with an interface. -/
def Hub.requesterUp (h : Hub) : Req → Bool
  | .host => h.hostServed
  | .secure => h.get pStw STW.STAT_CORE == 1 || h.get pStw STW.STAT_CORE == 2
  | .annex => h.annexState == 2
  | .tenant _ => false

/-- The class of a local requester's accesses that choose none: Bulk or not (BRG.ISSUE, R258). -/
def Hub.issueBulk (h : Hub) : Req → Bool
  | .host => h.cfgOn pBrg BRG.ISSUE_HOST_CLS
  | .secure => h.cfgOn pBrg BRG.ISSUE_STW_CLS
  | .annex => h.cfgOn pBrg BRG.ISSUE_ANX_CLS
  | .tenant _ => false

/-- The access that a local requester makes: through its remote window at the offset `addr`, or to a ring address given whole, in the class it
chose or its default. -/
def Hub.accessOf (h : Hub) (req : Req) (n : Nat) (window : Bool) (node : Nat) (bulk : Option Bool) (addr width : Nat) : Option BusAccess :=
  if window then h.throughWindow req n addr width
  else some { origin := originOf req n, req := req, ten := h.issueTenant req, node := node, bulk := bulk.getD (h.issueBulk req), addr := addr % 2 ^ 36,
              width := width }

/-- REMOTE_WRITE_ISSUE: access number `n` of a local requester writes a ring address, given whole or as an offset in its remote window;
`bulk` is the class it chooses, if it does, and `acc` the width as in R259 (R255 to R262, R536). -/
def execRemoteWriteIssue (req : Req) (n : Nat) (window : Bool) (node : Nat) (bulk : Option Bool) (addr acc : Nat) (data : List Byte)
    (s : State) : Host.Outcome State Fault Refusal :=
  run s fun h =>
    if !h.requesterUp req then h
    else
      match h.accessOf req n window node bulk addr (2 ^ (acc % 4)) with
      | some x => h.accessWrite x data
      | none => if req = .annex then h.annexFault else h.complete (originOf req n) true (bulk.getD (h.issueBulk req)) 0 addr stNoTarget []

/-- REMOTE_READ_ISSUE: access number `n` of a local requester reads `len` bytes of a ring address (R255 to R262, R265, R536). -/
def execRemoteReadIssue (req : Req) (n : Nat) (window : Bool) (node : Nat) (bulk : Option Bool) (addr acc len : Nat)
    (s : State) : Host.Outcome State Fault Refusal :=
  run s fun h =>
    if !h.requesterUp req then h
    else
      match h.accessOf req n window node bulk addr (2 ^ (acc % 4)) with
      | some x => h.accessRead x len
      | none => if req = .annex then h.annexFault else h.complete (originOf req n) false (bulk.getD (h.issueBulk req)) 0 addr stNoTarget []

/-! ### The host port (R465 to R470) -/

/-- The width at which one access of `n` bytes reaches the local map: a register page takes it only as one register access (R33, R466). -/
def Hub.accessWidth (h : Hub) (a n : Nat) : Nat :=
  let fits (w : Nat) : Bool := a % w == 0 && n % w == 0
  match h.regionOf a with
  | .page _ _ => max 1 n
  | .prism _ => if fits 4 then 4 else if fits 2 then 2 else 1
  | _ => if fits 8 then 8 else if fits 4 then 4 else if fits 2 then 2 else 1

/-- Where a host access goes: a local address, or the remote window at an offset; none outside every BAR (R465, R470). -/
inductive HostTarget where
  | map (a : Nat)
  | window (off : Nat)
  | none
deriving DecidableEq, Repr

/-- The target of an offset in a BAR (R465). -/
def barTarget (bar off : Nat) : HostTarget :=
  match bar with
  | 0 => if off < 2 ^ 24 then .map (0x40000000 + off) else .none
  | 2 => if off < 2 ^ 29 then .map (0x80000000 + off) else .none
  | 4 => if off < 2 ^ 28 then .window off else .none
  | _ => .none

/-- The local address that stands for an offset in a BAR; the offset itself where the BAR maps none (R465). -/
def barAddr (bar off : Nat) : Nat := (if bar = 0 then 0x40000000 else if bar = 2 then 0x80000000 else 0) + off

/-- The target of a QSPI address (R470). -/
def qspiTarget (a : Nat) : HostTarget :=
  if a < 0xE00000000 then .map a else if a < 0xE10000000 then .window (a - 0xE00000000) else .none

/-- A host access to a target; none where nothing takes it. -/
def Hub.hostAccess (h : Hub) (t : HostTarget) (n len : Nat) : Option BusAccess :=
  match t with
  | .map a => if (h.regionOf a).code = 0 then none else some { origin := .host n, req := .host, addr := a, width := h.accessWidth a len }
  | .window off =>
    (h.throughWindow .host n off 4).bind (fun x =>
      let w := h.accessWidth x.addr len
      if h.isHere x.node then some { x with width := w }
      else some { x with width := if x.addr % 8 = 0 ∧ len % 8 = 0 then 8 else if x.addr % 4 = 0 ∧ len % 4 = 0 then 4 else if x.addr % 2 = 0 ∧ len % 2 = 0 then 2 else 1 })
  | .none => none

/-- A write by the host; one that nothing takes is recorded with the address `a` (R466 to R470, R487). -/
def Hub.hostWrite (h : Hub) (t : HostTarget) (n a : Nat) (data : List Byte) : Hub :=
  match h.hostAccess t n data.length with
  | some x => h.accessWrite x data
  | none => h.complete (.host n) true false 0 a stNoTarget []

/-- A read by the host; one that nothing takes is recorded with the address `a`. -/
def Hub.hostRead (h : Hub) (t : HostTarget) (n a len : Nat) : Hub :=
  match h.hostAccess t n len with
  | some x => h.accessRead x len
  | none => h.complete (.host n) false false 0 a stNoTarget []

/-- Whether a memory request is one that a host can send: within the greatest length and inside one block of 4 KiB (R464, R466). -/
def tlpFits (off len most : Nat) : Bool := decide (0 < len) && decide (len ≤ most) && decide (off % 4096 + len ≤ 4096)

/-- PCIE_WRITE_TLP: memory write number `n`, at an offset of a BAR (R465 to R468). -/
def execPcieWriteTlp (n bar off : Nat) (data : List Byte) (s : State) : Host.Outcome State Fault Refusal :=
  run s fun h => if h.pcieServes && tlpFits off data.length 256 then h.hostWrite (barTarget bar off) n (barAddr bar off) data else h

/-- PCIE_READ_TLP: memory read request number `n`; its outcome is the completion, an error status standing for Completer Abort (R468). -/
def execPcieReadTlp (n bar off len : Nat) (s : State) : Host.Outcome State Fault Refusal :=
  run s fun h => if h.pcieServes && tlpFits off len 4096 then h.hostRead (barTarget bar off) n (barAddr bar off) len else h

/-- A QSPI write, performed when HQ_CS_N rises: one whose byte count differs from its length, or whose length is not 1 to 1,024, is discarded and
recorded with 0x0B (R470; the status of such a length is DEDUCED, log entry 24). -/
def Hub.qspiWrite (h : Hub) (n addr len : Nat) (data : List Byte) : Hub :=
  if h.qspiServes = false then h
  else if data.length ≠ len ∨ len = 0 ∨ 1024 < len then h.complete (.host n) true false 0 (addr % 2 ^ 36) stBadReq []
  else h.hostWrite (if addr < 2 ^ 36 then qspiTarget addr else .none) n (addr % 2 ^ 36) data

/-- QSPI read number `n` of `len` bytes is under way: the slave drives 0x00 (R470). -/
def Hub.awaits (h : Hub) (n len : Nat) : Hub := { h with host := { h.host with reading := some (n, len) } }

/-- A QSPI read: the slave drives 0x00 until the access is over, then the marker, the STATUS byte and the data; one that the host abandons before the
marker finishes unseen and is counted (R470). -/
def Hub.qspiRead (h : Hub) (n addr len : Nat) (abandoned : Bool) : Hub :=
  if h.qspiServes = false then h
  else if len = 0 ∨ 1024 < len then (if abandoned then h.inc pHost HOST.QSPI_ABANDON_COUNT else (h.awaits n len).complete (.host n) false false 0 (addr % 2 ^ 36) stBadReq [])
  else
    let t := if addr < 2 ^ 36 then qspiTarget addr else .none
    if abandoned then
      let g := (match h.hostAccess t n len with
        | some x => h.accessRead { x with origin := .none } len
        | none => h)
      g.inc pHost HOST.QSPI_ABANDON_COUNT
    else (h.awaits n len).hostRead t n (addr % 2 ^ 36) len

/-- QSPI_READ: command 0x0B, read number `n` of `len` bytes on one line. -/
def execQspiRead (n addr len : Nat) (abandoned : Bool) (s : State) : Host.Outcome State Fault Refusal :=
  run s fun h => h.qspiRead n addr len abandoned

/-- QSPI_QUAD_READ: command 0xEB, a read on four lines. -/
def execQspiQuadRead (n addr len : Nat) (abandoned : Bool) (s : State) : Host.Outcome State Fault Refusal :=
  run s fun h => h.qspiRead n addr len abandoned

/-- QSPI_WRITE: command 0x02, a write on one line; `data` are the bytes that followed the length. -/
def execQspiWrite (n addr len : Nat) (data : List Byte) (s : State) : Host.Outcome State Fault Refusal :=
  run s fun h => h.qspiWrite n addr len data

/-- QSPI_QUAD_WRITE: command 0x38, a write on four lines. -/
def execQspiQuadWrite (n addr len : Nat) (data : List Byte) (s : State) : Host.Outcome State Fault Refusal :=
  run s fun h => h.qspiWrite n addr len data

/-- HOST_IRQ_N is driven low: in QSPI operation while VPEND AND NOT VMASK is not zero (R471). -/
def Hub.hostIrqLow (h : Hub) : Bool :=
  let open_ (pend mask : Fld) : Bool := h.get pHost pend != (h.get pHost pend &&& h.get pHost mask)
  h.hostIf == 2 && (open_ HOST.VPEND_LO_PEND HOST.VMASK_LO_MASK || open_ HOST.VPEND_HI_PEND HOST.VMASK_HI_MASK)

/-! ### Descriptors (R473, R475) -/

/-- The access of a WRITE or READ descriptor. -/
def Hub.descAccess (h : Hub) (q : Nat) (d : Desc) : BusAccess :=
  { origin := .dma q d.idx, req := .host, ten := h.issueTenant .host, node := slice (d.word 2) 4 12, bulk := bitOf (d.word 0) 27,
    addr := d.word 1 % 2 ^ 32 + slice (d.word 2) 0 4 * 2 ^ 32, width := 2 ^ slice (d.word 0) 24 2, qp := some q, pri := h.get pHost (HOST.QP_CFG_PRI q) }

/-- Whether a descriptor keeps the size rules of R262. -/
def descOk (x : BusAccess) (len : Nat) : Bool := sizeOk x.bulk x.addr (accOf x.width) len

/-- DESCRIPTOR_WRITE: the buffer is written to the descriptor's ring address; the host memory read of the buffer has returned `buffer`. -/
def execDescriptorWrite (qp : Nat) (buffer : List Byte) (s : State) : Host.Outcome State Fault Refusal :=
  run s fun h =>
    match h.pendingDesc qp 1 with
    | none => h
    | some d =>
      let h := h.markIssued qp d.idx
      let x := h.descAccess qp d
      let len := d.word 0 % 65536
      if descOk x len then h.accessWrite x ((buffer ++ List.replicate len 0).take len)
      else h.descriptorDone qp d.idx stBadReq []

/-- DESCRIPTOR_READ: the descriptor's ring address is read; the data goes to host memory. -/
def execDescriptorRead (qp : Nat) (s : State) : Host.Outcome State Fault Refusal :=
  run s fun h =>
    match h.pendingDesc qp 2 with
    | none => h
    | some d =>
      let h := h.markIssued qp d.idx
      let x := h.descAccess qp d
      let len := d.word 0 % 65536
      if descOk x len then h.accessRead x len else h.descriptorDone qp d.idx stBadReq []

/-! ### The control path of the local Ethernet port (R454, R455) -/

/-- The bytes of a control request behind its Ethernet header and tag, with the tag. -/
def controlBody (e : List Byte) : List Byte × List Byte :=
  if (vlanOf e).1 then ((e.drop 12).take 4, e.drop 18) else ([], e.drop 14)

/-- A control request for this node: checked against the tenant's windows, then served (R311, R454). -/
def Hub.controlLocal (h : Hub) (x : BusAccess) (t : Nat) (read : Bool) (acc len : Nat) (data : List Byte) : Hub :=
  let st :=
    if !h.windowOpen t x.addr len read (!x.bulk) then stTenant
    else if !h.inMap x.addr len then stNoTarget
    else if sizeOk x.bulk x.addr acc len = false then stBadReq
    else 0
  if st ≠ 0 then h.complete x.origin (!read) x.bulk 0 x.addr st []
  else if read then h.accessRead { x with node := 0 } len
  else h.accessWrite { x with node := 0 } data

/-- CONTROL_REQUEST: a control request that the port dispatched, from its destination address through its last data byte; a port that no longer carries
control frames serves none (R447, R454). -/
def execControlRequest (bytes : List Byte) (s : State) : Host.Outcome State Fault Refusal :=
  run s fun h =>
    let t := h.cfg pEth ETH.CTRL_TEN
    let src := (bytes.drop 6).take 6
    if !h.etherRuns || h.mode == .cellar then h
    else if h.tenantOn t = false ∨ src ≠ macBytes (h.cfg pEth ETH.CTRL_MAC_HI) (h.cfg pEth ETH.CTRL_MAC_LO_ADDR) then h.inc pEth ETH.CTRL_REJ_COUNT
    else
      let tag := (controlBody bytes).1
      let b := (controlBody bytes).2
      let f (o n : Nat) : Nat := leNat ((b.drop o).take n)
      let bulk := f 2 1 % 2 == 1
      let read := f 10 1 % 2 == 1
      let acc := f 11 1 % 4
      let len := if read then f 12 2 else b.length - 16
      let x : BusAccess := { origin := .control (f 0 2) src tag, req := .tenant t, ten := t, node := f 4 6 / 2 ^ 36, addr := f 4 6 % 2 ^ 36, bulk := bulk, width := 2 ^ acc }
      if read ∧ h.cfg pEth ETH.CFG_MAX_LEN < len + 26 + tag.length then h.complete x.origin false bulk x.node x.addr stBadReq []
      else if h.isHere x.node then h.controlLocal x t read acc len (b.drop 16)
      else if read then h.accessRead x len
      else h.accessWrite x (b.drop 16)

end Sys2Proof.Machine
end

