-- ==== Sys2Proof/Machine/Validator.lean ====
section
/-!
DEFINITION. The validator: the checks that the chapters lay down for a commit, and the seal (R51, R57 to R60). A check looks at the
snapshot `g`: a hub whose committed values are the staged ones. A failing check is an offset of its page and a refusal code.
Where the manual is open: DEDUCED, log entries 8 and 36.
-/
namespace Sys2Proof.Machine

open Reg

/-- A failing check: the register's offset and the code of R60. -/
abbrev Check := Nat × Nat

/-- A check at an offset. -/
def must (ok : Bool) (off code : Nat) : List Check := if ok then [] else [(off, code)]

/-- A check that a number lies in a range. -/
def within (v lo hi : Nat) : Bool := decide (lo ≤ v) && decide (v ≤ hi)

/-- A field within its defined range (code 0x0201). -/
def Hub.inRange (g : Hub) (p : Nat) (f : Fld) (lo hi : Nat) : List Check := must (within (g.cfg p f) lo hi) f.off 0x0201

/-- An expert field within its hard limits where USE is 1 (R47, code 0x0203). -/
def Hub.inLimits (g : Hub) (p : Nat) (use f : Fld) (lo hi : Nat) : List Check :=
  must (!g.cfgOn p use || within (g.cfg p f) lo hi) f.off 0x0203

/-- A signed expert field of `w` bits whose magnitude has a hard limit (code 0x0203). -/
def Hub.signedLimits (g : Hub) (p : Nat) (use f : Fld) (lim : Nat) : List Check :=
  must (!g.cfgOn p use || decide ((toSigned f.w (g.cfg p f)).natAbs ≤ lim)) f.off 0x0203

/-- Whether a page is enabled. -/
def Hub.enabled (g : Hub) (p : Nat) : Bool := g.cfgOn p PG.CTRL_EN

/-- Whether a tenant number has an enabled TEN page. -/
def Hub.tenEnabled (g : Hub) (t : Nat) : Bool := decide (t < 8) && g.enabled (pTen t)

/-- Whether a TEN value is the hub's own or an enabled tenant's. -/
def Hub.tenAllowed (g : Hub) (t : Nat) : Bool := t == 15 || g.tenEnabled t

/-- Checks of every number below a bound. -/
def forAll (n : Nat) (f : Nat → List Check) : List Check := (List.range n).flatMap f

/-- Checks of every pair of numbers below a bound. -/
def forPairs (n : Nat) (f : Nat → Nat → List Check) : List Check := forAll n (fun j => forAll j (fun i => f i j))

/-! ### Every page: its owner and its fault classes (R39, R41, R517) -/

/-- The sources that may not be corrected (R517). -/
def notCorrected : Kind → List Nat
  | .stw => [4] | .zone => [3] | .topo => [3] | .trk => [4] | .atr => [3] | .brg => [0, 2] | .qos => [0] | .ch => [3]
  | .prs => [2, 4] | .can => [4] | .eth => [2] | .host => [3] | .mbx => [1]
  | _ => []

/-- The sources that are always fatal (R517). -/
def fatalOnly : Kind → List Nat
  | .sys => [0, 1] | .lc => [1] | .flt => [0, 1] | .therm => [1]
  | _ => []

/-- Whether a class is permitted for a source (R39, R517). -/
def classAllowed (k : Kind) (src cls : Nat) : Bool :=
  cls != 3 && (!(fatalOnly k).contains src || cls == 2)
    && (!(k == .sys || k == .lc) || decide (sourceCount k ≤ src) || cls != 1) && (!(notCorrected k).contains src || cls != 0)

/-- The common checks of a page. -/
def Hub.checkPage (g : Hub) (k : Kind) (p : Nat) : List Check :=
  let o := g.cfg p PG.CTRL_OWNER
  must (if o < 8 then g.tenEnabled o else !(within o 0xB 0xD)) 0x008 0x0603 ++
  must ((List.range 16).all (fun b => classAllowed k b (slice (g.cfg p PG.FLT_CLASS) (2 * b) 2))) 0x020 0x0204

/-! ### System, ring, time -/

/-- SYS (R83). -/
def Hub.checkSys (g : Hub) : List Check :=
  let tracks := (List.range 16).any (fun k => g.followed k)
  must (g.cfgOn pSys SYS.MODE_CFG_NEED_TIME || !(g.enabled pAtr || tracks)) 0x08C 0x0201 ++
  must (!g.cfgOn pSys SYS.MODE_CFG_NEED_EPOCH || g.enabled pAtr) 0x08C 0x0201 ++
  must (g.cfg pSys SYS.MODE_CFG_LOCK_SAMPLES != 0) 0x08C 0x0201

/-- RPORT (R137 to R140). -/
def Hub.checkRport (g : Hub) (p : Nat) : List Check :=
  g.inRange p RPORT.CFG_RATE 0 3 ++ g.inRange p RPORT.CFG_BULK_HOLD 1 200 ++
  must (!g.cfgOn p RPORT.TX_EQ_USE || decide (g.cfg p RPORT.TX_EQ_PRE + g.cfg p RPORT.TX_EQ_MAIN + g.cfg p RPORT.TX_EQ_POST ≤ 63))
    0x400 0x0203 ++
  g.inLimits p RPORT.AUTO_DWELL_USE RPORT.AUTO_DWELL_DWELL 50 1000

/-- TOPO (R167, R168). -/
def Hub.checkTopo (g : Hub) : List Check :=
  let p := pTopo
  let arr := g.cfg p TOPO.PLAN_ARR_BOUND
  let id := g.cfg p TOPO.CFG_NODE_ID
  must (g.enabled p) 0x008 0x0201 ++
  g.inRange p TOPO.CFG_ANN_INT 1 100 ++
  must (!g.cfgOn p TOPO.CFG_ID_MODE || within id 1 4094) 0x040 0x0901 ++
  g.inRange p TOPO.TIMERS_LINK_STABLE 1 255 ++ g.inRange p TOPO.TIMERS_HEAL_DELAY 2 100 ++ g.inRange p TOPO.TIMERS_STEER_HOLD 0 100 ++
  must (decide (arr ≤ g.cfg p TOPO.TIMERS_HEAL_DELAY * 10000)) 0x044 0x0201 ++
  must (decide (40 ≤ arr)) 0x0B0 0x0201 ++
  g.inLimits p TOPO.KA_TIMING_USE TOPO.KA_TIMING_LOSS 5 100 ++ g.inLimits p TOPO.KA_TIMING_USE TOPO.KA_TIMING_INTERVAL 2 40 ++
  must (!g.cfgOn p TOPO.KA_TIMING_USE || decide (3 * g.cfg p TOPO.KA_TIMING_INTERVAL ≤ 2 * g.cfg p TOPO.KA_TIMING_LOSS)) 0x400 0x0203

/-- TIME (R196, R197); the sync interval in units of 100 ns is 312.5 × 2^code. -/
def Hub.checkTime (g : Hub) : List Check :=
  let p := pTime
  let sync := g.cfg p TIME.CFG_SYNC_INT
  let prio := g.cfg p TIME.CFG_PRIO
  let hold := g.cfg p TIME.CFG_HOLD_VALID
  must (g.enabled p) 0x008 0x0201 ++
  g.inRange p TIME.CFG_SYNC_INT 0 5 ++ g.inRange p TIME.CFG_HOLD_VALID 1 255 ++
  must (prio == 0 || decide (2500 * 2 ^ sync + 200 * prio + g.cfg pTopo TOPO.PLAN_ARR_BOUND ≤ hold * 10000)) 0x040 0x0201 ++
  g.inLimits p TIME.SERVO_USE TIME.SERVO_KP 1 64 ++ g.inLimits p TIME.SERVO_USE TIME.SERVO_KI 1 64 ++
  g.inLimits p TIME.SERVO_USE TIME.SERVO_SLEW 1 150 ++
  g.inLimits p TIME.LOCK_USE TIME.LOCK_LOCK_COUNT 2 64 ++ g.inLimits p TIME.LOCK_USE TIME.LOCK_LOCK_THRESH 20 1000 ++
  g.inLimits p TIME.STEP_THRESH_USE TIME.STEP_THRESH_US 2 1000

/-! ### Tracks (R199, R213, R227, R228, R384) -/

/-- The half period of an SPI controller's clock in units of 2 ns, in effect under a configuration (R379, R392). -/
def Hub.halfPeriod (g : Hub) (p : Nat) : Nat :=
  g.expert p SPI.TIMING_USE SPI.TIMING_HALF ((250000 + g.cfg p SPI.CLK_FREQ - 1) / g.cfg p SPI.CLK_FREQ)

/-- Whether the read of an SSI encoder fits its sample period (R384); T is two half periods. -/
def Hub.ssiFits (g : Hub) (k : Nat) : Bool :=
  let q := pSpi (g.cfg (pTrk k) TRK.SRC_CFG_SPI)
  let n := g.cfg (pTrk k) TRK.SRC_CFG_SSI_BITS + g.cfg q SPI.SSI_PAR
  decide ((n + 1) * (4 * g.halfPeriod q) + 1000 * g.cfg q SPI.SSI_TM ≤ 31250 * 2 ^ g.cfg (pTrk k) TRK.SRC_CFG_RATE)

/-- Whether the speed points of a profile rise strictly within its first NPTS entries (R213). -/
def Hub.speedsRise (g : Hub) (p q : Nat) : Bool :=
  (List.range (min 8 (g.cfg p (TRK.PROF_CFG_NPTS q)) - 1)).all (fun i =>
    decide (g.cfg p (TRK.LEAD_TAB_SPEED (8 * q + i)) < g.cfg p (TRK.LEAD_TAB_SPEED (8 * q + i + 1))))

/-- The offset of the first speed point of a profile that does not rise. -/
def Hub.flatSpeed (g : Hub) (p q : Nat) : Nat :=
  match (List.range 7).find? (fun i =>
    decide (g.cfg p (TRK.LEAD_TAB_SPEED (8 * q + i + 1)) ≤ g.cfg p (TRK.LEAD_TAB_SPEED (8 * q + i)))) with
  | some i => 0x140 + 4 * (8 * q + i + 1)
  | none => 0x140 + 32 * q

/-- TRK. -/
def Hub.checkTrk (g : Hub) (k : Nat) : List Check :=
  let p := pTrk k
  let type := g.cfg p TRK.SRC_CFG_TYPE
  let source := g.cfg p TRK.CFG_ROLE == 1
  let qch := g.cfg p TRK.SRC_CFG_QCH
  must (!g.followed k || decide (((List.range k).filter (fun j => g.followed j)).length < 4)) 0x008 0x0501 ++
  g.inRange p TRK.CFG_ROLE 0 1 ++
  must (!(source && type == 0)) 0x040 0x0201 ++
  g.inRange p TRK.LIMITS_AGE_LIM 1 10000 ++
  must (decide (g.cfg p TRK.LIMITS_AGE_LIM ≤ g.cfg p TRK.LIMITS_AGE_LIM2)) 0x044 0x0201 ++
  g.inRange p TRK.CONV_ACC_HOR 1 255 ++
  g.inRange p TRK.SRC_CFG_TYPE 0 2 ++ g.inRange p TRK.SRC_CFG_SSI_BITS 8 32 ++ g.inRange p TRK.SRC_CFG_RATE 0 5 ++
  g.inRange p TRK.SRC_CFG_VEL_WIN 1 64 ++
  must (type != 1 || (qch % 2 == 0 && g.chMode qch == 3 && g.chMode (qch + 1) == 3)) 0x04C 0x0201 ++
  must (type != 2 || g.cfg (pSpi (g.cfg p TRK.SRC_CFG_SPI)) SPI.CLK_ROLE == 2) 0x04C 0x0201 ++
  must (!(g.followed k && source && type == 2) || g.ssiFits k) 0x04C 0x0201 ++
  forAll 4 (fun q =>
    g.inRange p (TRK.LEAD_TIME_TICKS q) 0 50000000 ++
    g.inRange p (TRK.PROF_CFG_NPTS q) 1 8 ++ g.inRange p (TRK.PROF_CFG_FB_WIN q) 1 255 ++
    must (!g.cfgOn p (TRK.PROF_CFG_FB_EN q) || g.chMode (g.cfg p (TRK.PROF_CFG_FB_CH q)) == 0) (0x110 + 4 * q) 0x0201 ++
    must (g.speedsRise p q) (g.flatSpeed p q) 0x0503) ++
  g.inLimits p TRK.SSI_LAT_USE TRK.SSI_LAT_NS 0 50000 ++ g.inLimits p TRK.ESTIM_USE TRK.ESTIM_ORDER 1 2

/-! ### The Atrium (R246, R250, R254) -/

/-- The number of instances and the bytes of a publish map's source kind (R233). -/
def pubKind (k : Nat) : Nat × Nat :=
  [(1, 0), (16, 1), (16, 1), (128, 4), (128, 8), (4, 8), (4, 8), (32, 4), (1, 8)].getD k (0, 0)

/-- The bytes that a publish map entry takes in the slot: the first and the one past the last; none where it is off. -/
def Hub.pubSpan (g : Hub) (i : Nat) : Option (Nat × Nat) :=
  let w := (pubKind (g.cfg pAtr (ATR.PUB_MAP_KIND i))).2
  if w = 0 then none else some (g.cfg pAtr (ATR.PUB_MAP_DEST i), g.cfg pAtr (ATR.PUB_MAP_DEST i) + w)

/-- Whether two spans share a place. -/
def spansMeet (a b : Nat × Nat) : Bool := decide (a.1 < b.2) && decide (b.1 < a.2)

/-- The publish map. -/
def Hub.checkPub (g : Hub) : List Check :=
  forAll 32 (fun i =>
    let k := g.cfg pAtr (ATR.PUB_MAP_KIND i)
    must (decide (k ≤ 8)) (0x080 + 4 * i) 0x0201 ++
    must (k == 0 || decide (8 < k) || decide (g.cfg pAtr (ATR.PUB_MAP_INDEX i) < (pubKind k).1)) (0x080 + 4 * i) 0x0201 ++
    (match g.pubSpan i with
     | none => []
     | some a => must (decide (a.2 ≤ g.cfg pAtr ATR.CFG_SLOT_LEN)) (0x080 + 4 * i) 0x0201)) ++
  forPairs 32 (fun i j =>
    match g.pubSpan i, g.pubSpan j with
    | some a, some b => must (!spansMeet a b) (0x080 + 4 * j) 0x0201
    | _, _ => [])

/-- Whether a window of the Atrium is enabled. -/
def Hub.winOn (g : Hub) (w : Nat) : Bool := g.cfgOn pAtr (ATR.WIN_CTL_EN w)

/-- A window of a configuration. -/
def Hub.atrWin (g : Hub) (w : Nat) : AtrWin :=
  { first := g.cfg pAtr (ATR.WIN_NODES_FIRST w)
    last := g.cfg pAtr (ATR.WIN_NODES_LAST w)
    ofs := g.cfg pAtr (ATR.WIN_PART_OFS w)
    len := g.cfg pAtr (ATR.WIN_PART_LEN w)
    dest := g.cfg pAtr (ATR.WIN_DEST_OFS w)
    tag := g.cfg pAtr (ATR.WIN_CTL_TAG w)
    defOk := g.cfgOn pAtr (ATR.WIN_CTL_DEF_OK w) }

/-- The subscription windows; the sum of their sizes is judged at the first window that goes beyond it. -/
def Hub.checkWindows (g : Hub) : List Check :=
  forAll 16 (fun w =>
    let x := g.atrWin w
    let o := 0x100 + 0x10 * w
    let before := (((List.range w).filter (fun v => g.winOn v)).map (fun v => (g.atrWin v).size)).foldl (fun a b => a + b) 0
    if !g.winOn w then []
    else
      must (decide (1 ≤ x.first) && decide (x.first ≤ x.last) && decide (x.last ≤ 4094)) o 0x0201 ++
      must (x.ofs % 8 == 0 && x.len % 8 == 0) (o + 4) 0x0201 ++ must (within x.len 8 1024) (o + 4) 0x0201 ++
      must (x.dest % 8 == 0) (o + 8) 0x0201 ++
      must (decide (before + x.size ≤ 0x200000) && decide (x.dest + x.size ≤ 0x200000)) (o + 8) 0x0402) ++
  forPairs 16 (fun v w =>
    let a := g.atrWin v
    let b := g.atrWin w
    if !g.winOn v || !g.winOn w then []
    else
      must (!spansMeet (a.dest, a.dest + a.size) (b.dest, b.dest + b.size)) (0x108 + 0x10 * w) 0x0201 ++
      must (decide (a.last < b.first) || decide (b.last < a.first) || (a.tag == b.tag && a.defOk == b.defOk)) (0x10C + 0x10 * w) 0x0201)

/-- Whether any pin field claims a channel. -/
def Hub.claimedAny (g : Hub) (c : Nat) : Bool := (g.claim c).isSome

/-- The channels driven from the image. -/
def Hub.checkOuts (g : Hub) : List Check :=
  forAll 128 (fun c =>
    let bit := g.cfg pAtr (ATR.OUT_BIT c)
    let pwm := g.cfgOn pAtr (ATR.OUT_PWM c)
    let o := 0x200 + 4 * c
    if !g.cfgOn pAtr (ATR.OUT_EN c) then []
    else
      must (g.cfg pAtr (ATR.OUT_POLICY c) != 3) o 0x0201 ++
      must ((windowsOf g.committed).any (fun w => w.holds (bit / 8))) o 0x0201 ++
      must (!pwm || bit % 8 == 0) o 0x0201 ++
      must ((g.chMode c == 1 || (pwm && g.chMode c == 2)) && !g.claimedAny c) o 0x0201)

/-- ATR. -/
def Hub.checkAtr (g : Hub) : List Check :=
  let p := pAtr
  let cycle := g.cfg p ATR.CFG_CYCLE
  let arr := g.cfg p ATR.PLAN_ARR_BOUND
  let ofs := g.cfg p ATR.CLOSE_OFS
  let len := g.cfg p ATR.CFG_SLOT_LEN
  let on := g.enabled p
  must (!on || (within cycle 25 10000 && decide (arr + 220 ≤ cycle * 10))) 0x040 0x0401 ++
  must (within len 16 1024) 0x040 0x0403 ++ must (len % 8 == 0) 0x040 0x0201 ++
  must (!on || (decide (arr ≤ ofs) && decide (ofs + 2 ≤ cycle * 10))) 0x044 0x0401 ++
  g.inRange p ATR.CLOSE_STALE_MAX 1 255 ++
  must (!on || (decide (40 ≤ arr) && decide (g.cfg p ATR.PLAN_LOAD ≤ 600))) 0x048 0x0401 ++
  g.checkPub ++ g.checkWindows ++ g.checkOuts

/-! ### The bridge (R270, R273 to R278, R282) -/

/-- Whether a range of 4 KiB pages is not empty and lies within the local map. -/
def pageRangeOk (base pages : Nat) : Bool := within pages 1 524288 && decide (base + pages ≤ 0x1000000)

/-- A window of the bridge: its first page and the one past its last. -/
def Hub.brgSpan (g : Hub) (w : Nat) : Nat × Nat :=
  (g.cfg pBrg (BRG.WIN_BASE_BASE w), g.cfg pBrg (BRG.WIN_BASE_BASE w) + g.cfg pBrg (BRG.WIN_CTL_PAGES w))

/-- The bridge windows. -/
def Hub.checkBrgWindows (g : Hub) : List Check :=
  let on (w : Nat) : Bool := g.cfgOn pBrg (BRG.WIN_CTL_EN w)
  forAll 16 (fun w =>
    let x := g.brgSpan w
    let o := 0x104 + 8 * w
    if !on w then []
    else
      must (decide (g.cfg pBrg (BRG.WIN_CTL_RULE w) ≤ 1)) o 0x0201 ++ must (decide (g.cfg pBrg (BRG.WIN_CTL_ELEM w) ≤ 2)) o 0x0201 ++
      must (pageRangeOk x.1 (x.2 - x.1)) o 0x0201 ++ must (!spansMeet x (0x40000, 0x41000)) (o - 4) 0x0201) ++
  forPairs 16 (fun v w => must (!(on v && on w && spansMeet (g.brgSpan v) (g.brgSpan w))) (0x100 + 8 * w) 0x0701)

/-- Whether an enabled route entry is well formed (R276). -/
def Hub.routeOk (g : Hub) (e : Nat) : Bool :=
  let w0 := g.routeWord e 0
  let w1 := g.routeWord e 1
  let w2 := g.routeWord e 2
  let w3 := g.routeWord e 3
  let out := !bitOf w0 30
  decide (slice w0 28 2 ≤ 1) && slice w0 22 2 != 3 && (slice w0 28 2 != 0 || decide (slice w0 24 4 < 4)) && (!out || slice w0 0 12 != 0)
    && slice w1 29 2 == 0 && slice w2 29 3 == 0 && slice w3 0 16 == 0

/-- Whether two enabled route entries hold one identifier twice (R282). -/
def Hub.routesClash (g : Hub) (a b : Nat) : Bool :=
  let x := g.routeWord a
  let y := g.routeWord b
  if bitOf (x 0) 30 != bitOf (y 0) 30 then false
  else if bitOf (x 0) 30 then
    let m := slice (x 0) 0 12
    let n := slice (y 0) 0 12
    slice (x 3) 16 16 == slice (y 3) 16 16 && slice (x 0) 16 3 == slice (y 0) 16 3 && (m == 0 || n == 0 || m == n)
  else
    slice (x 0) 24 6 == slice (y 0) 24 6 && bitOf (x 1) 31 == bitOf (y 1) 31 && slice (x 1) 0 29 == slice (y 1) 0 29
      && slice (x 2) 0 29 == slice (y 2) 0 29

/-- The route table; its entries are judged at the window onto it. -/
def Hub.checkRoutes (g : Hub) : List Check :=
  let on := (List.range 512).filter (fun e => bitOf (g.routeWord e 0) 31)
  on.flatMap (fun e => must (g.routeOk e) 0x054 0x0201) ++
  on.flatMap (fun e => (on.filter (fun d => decide (d < e))).flatMap (fun d => must (!g.routesClash d e) 0x054 0x0702))

/-- The check of R278 over the route table. -/
def Hub.routeSum (g : Hub) : Nat :=
  crc32c ((List.range 512).flatMap (fun e => (List.range 4).flatMap (fun j => leBytes 4 (g.routeWord e j))))

/-- BRG. -/
def Hub.checkBrg (g : Hub) : List Check :=
  let p := pBrg
  g.inRange p BRG.CFG_RD_TO 1 255 ++ g.inRange p BRG.CFG_IRQ_HOLD 1 255 ++
  [BRG.ISSUE_HOST_TEN, BRG.ISSUE_STW_TEN, BRG.ISSUE_ANX_TEN].flatMap (fun f => must (g.tenAllowed (g.cfg p f)) 0x044 0x0201) ++
  must (g.routeSum == g.cfg p BRG.RT_SUM_CRC) 0x04C 0x0201 ++
  g.checkRoutes ++ g.checkBrgWindows ++
  forAll 32 (fun i =>
    if !g.cfgOn p (BRG.IRQ_OUT_DEST_EN i) then []
    else
      must (g.cfg p (BRG.IRQ_OUT_DEST_DST i) != 0) (0x200 + 8 * i) 0x0201 ++
      must (g.cfgOn p (BRG.IRQ_OUT_SRC_SW i) || usedPage (g.cfg p (BRG.IRQ_OUT_SRC_PAGE i))) (0x204 + 8 * i) 0x0201) ++
  forAll 64 (fun v =>
    let sink := g.cfg p (BRG.IRQ_IN_SINK v)
    if !g.cfgOn p (BRG.IRQ_IN_EN v) then []
    else
      must (sink != 3) (0x300 + 4 * v) 0x0201 ++
      must (sink == 0 || sink == 3 || decide (g.cfg p (BRG.IRQ_IN_INDEX v) < 32)) (0x300 + 4 * v) 0x0201)

/-! ### The switch core, its queues and the DRAM (R307 to R309) -/

/-- A Periscope session. -/
def Hub.checkSession (g : Hub) (s : Nat) : List Check :=
  let p := pSw
  let o := 0x070 + 0x10 * s
  let kind := g.cfg p (SW.SES_CFG_KIND s)
  let remote := g.cfgOn p (SW.SES_CFG_OUT s)
  if !g.cfgOn p (SW.SES_CFG_EN s) then []
  else
    must (kind != 3) o 0x0201 ++ must (g.cfg p (SW.SES_CFG_DIR s) != 0) o 0x0201 ++
    must (kind == 1 || kind == 3 || g.cfg p (SW.SES_CFG_CLASSES s) != 0) o 0x0201 ++
    must (kind != 2 || decide (2 ≤ g.cfg p (SW.SES_CFG_ARG s))) o 0x0201 ++
    must (!remote || g.tenAllowed (g.cfg p (SW.SES_CFG_TEN s))) o 0x0201 ++ must (remote || g.enabled pEth) o 0x0201 ++
    must (within (g.cfg p (SW.SES_DEST_SNAP s)) 64 9584) (o + 4) 0x0201 ++
    must (!remote || within (g.cfg p (SW.SES_DEST_NODE s)) 1 4094) (o + 4) 0x0201

/-- SW. -/
def Hub.checkSw (g : Hub) : List Check :=
  let p := pSw
  let res := g.cfg p SW.BUF_XT_RES
  let bulk := g.cfg p SW.BULK_BULK_PORT_MAX
  let rot := g.cfg p SW.LENS_CFG_ROT_INT
  let age := g.cfg p SW.LENS_CFG_PIN_AGE
  must (decide (8 * g.cfg p SW.BUF_XT_PORT_MAX ≤ res)) 0x040 0x0201 ++ must (decide (res ≤ 16384)) 0x040 0x0201 ++
  must (decide (bulk + res ≤ 49152)) 0x044 0x0201 ++ must (decide (g.cfg p SW.BULK_OVF_THR ≤ bulk)) 0x044 0x0201 ++
  must (g.cfg p SW.LENS_CFG_DIR_MODE != 3) 0x048 0x0201 ++ must (within rot 1 1440) 0x048 0x0201 ++
  must (decide (1 ≤ age)) 0x048 0x0201 ++ must (decide (age < 180 * rot)) 0x048 0x0201 ++
  g.inRange p SW.LENS_CFG_REPIN_GAP 1 255 ++
  must (!g.cfgOn p SW.PSC_RX_EN || g.enabled pEth) 0x064 0x0201 ++
  forAll 4 (fun s => g.checkSession s) ++ g.inLimits p SW.MATCH_USE SW.MATCH_ITER 1 3

/-- The check of R307 over the classifier and meter tables. -/
def Hub.tableSum (g : Hub) : Nat :=
  let c (f : Fld) : Nat := g.cfg pQos f
  crc32c ((List.range 288).flatMap (fun e => leBytes 4 (c (clsMen e) * 2 ^ 31 + c (clsMeter e) * 2 ^ 12 + c (clsQueue e)))
    ++ (List.range 256).flatMap (fun m =>
      leBytes 4 (c (mtrCir m)) ++ leBytes 4 (c (mtrPir m)) ++ leBytes 4 (c (mtrPbs m) * 2 ^ 16 + c (mtrCbs m))))

/-- The meters that an entry with MEN = 1 names. -/
def Hub.namedMeters (g : Hub) : List Nat :=
  ((List.range 288).filter (fun e => g.cfgOn pQos (clsMen e))).map (fun e => g.cfg pQos (clsMeter e))

/-- QOS; a meter is judged at the window onto its rates, or onto its bucket sizes. -/
def Hub.checkQos (g : Hub) : List Check :=
  let p := pQos
  let named := g.namedMeters
  let used := (List.range 256).filter (fun m => named.contains m)
  used.flatMap (fun m =>
    must (decide (g.cfg p (mtrCir m) ≤ g.cfg p (mtrPir m))) 0x04C 0x0201 ++
    must (decide (151 ≤ g.cfg p (mtrCbs m)) && decide (151 ≤ g.cfg p (mtrPbs m))) 0x054 0x0201) ++
  must (g.tableSum == g.cfg p QOS.TBL_SUM_CRC) 0x064 0x0201 ++
  must (g.cfg p QOS.RED_WQ_WQ != 0) 0x068 0x0201 ++
  forAll 3 (fun i => must (decide (g.cfg p (QOS.RED_MIN_MIN i) ≤ g.cfg p (QOS.RED_MAX_MAX i))) (0x070 + 0x10 * i) 0x0201) ++
  forAll 16 (fun i => must (g.cfgOn p (QOS.QW_SP i) || g.cfg p (QOS.QW_QUANT i) != 0) (0x0B0 + 4 * i) 0x0201) ++
  forAll 16 (fun i => must (g.cfg p (QOS.QLIM_CELLS i) != 0) (0x100 + 4 * i) 0x0201)

/-- DRAM. -/
def Hub.checkDram (g : Hub) : List Check :=
  let p := pDram
  let ovf := g.cfg p DRAM.CFG_OVF_SIZE
  must (g.cfg p DRAM.CFG_SPEED != 3) 0x040 0x0201 ++ must (within ovf 16 2048) 0x040 0x0201 ++
  must (decide (ovf ≤ 256 * 2 ^ g.cfg p DRAM.CFG_SIZE)) 0x040 0x0201 ++
  g.inLimits p DRAM.VREF_USE DRAM.VREF_CA 0 50 ++ g.inLimits p DRAM.VREF_USE DRAM.VREF_DQ 0 50

/-! ### Tenants (R313, R319, R326) -/

/-- A tenant window: its first page and the one past its last; none where the window is off. -/
def Hub.tenSpan (g : Hub) (t w : Nat) : Option (Nat × Nat) :=
  if g.cfgOn (pTen t) (TEN.WIN_CTL_EN w) then
    some (g.cfg (pTen t) (TEN.WIN_BASE_BASE w), g.cfg (pTen t) (TEN.WIN_BASE_BASE w) + g.cfg (pTen t) (TEN.WIN_CTL_PAGES w))
  else none

/-- How many pages two spans share. -/
def shared (a b : Nat × Nat) : Nat := min a.2 b.2 - max a.1 b.1

/-- Whether two spans share a page outside the register pages and the Atrium region (R313). -/
def meetOutside (a b : Nat × Nat) : Bool :=
  let x := (max a.1 b.1, min a.2 b.2)
  decide (shared x (0x40000, 0x41000) + shared x (0x80000, 0x80311) < shared a b)

/-- Whether write-enabled windows of two enabled tenants clash. -/
def Hub.writersMeet (g : Hub) (t w u v : Nat) : Bool :=
  match g.tenSpan t w, g.tenSpan u v with
  | some a, some b => g.enabled (pTen t) && g.enabled (pTen u) && g.cfgOn (pTen t) (TEN.WIN_CTL_WR w) && g.cfgOn (pTen u) (TEN.WIN_CTL_WR v) && meetOutside a b
  | _, _ => false

/-- A sum over the enabled tenants up to one. -/
def Hub.tenSum (g : Hub) (f : Fld) (t : Nat) : Nat :=
  (((List.range (t + 1)).filter (fun u => g.tenEnabled u)).map (fun u => g.cfg (pTen u) f)).foldl (fun a b => a + b) 0

/-- The data rate of the ring ports in units of 100 kbit/s (R319). -/
def Hub.portUnits (g : Hub) : Nat :=
  match g.cfg (pRport 0) RPORT.CFG_RATE with
  | 2 => 25000
  | 3 => 10000
  | _ => 100000

/-- What ENFORCE asks of the classifier and the tenant's meter (R319). -/
def Hub.enforceOk (g : Hub) (t : Nat) : Bool :=
  let m := g.cfg (pTen t) TEN.BULK_METER
  ((List.range 6).all (fun i => (List.range 4).all (fun c =>
    let e := (i + 2) * 36 + 4 * t + c
    g.cfgOn pQos (clsMen e) && g.cfg pQos (clsMeter e) == m)))
    && decide (g.cfg pQos (mtrCir m) * 100 ≤ g.cfg (pTen t) TEN.BULK_SHARE * g.portUnits)

/-- TEN; a sum over tenants is judged at each tenant that takes it beyond its limit, a clash of windows at the later window. -/
def Hub.checkTen (g : Hub) (t : Nat) : List Check :=
  let p := pTen t
  let on := g.enabled p
  g.inRange p TEN.SLOTS_XREQ 0 64 ++ g.inRange p TEN.SLOTS_TAGS 0 256 ++
  must (decide (g.cfg p TEN.BULK_SHARE ≤ 100)) 0x048 0x0201 ++
  must (!g.cfgOn p TEN.BULK_ENFORCE || g.enforceOk t) 0x048 0x0201 ++
  (if !on then []
   else
    must (decide (1120 ≤ g.cfg p TEN.XBUDGET_BYTES)) 0x040 0x0201 ++
    must (decide (g.tenSum TEN.SLOTS_XREQ t ≤ 64)) 0x044 0x0201 ++ must (decide (g.tenSum TEN.SLOTS_TAGS t ≤ 256)) 0x044 0x0201 ++
    must (decide (g.tenSum TEN.BULK_SHARE t ≤ 100)) 0x048 0x0602) ++
  forAll 8 (fun w =>
    match g.tenSpan t w with
    | none => []
    | some a =>
      must (pageRangeOk a.1 (a.2 - a.1)) (0x084 + 8 * w) 0x0201 ++
      must (g.cfgOn p (TEN.WIN_CTL_RD w) || g.cfgOn p (TEN.WIN_CTL_WR w)) (0x084 + 8 * w) 0x0201 ++
      must (!(List.range w).any (fun v => match g.tenSpan t v with
        | some b => spansMeet a b
        | none => false)) (0x080 + 8 * w) 0x0601 ++
      must (!(List.range t).any (fun u => (List.range 8).any (fun v => g.writersMeet t w u v))) (0x080 + 8 * w) 0x0601)

/-! ### Channels and banks (R327, R328, R330, R352, R354, R358 to R360) -/

/-- The class that a bank would have in effect: the explicit one, else the one in effect, else the measured one (R327, R328). -/
def Hub.classFor (g : Hub) (k : Nat) : Nat :=
  let sel := g.cfg (pBank k) BANK.CFG_VSEL
  if sel ≠ 0 then sel
  else if g.bankClass k ≠ 0 then g.bankClass k
  else if g.on (pBank k) BANK.STAT_VOK then classOf (g.get (pBank k) BANK.STAT_VMEAS)
  else 0

/-- The shortest period of a signal on a bank's pins in ns; no limit for a bank that would have no class (R327). -/
def Hub.shortest (g : Hub) (k : Nat) : Nat := if g.classFor k = 4 then 40 else if g.classFor k = 0 then 0 else 16

/-- CH. -/
def Hub.checkCh (g : Hub) (c : Nat) : List Check :=
  let p := pCh c
  let mode := g.chMode c
  let pair := if c % 2 = 0 then c + 1 else c - 1
  let act := g.cfg p CH.REACT_ACT
  let cls := g.classFor (c / 8)
  g.inRange p CH.CFG_MODE 0 4 ++ must (g.cfg p CH.CFG_PULL != 3) 0x040 0x0201 ++ must (g.cfg p CH.CFG_SAFE != 3) 0x040 0x0201 ++
  must (mode != 3 || g.chMode pair == 3) 0x040 0x0201 ++
  must (!(g.cfg p CH.CFG_DRIVE == 3 && (cls == 1 || cls == 4))) 0x040 0x0302 ++
  must (!g.cfgOn p CH.CFG_CAP_POS || g.followed (g.cfg p CH.CFG_CAP_TRACK)) 0x040 0x0502 ++
  g.inRange p CH.PWM_PERIOD 2 65535 ++
  must (mode != 2 || decide (g.shortest (c / 8) ≤ g.cfg p CH.PWM_PERIOD * 4 * 2 ^ g.cfg p CH.PWM_PRE)) 0x044 0x0302 ++
  (if !g.cfgOn p CH.REACT_EN then []
   else
    must (act != 7) 0x048 0x0201 ++ must (g.cfg p CH.REACT_EDGE != 0) 0x048 0x0201 ++ must (mode == 1) 0x048 0x0201 ++
    must (!(act == 5 || act == 6) || g.cfg p CH.REACT_WIDTH != 0) 0x048 0x0201)

/-- BANK. -/
def Hub.checkBank (g : Hub) (k : Nat) : List Check :=
  let p := pBank k
  let sel := g.cfg p BANK.CFG_VSEL
  let vih := g.cfg p BANK.THRESH_VIH
  let vil := g.cfg p BANK.THRESH_VIL
  let cls := g.classFor k
  g.inRange p BANK.CFG_VSEL 0 4 ++
  must (sel == 0 || decide (4 < sel) || !g.on p BANK.STAT_VOK || inWindow sel (g.get p BANK.STAT_VMEAS)) 0x040 0x0303 ++
  must (!g.cfgOn p BANK.THRESH_USE ||
    (decide (vil + 100 ≤ vih) && (cls == 0 || decide (vih * 10 ≤ classVolts cls * 9)))) 0x404 0x0203

/-! ### The pin matrix (R352, R354) -/

/-- The register that holds the pin field of a signal. -/
def pinOffset (k : Kind) (s : Nat) : Nat :=
  match k with
  | .uart => if s < 4 then 0x060 else 0x064
  | .spi => if s < 3 then 0x060 else 0x064
  | .prs => if s < 4 then 0x044 else 0x048
  | _ => 0x060

/-- Whether something that needs the channel for itself names it: a feedback input, a quadrature source, a local reaction. -/
def Hub.takenOtherwise (g : Hub) (c : Nat) : Bool :=
  (List.range 16).any (fun k =>
    (List.range 4).any (fun q => g.cfgOn (pTrk k) (TRK.PROF_CFG_FB_EN q) && g.cfg (pTrk k) (TRK.PROF_CFG_FB_CH q) == c)
      || (g.cfg (pTrk k) TRK.SRC_CFG_TYPE == 1 && (g.cfg (pTrk k) TRK.SRC_CFG_QCH == c || g.cfg (pTrk k) TRK.SRC_CFG_QCH + 1 == c)))
    || (List.range 128).any (fun d => g.cfgOn (pCh d) CH.REACT_EN && (d == c || g.cfg (pCh d) CH.REACT_SRC == c))

/-- The pin fields of a page; `table` is every claim of the snapshot. -/
def Hub.checkPins (g : Hub) (table : List (Nat × Nat × Nat)) (k : Kind) (p : Nat) : List Check :=
  (table.filter (fun e => e.2.1 == p)).flatMap (fun e =>
    must (!(decide (1 < (table.filter (fun x => x.1 == e.1)).length)) && g.chMode e.1 == 4 && !g.takenOtherwise e.1)
      (pinOffset k e.2.2) 0x0301)

/-! ### Serial controllers (R371 to R394) -/

/-- Whether a page claims a channel for a signal. -/
def claims (table : List (Nat × Nat × Nat)) (p s : Nat) : Bool := table.any (fun e => e.2.1 == p && e.2.2 == s)

/-- What the three serial controllers share. -/
def Hub.checkFifo (g : Hub) (p : Nat) : List Check :=
  g.inRange p SER.FIFO_CFG_STALL_MAX 1 255 ++ g.inRange p SER.FIFO_CFG_RX_THR 1 63

/-- UART. -/
def Hub.checkUart (g : Hub) (table : List (Nat × Nat × Nat)) (p : Nat) : List Check :=
  let mode := g.cfg p UART.FRAME_MODE
  g.checkFifo p ++
  must (!g.enabled p || claims table p 0 || claims table p 1) 0x060 0x0201 ++
  g.inRange p UART.BAUD_RATE 300 20000000 ++
  must (mode != 3) 0x06C 0x0201 ++ must (g.cfg p UART.FRAME_STOP != 3) 0x06C 0x0201 ++ g.inRange p UART.FRAME_PARITY 0 4 ++
  g.inRange p UART.FRAME_BITS 5 9 ++
  must (!g.cfgOn p UART.FRAME_FLOW || (claims table p 3 && claims table p 4)) 0x06C 0x0201 ++
  must (g.cfg p UART.MSG_CFG_ID_LEN != 3) 0x074 0x0201 ++ must (!g.cfgOn p UART.MSG_CFG_ROUTE || mode == 1) 0x074 0x0201 ++
  g.inRange p UART.MSG_CFG_GAP 1 255 ++
  g.inRange p UART.IOL_CFG_TRIES 1 15 ++ g.inRange p UART.IOL_CFG_TA_MAX 1 63 ++ g.inRange p UART.IOL_CFG_TDMT 1 255 ++
  g.inRange p UART.IOL_CFG_TWU 1 255 ++ g.inRange p UART.IOL_TREN_US 1 65535 ++
  g.inLimits p UART.BITTIME_USE UART.BITTIME_TBIT 6400 426666667

/-- SPI. -/
def Hub.checkSpi (g : Hub) (table : List (Nat × Nat × Nat)) (p : Nat) : List Check :=
  let role := g.cfg p SPI.CLK_ROLE
  let on := g.enabled p
  let slow (s : Nat) : Bool := (table.filter (fun e => e.2.1 == p && e.2.2 == s)).any (fun e => g.classFor (e.1 / 8) == 4)
  g.checkFifo p ++
  must (!on || role == 3 || (claims table p 0 && (role != 1 || claims table p 3) && (role != 2 || claims table p 2))) 0x060 0x0201 ++
  must (role == 1 || role == 3 || !slow 0 || decide (10 ≤ g.halfPeriod p)) 0x068 0x0302 ++
  must (role == 1 || role == 3 || !(slow 1 || slow 2) || decide (5 ≤ g.halfPeriod p)) 0x068 0x0302 ++
  must (role != 3) 0x068 0x0201 ++
  must (role == 1 || role == 3 || (if role = 2 then within (g.cfg p SPI.CLK_FREQ) 50 10000 else within (g.cfg p SPI.CLK_FREQ) 4 62500))
    0x068 0x0201 ++
  g.inRange p SPI.WORD_WIDTH 4 32 ++ g.inRange p SPI.SSI_WIDTH 8 31 ++ g.inRange p SPI.SSI_TM 1 255 ++
  g.inLimits p SPI.TIMING_USE SPI.TIMING_HALF 4 65535 ++
  must (!g.cfgOn p SPI.TIMING_USE || decide (g.cfg p SPI.TIMING_RXDLY < g.cfg p SPI.TIMING_HALF)) 0x400 0x0203

/-- I2C. -/
def Hub.checkI2c (g : Hub) (table : List (Nat × Nat × Nat)) (p : Nat) : List Check :=
  let low := g.expert p I2C.TIMING_USE I2C.TIMING_LOW (150000 / g.cfg p I2C.CFG_RATE)
  g.checkFifo p ++
  must (!g.enabled p || (claims table p 0 && claims table p 1)) 0x060 0x0201 ++
  g.inRange p I2C.CFG_ROLE 0 1 ++
  must (!(g.enabled p && g.cfg p I2C.CFG_ROLE == 1 && !g.cfgOn p I2C.CFG_TEN_BIT) || within (g.cfg p I2C.CFG_OWN_ADDR) 0x08 0x77)
    0x064 0x0201 ++
  g.inRange p I2C.CFG_RATE 10 1000 ++ g.inRange p I2C.TIMEOUT_SLV_STRETCH_MAX 1 255 ++
  g.inLimits p I2C.TIMING_USE I2C.TIMING_LOW 125 32767 ++ g.inLimits p I2C.TIMING_USE I2C.TIMING_HIGH 65 32767 ++
  must (!g.cfgOn p I2C.HOLD_USE || decide (2 * g.cfg p I2C.HOLD_HOLD < low)) 0x404 0x0203

/-! ### Prism engines, CAN, Ethernet (R415, R422, R425, R445, R462) -/

/-- PRS; `old` is the hub before the commit. -/
def Hub.checkPrs (g old : Hub) (e : Nat) : List Check :=
  let p := pPrs e
  let join := g.cfg p PRS.CFG_JOIN
  let idle (i : Nat) : Bool := decide (old.prsState i ≤ 1)
  must (g.cfg p PRS.CFG_DIV != 0) 0x040 0x0201 ++ must (join != 3) 0x040 0x0201 ++ must (e % 2 == 0 || join == 0) 0x040 0x0201 ++
  must (!(join == 2 && e % 2 == 0 && g.enabled (pPrs (e + 1)))) 0x040 0x0201 ++
  must (join == old.cfg p PRS.CFG_JOIN || (idle (e - e % 2) && idle (e - e % 2 + 1))) 0x040 0x0201 ++
  must (!g.cfgOn p PRS.CFG_CAP_POS || g.followed (g.cfg p PRS.CFG_CAP_TRACK)) 0x040 0x0502 ++
  g.inRange p PRS.QCFG_STALL_MAX 1 255 ++ g.inRange p PRS.QCFG_OUT_THR 1 32 ++ g.inRange p PRS.QCFG_IN_THR 0 31

/-- Whether the derived timing of a phase exists and lies within its fields (R425). -/
def timingDerived (data : Bool) (rate sp : Nat) : Bool :=
  match canTiming data rate sp with
  | some t => canTimingOk data t
  | none => false

/-- CAN. -/
def Hub.checkCan (g : Hub) (p : Nat) : List Check :=
  let on (f : Fld) : Bool := g.cfgOn p f
  let nom := g.cfg p CAN.NOMINAL_RATE
  let dat := g.cfg p CAN.DATA_RATE
  let nbt := (g.cfg p CAN.NBT_BRP, g.cfg p CAN.NBT_TSEG1, g.cfg p CAN.NBT_TSEG2, g.cfg p CAN.NBT_SJW)
  let dbt := (g.cfg p CAN.DBT_BRP, g.cfg p CAN.DBT_TSEG1, g.cfg p CAN.DBT_TSEG2, g.cfg p CAN.DBT_SJW)
  let inTable (data : Bool) (t : Nat × Nat × Nat × Nat) : Bool :=
    let n := 1 + t.2.1 + t.2.2.1
    canTimingOk data t && decide (t.2.2.2 ≤ t.2.2.1) && (if data then within n 5 49 else within n 8 385)
  must (!on CAN.CFG_BRS_EN || on CAN.CFG_FD_EN) 0x040 0x0201 ++
  must (!(on CAN.CFG_LISTEN && on CAN.CFG_LOOP)) 0x040 0x0201 ++
  must (!on CAN.CFG_ROUTE_EXCL || on CAN.CFG_ROUTE_EN) 0x040 0x0201 ++
  g.inRange p CAN.NOMINAL_SP 500 950 ++ g.inRange p CAN.NOMINAL_RATE 10000 1000000 ++
  must (timingDerived false nom (g.cfg p CAN.NOMINAL_SP)) 0x044 0x0201 ++
  g.inRange p CAN.DATA_SP 500 950 ++ g.inRange p CAN.DATA_RATE 125 8000 ++
  must (timingDerived true (1000 * dat) (g.cfg p CAN.DATA_SP)) 0x048 0x0201 ++
  must (!on CAN.CFG_BRS_EN || decide (nom ≤ 1000 * dat)) 0x048 0x0201 ++
  must (!on CAN.NBT_USE || inTable false nbt) 0x400 0x0203 ++ must (!on CAN.DBT_USE || inTable true dbt) 0x404 0x0203 ++
  g.inLimits p CAN.TDC_USE CAN.TDC_OFS 1 127

/-- ETH. -/
def Hub.checkEth (g : Hub) : List Check :=
  let p := pEth
  let tx := g.cfgOn p ETH.TUN_TX_EN
  g.inRange p ETH.CFG_MODE 0 1 ++ must (g.cfg p ETH.CFG_SPEED != 3) 0x040 0x0201 ++ g.inRange p ETH.CFG_MAX_LEN 1518 9216 ++
  must (!tx || (g.cfg p ETH.TUN_DST != 0 && g.tenAllowed (g.cfg p ETH.TUN_TEN))) 0x04C 0x0201 ++
  must (g.tenAllowed (g.cfg p ETH.CTRL_TEN)) 0x050 0x0201 ++
  g.inRange p ETH.PREEMPT_VERIFY_TIME 1 128 ++
  forAll 32 (fun i =>
    let a := g.cfg p (ETH.EXACT_HI_ACTION i)
    must (!g.cfgOn p (ETH.EXACT_HI_EN i) || (a != 3 && (a != 1 || g.cfg p (ETH.EXACT_HI_DST i) != 0))) (0x204 + 8 * i) 0x0201) ++
  g.signedLimits p ETH.TS_LAT_USE ETH.TS_LAT_TX_LAT 8000 ++ g.signedLimits p ETH.TS_LAT_USE ETH.TS_LAT_RX_LAT 8000

/-! ### Mailboxes, zones, faults, temperature, updates (R490, R496, R511, R512, R533, R579) -/

/-- MBX. -/
def Hub.checkMbx (g : Hub) : List Check :=
  let p := pMbx
  let who (c : Nat) : Bool := decide (c ≤ 0xA) && (decide (8 ≤ c) || g.tenEnabled c)
  must (g.cfg p PG.CTRL_OWNER == 0xE || g.cfg p PG.CTRL_OWNER == 0xF) 0x008 0x0201 ++
  forAll 16 (fun m =>
    let w := g.cfg p (MBX.CFG_WRITER m)
    let r := g.cfg p (MBX.CFG_READER m)
    must (!g.cfgOn p (MBX.CFG_EN m) || (who w && who r && w != r)) (0x040 + 4 * m) 0x0201 ++
    must (!g.cfgOn p (MBX.CFG_SVC m) || r == 9) (0x040 + 4 * m) 0x0201) ++
  must (g.cfg p MBX.DBCFG_IRQ_SIDE != 3) 0x0D0 0x0201

/-- ZONE. -/
def Hub.checkZone (g : Hub) (p : Nat) : List Check :=
  g.inRange p ZONE.SHUNT_RSHUNT 500 50000 ++ g.inRange p ZONE.SHUNT_TC_TAU 1 6000 ++
  g.inRange p ZONE.ILIM_TRIP_T 1 10000 ++ g.inRange p ZONE.ILIM_MA 100 65535 ++
  must (decide (g.cfg p ZONE.ILIM_MA * g.cfg p ZONE.SHUNT_RSHUNT ≤ 40000000)) 0x054 0x0801 ++
  g.inRange p ZONE.RAMP_DVDT 1 1000 ++ g.inRange p ZONE.RAMP_MAX_MS 1 2000 ++ g.inRange p ZONE.RAMP_E_MJ 1 65535 ++
  g.inRange p ZONE.VLIM_OV 20000 64000 ++ g.inRange p ZONE.VLIM_UV 16500 58000 ++
  must (decide (g.cfg p ZONE.VLIM_UV + 2000 ≤ g.cfg p ZONE.VLIM_OV)) 0x060 0x0201 ++
  g.inRange p ZONE.RETRY_COUNT 1 15 ++ g.inRange p ZONE.RETRY_BACKOFF 10 4000 ++ g.inRange p ZONE.RETRY_CLR 1 255 ++
  g.inRange p ZONE.DAMAGE_OFF_T 10 60000 ++ g.inRange p ZONE.DAMAGE_GATE_T 10 65535 ++
  g.inLimits p ZONE.IFAST_USE ZONE.IFAST_UV 2000 50000 ++
  g.signedLimits p ZONE.CAL_USE ZONE.CAL_GAIN 10000 ++ g.signedLimits p ZONE.CAL_USE ZONE.CAL_OFS 2000 ++
  g.inLimits p ZONE.GATE_USE ZONE.GATE_VGS_FULL 60 110 ++ g.inLimits p ZONE.GATE_USE ZONE.GATE_VGS_RISE 10 50 ++
  must (!g.cfgOn p ZONE.GATE_USE || decide (g.cfg p ZONE.GATE_VGS_RISE < g.cfg p ZONE.GATE_VGS_FULL)) 0x408 0x0203

/-- FLT. -/
def Hub.checkFlt (g : Hub) : List Check :=
  must (g.enabled pFlt) 0x008 0x0201 ++ g.inRange pFlt FLT.CFG_REPEAT_CLR 1 65535 ++ g.inRange pFlt FLT.CFG_REPEAT_LIM 1 15

/-- THERM. -/
def Hub.checkTherm (g : Hub) : List Check :=
  let p := pTherm
  must (g.enabled p) 0x008 0x0201 ++ g.inRange p THERM.CFG_WARN_C 60 119 ++ g.inRange p THERM.CFG_STEP_MS 1 1000 ++
  g.inRange p THERM.CFG_HYST 1 20 ++
  g.inLimits p THERM.TRIP_USE THERM.TRIP_BULK_C 90 120 ++ g.inLimits p THERM.TRIP_USE THERM.TRIP_BANK_C 100 130 ++
  must (!g.cfgOn p THERM.TRIP_USE || decide (g.cfg p THERM.TRIP_BULK_C ≤ g.cfg p THERM.TRIP_BANK_C)) 0x400 0x0203

/-! ### All pages -/

/-- The checks of a page's own chapter. -/
def Hub.checkOwn (g old : Hub) (table : List (Nat × Nat × Nat)) (k : Kind) (p i : Nat) : List Check :=
  match k with
  | .sys => g.checkSys
  | .flt => g.checkFlt
  | .therm => g.checkTherm
  | .mbx => g.checkMbx
  | .upd => g.inRange pUpd UPD.CFG_CONFIRM_S 1 65535
  | .time => g.checkTime
  | .topo => g.checkTopo
  | .rport => g.checkRport p
  | .atr => g.checkAtr
  | .brg => g.checkBrg
  | .sw => g.checkSw
  | .qos => g.checkQos
  | .dram => g.checkDram
  | .eth => g.checkEth
  | .trk => g.checkTrk i
  | .ten => g.checkTen i
  | .zone => g.checkZone p
  | .can => g.checkCan p
  | .bank => g.checkBank i
  | .uart => g.checkPins table k p ++ g.checkUart table p
  | .spi => g.checkPins table k p ++ g.checkSpi table p
  | .i2c => g.checkPins table k p ++ g.checkI2c table p
  | .prs => g.checkPins table k p ++ g.checkPrs old i
  | .ch => g.checkCh i
  | .lc => [] | .stw => [] | .bist => [] | .host => []

/-- A check put before the first one at a later offset. -/
def insertCheck (c : Check) : List Check → List Check
  | [] => [c]
  | d :: r => if c.1 < d.1 then c :: d :: r else d :: insertCheck c r

/-- Checks in ascending offset; those at one offset in the order in which they stand (R60). -/
def sortChecks (l : List Check) : List Check := l.foldl (fun a c => insertCheck c a) []

/-- The failing checks of a page in ascending offset. -/
def Hub.pageChecks (g old : Hub) (table : List (Nat × Nat × Nat)) (p : Nat) : List Check :=
  match kindOf p with
  | none => []
  | some k => sortChecks (g.checkPage k p ++ g.checkOwn old table k p (instOf p))

/-- The snapshot: the hub with its staged values as the committed ones (R51). -/
def Hub.snapshot (h : Hub) : Hub := { h with committed := h.staged }

/-- Every failing check: its page, its offset, its code, pages and offsets ascending (R60). -/
def Hub.failing (h : Hub) : List (Nat × Nat × Nat) :=
  let g := h.snapshot
  let table := claimTable g.committed
  usedPages.flatMap (fun p => (g.pageChecks h table p).map (fun c => (p, c)))

/-! ### The seal (R57) -/

/-- The STG windows that the stream leaves out (R57). -/
def outsideSeal (k : Kind) (off : Nat) : Bool :=
  (k == .brg && within off 0x054 0x060) || (k == .qos && (off == 0x044 || within off 0x04C 0x054))

/-- The word that a register gives to the stream: its staged STG bits, 0 for an expert register whose USE is 0; none where it holds no STG field. -/
def Hub.sealWord (h : Hub) (k : Kind) (p off : Nat) : Option Nat :=
  let fs := (fieldsAt k off).filter (fun f => f.acc == .stg)
  if fs = [] ∨ outsideSeal k off then none
  else
    let w := fs.foldl (fun a f => a + h.get p f * 2 ^ f.lo) 0
    some (if expertOffset off && !bitOf w 31 then 0 else w)

/-- The offsets of a page group's registers that can hold an STG field. -/
def sealOffsets : List Nat := (List.range 0x300).map (fun i => 4 * i)

/-- The seal over the staged values (R57). -/
def Hub.sealOf (h : Hub) : Nat :=
  crc32c (usedPages.flatMap (fun p =>
    match kindOf p with
    | none => []
    | some k => leBytes 4 p ++ sealOffsets.flatMap (fun off =>
        match h.sealWord k p off with
        | some w => leBytes 4 w
        | none => [])))

end Sys2Proof.Machine
end

