-- ==== Sys2Proof/Machine/Commit.lean ====
section
/-!
DEFINITION. The end of a validation and the commit instant (R51 to R60, R65, R90, R112).
Where the manual is open: DEDUCED, log entries 8, 17 and 37; DESIGN CHOICE, log entry 57.
-/
namespace Sys2Proof.Machine

open Reg

/-! ### The end of a validation (R51, R58, R60) -/

/-- Whether the computed seal matches the code that Fenwin gave (R58). -/
def Hub.sealMatches (h : Hub) (computed : Nat) : Bool := h.get pSys SYS.SEAL_CODE_CODE != 0 && h.get pSys SYS.SEAL_CODE_CODE == computed

/-- Whether a commit may go on without a matching seal, by the mode in which its command was written (R58). -/
def Hub.sealOptional (h : Hub) : Bool := h.sys.commitMode == Mode.transparent.code || h.sys.commitMode == Mode.held.code

/-- The seal's own check: at SYS.SEAL_CODE, where the mode needs a match (R58). -/
def Hub.sealCheck (h : Hub) (sealed : Bool) : List (Nat × Nat × Nat) :=
  if sealed || h.sealOptional then []
  else [(pSys, 0x04C, if h.get pSys SYS.SEAL_CODE_CODE = 0 then 0x0102 else 0x0101)]

/-- A failing check put before the first one at a later place. -/
def insertFailure (c : Nat × Nat × Nat) : List (Nat × Nat × Nat) → List (Nat × Nat × Nat)
  | [] => [c]
  | d :: r => if c.1 < d.1 ∨ (c.1 = d.1 ∧ c.2.1 < d.2.1) then c :: d :: r else d :: insertFailure c r

/-- PG_SEAL.REFUSED of every page: whether the validation found a failing check on it. -/
def Hub.markRefused (h : Hub) (l : List (Nat × Nat × Nat)) : Hub :=
  usedPages.foldl (fun g p => g.put p PG.SEAL_REFUSED (flag (l.any (fun c => c.1 == p)))) h

/-- REFUSE_CODE and REFUSE_LOC of a validation: the first failing check and their number (R60). -/
def Hub.recordChecks (h : Hub) (l : List (Nat × Nat × Nat)) : Hub :=
  let first := l.headD (0, 0, 0)
  ((((h.markRefused l).put pSys SYS.REFUSE_CODE_CODE first.2.2).put pSys SYS.REFUSE_LOC_COUNT (min 255 l.length)).put
    pSys SYS.REFUSE_LOC_PAGE first.1).put pSys SYS.REFUSE_LOC_OFFSET first.2.1

/-- The outcome of a validation whose failing checks are `l` (R51, R52, R59). -/
def Hub.concludeValidation (h : Hub) (sealed : Bool) (l : List (Nat × Nat × Nat)) : Hub :=
  let h := h.recordChecks l
  if l ≠ [] then (h.endAttempt 4).refusedMode
  else if h.sys.commitCmd = 1 then h.endAttempt 1
  else { h.put pSys SYS.COMMIT_STATE_STATE 2 with sys := { h.sys with commitSealed := sealed } }

/-- The validation of the snapshot: its checks, the seal, the outcome. -/
def Hub.endValidation (h : Hub) : Hub :=
  let computed := h.sealOf
  let sealed := h.sealMatches computed
  let l := (h.sealCheck sealed).foldl (fun a c => insertFailure c a) h.failing
  (h.put pSys SYS.SEAL_CALC_CALC computed).concludeValidation sealed l

/-- VALIDATION_END: the validation that runs ends; `internalError` says that the validator found an error of its own (R51, R60). -/
def execValidationEnd (internalError : Bool) (s : State) : Host.Outcome State Fault Refusal :=
  run s fun h =>
    if h.get pSys SYS.COMMIT_STATE_STATE ≠ 1 then h
    else if internalError then (h.raise pSys 2).refuseAttempt 0x0F01
    else h.endValidation

/-! ### The commit instant (R51, R52, R55) -/

/-- COMMIT_INSTANT: T of the scheduled commit is reached (R51, R52, R55). -/
def execCommitInstant (s : State) : Host.Outcome State Fault Refusal :=
  run s fun h => if h.get pSys SYS.COMMIT_STATE_STATE = 2 then h.commit else h

end Sys2Proof.Machine
end

