-- ==== Sys2Proof/Machine/Transmit.lean ====
section
/-!
DEFINITION. Transmission: what a ring port or the local Ethernet port sends next, its fragments, and what it inserts as the frame leaves
(R118, R127, R128, R132, R177, R180, R181, R295, R304, R446 to R448, R457).
Where the manual is open: DEDUCED, log entry 22; PRESUMED, log entry 42.
-/
namespace Sys2Proof.Machine

open Reg

/-! ### The Bulk scheduler (R295) -/

/-- Whether a commit of the Lens fields or seed holds every flow of this node: for STEER_HOLD from T on (R309). -/
def Hub.allHeld (h : Hub) : Bool :=
  match h.topo.heldAll with
  | some c => decide (h.clock < c + 50000 * h.cfg pTopo TOPO.TIMERS_STEER_HOLD)
  | none => false

/-- Whether a frame of a ring port waits for its flow's hold (R161). -/
def Hub.flowHeld (h : Hub) (q : QFrame) : Bool := h.isOwnBulk q && (h.topo.heldFlows.contains q.frame.hdr.flow || h.allHeld)

/-- Whether a port can take a frame that its queues hold: an Ethernet frame while the local Ethernet port sends, which in Cellar it does for the
Steward alone (R447), a ring port's once its flow is not held. -/
def Hub.sendable (h : Hub) (port : Nat) (q : QFrame) : Bool :=
  if port < 2 then !h.flowHeld q else if q.frame.isEther then h.etherOpen && (h.mode != .cellar || q.ingress == 6) else true

/-- The frame of a Bulk queue that is next to leave. -/
def Hub.headOf (h : Hub) (port queue : Nat) : Option QFrame := (h.queue (queueKey port queue)).find? (fun q => h.sendable port q)

/-- The deficit round robin from its present turn on: the queue and frame that it chooses, and its state after them. -/
def drrPick (head : Nat → Option QFrame) (quantum : Nat → Nat) : Nat → Drr → Option (Nat × QFrame × Drr)
  | 0, _ => none
  | fuel + 1, d =>
    let next := (d.turn + 1) % 16
    match head d.turn with
    | none => drrPick head quantum fuel { turn := next, given := false, deficits := Map.erase d.deficits d.turn }
    | some f =>
      let have_ := Map.getD d.deficits d.turn 0 + (if d.given then 0 else quantum d.turn)
      if f.frame.size ≤ have_ then
        some (d.turn, f, { d with given := true, deficits := Map.put d.deficits d.turn 0 (have_ - f.frame.size) })
      else drrPick head quantum fuel { turn := next, given := false, deficits := Map.put d.deficits d.turn 0 have_ }

/-- The Bulk frame that a port sends next, with its queue: strict-priority queues in ascending order, then the round robin (R295). -/
def Hub.nextBulk (h : Hub) (port : Nat) : Option (Nat × QFrame × Drr) :=
  let d := Map.getD h.sw.drr port {}
  let strict (q : Nat) : Bool := h.cfgOn pQos (QOS.QW_SP q)
  match (List.range 16).filterMap (fun q => if strict q then (h.headOf port q).map (fun f => (q, f)) else none) with
  | (q, f) :: _ => some (q, f, d)
  | [] =>
    let head (q : Nat) : Option QFrame := if strict q then none else h.headOf port q
    if (List.range 16).any (fun q => (head q).isSome) then drrPick head (fun q => h.cfg pQos (QOS.QW_QUANT q) * 64) 2560 d else none

/-- A Bulk frame leaves its queue (R295, QOS.QD_TX); one that this node turned back is sent wrapped (TOPO.WRAPPED). -/
def Hub.takeBulk (h : Hub) (port : Nat) (c : Nat × QFrame × Drr) : Hub :=
  let key := queueKey port c.1
  let h := if c.2.1.turned then h.inc pTopo TOPO.WRAPPED_COUNT else h
  (h.setQueue key (dropFirst c.2.1 (h.queue key))).setSw (fun s =>
    { s with sent := bumpCount s.sent key, drr := Map.put s.drr port {} c.2.2 })

/-! ### Bulk frames and fragments (R128) -/

/-- The header and payload bytes of a frame (R128). -/
def frameSpan (f : Frame) : Nat := 20 + f.payload.length

/-- Whether a fragment may end after `cut` bytes: a boundary that lies ahead, with a byte still to be sent (R128). -/
def boundary (sent cut total : Nat) : Bool := cut % 60 == 0 && decide (sent < cut) && decide (cut < total)

/-- A fragment of a Bulk frame: the bytes from those sent so far up to `cut`, with the fragment check, or the frame's own check, stomped for a bad
frame, at its end (R116, R121, R128). -/
def BulkTx.fragment (b : BulkTx) (port cut : Nat) (bad : Bool) : Out :=
  let bs := b.frame.bytes
  let chk := if cut < bs.length then fragmentCheck (bs.take cut) else if bad then crc32 bs ^^^ 0xFFFFFFFF else crc32 bs
  .fragment port (fragmentSd b.number) ((bs.take cut).drop b.sent) chk

/-- A Bulk frame carried on from the bytes sent so far, to a boundary or to its end (R128, R132, R304). -/
def Hub.sendBulk (h : Hub) (port cut : Nat) (bad : Bool) (b : BulkTx) : Hub :=
  let total := frameSpan b.frame
  if boundary b.sent cut total ∧ !bad then
    ((h.emit (b.fragment port cut false)).inc (pRport port) RPORT.PREEMPT_COUNT).setPort port
      (fun p => { p with txBulk := some { b with sent := cut, number := b.number + 1 } })
  else
    let h := h.setPort port (fun p => { p with txBulk := none })
    let h := if b.sent = 0 then h.emit (.frame port b.frame (if bad then .stomped else .good)) else h.emit (b.fragment port total bad)
    let h := (h.countTx port b.frame).watch port true ((h.stamp port true b.stamp / 8192) % (2 ^ 64 : Nat)).toNat b.frame
    if bad then h.cellBad b.dram else h

/-- Whether a frame has been placed in DRAM (R289). -/
def QFrame.overflowed (q : QFrame) : Bool := decide (0 < q.slots.length + q.staged)

/-- The next Bulk frame or continuation of a ring port, while the port is open (R127, R137, R159); the frame's stamp is that of its first /S/. -/
def Hub.transmitBulk (h : Hub) (port c8 cut : Nat) (bad : Bool) : Hub :=
  match (h.port port).txBulk with
  | some b => h.sendBulk port cut bad b
  | none =>
    if h.link port ≠ 4 ∨ h.portOpen port = false then h
    else
      match h.nextBulk port with
      | none => h
      | some c => (h.takeBulk port c).sendBulk port cut bad { frame := c.2.1.frame, stamp := c8, dram := c.2.1.overflowed }

/-- Whether no earlier frame of this node and class is still on its way to a ring port, so that each class leaves in the order of its sequence
numbers (R153; DEDUCED, log entry 22). -/
def Hub.inSequence (h : Hub) (port : Nat) (t : TxItem) : Bool :=
  let earlier (f : Frame) : Bool := f.cls == t.frame.cls && seqBefore f.hdr.seq t.frame.hdr.seq
  !((h.sw.taps.any (fun a => a.egress == port && a.ingress != 0 && a.ingress != 1 && earlier a.frame)) || (h.voqXt port).any (fun v => earlier v.item.frame))

/-- The oldest frame of a queue of this node's that may leave. -/
def Hub.readyOwn (h : Hub) (port : Nat) (q : List TxItem) : List TxItem :=
  match q with
  | t :: _ => if h.inSequence port t then q else []
  | [] => []

/-- A ring port that is free to start a frame or fragment, by the precedence of R127. -/
def Hub.transmitRing (h : Hub) (port c8 cut : Nat) (bad : Bool) : Hub :=
  let p := h.port port
  match p.transitX, h.readyOwn port p.ownX, p.transitT, h.readyOwn port p.ownT, p.links with
  | t :: l, _, _, _, _ => (h.setPort port (fun p => { p with transitX := l })).sendWhole port c8 false t
  | _, t :: l, _, _, _ => (h.setPort port (fun p => { p with ownX := l })).sendWhole port c8 bad t
  | _, _, t :: l, _, _ => (h.setPort port (fun p => { p with transitT := l })).sendWhole port c8 false t
  | _, _, _, t :: l, _ => (h.setPort port (fun p => { p with ownT := l })).sendWhole port c8 bad t
  | _, _, _, _, t :: l => (h.setPort port (fun p => { p with links := l })).sendWhole port c8 false t
  | _, _, _, _, _ => h.transmitBulk port c8 cut bad

/-! ### The local ports (R284, R295, R304) -/

/-- The Express or Timed frame that a local port sends next, with its queue: Express goes first (R295). -/
def Hub.nextXt (h : Hub) (port : Nat) : Option (Nat × QFrame) :=
  [2 * port, 2 * port + 1].findSome? (fun key => ((Map.getD h.sw.express key []).find? (h.sendable port)).map (fun q => (key, q)))

/-- The frame that a local port sends next, and the hub without it (R295). -/
def Hub.takeLocal (h : Hub) (port : Nat) : Option (QFrame × Hub) :=
  match h.nextXt port with
  | some e => some (e.2, h.setSw (fun s => { s with express := Map.put s.express e.1 [] (dropFirst e.2 (Map.getD s.express e.1 [])) }))
  | none => if port = 5 ∧ h.brg.bulk ≠ [] then none else (h.nextBulk port).map (fun c => (c.2.1, h.takeBulk port c))

/-! ### The local Ethernet port (R193, R194, R446 to R448, R457) -/

/-- PTP time in nanoseconds of an Ethernet stamp in eighths of a tick (R194). -/
def Hub.ptpTime (h : Hub) (stamp : Nat) : Nat :=
  stamp / 4 + h.get64 pTime TIME.PTP_EPOCH_LO_SLO TIME.PTP_EPOCH_HI_SHI * 1000000000

/-- A one-step Sync with its originTimestamp written and, over UDP, a zero checksum (R457). -/
def oneStep (e : List Byte) (ns : Nat) : List Byte :=
  let t := etherType e
  let value := beBytes 6 (ns / 1000000000) ++ beBytes 4 (ns % 1000000000)
  if t.1 = 0x88F7 then patch e (t.2 + 34) value
  else
    let udp := t.2 + 4 * ((e.getD t.2 0).toNat % 16)
    patch (patch e (udp + 6) (leBytes 2 0)) (udp + 8 + 34) value

/-- A frame that the Steward firmware has ready for the port: 1 marks a one-step Sync, 2 a two-step message whose stamp goes back (R193, R457). -/
def Hub.sendComposed (h : Hub) (c8 : Nat) (e : List Byte) (mark : Nat) : Hub :=
  let st := h.etherStamp true c8
  if mark = 1 then h.sendEther (oneStep e (h.ptpTime st)) false 0 false
  else
    let g := h.sendEther e false 0 false
    if mark = 2 ∧ g.out.length ≠ h.out.length then (g.coreInput 39).emit (.dispatch 2 e st h.onFallBack) else g

/-- A local port sends a frame: an Ethernet frame leaves by the local Ethernet port, any other goes to the block at the port (R11, R284). -/
def Hub.sendLocal (h : Hub) (port cut : Nat) (q : QFrame) : Hub :=
  let g := h.watch port true q.stamp q.frame
  if q.frame.isEther then g.sendEther (q.frame.payload.take (q.frame.payload.length - 4)) (q.frame.cls == .bulk) cut q.overflowed else g.emit (.deliver q.ingress q.frame)

/-- A local port's next frame by the order of R295; one with a failing cell is neither sent nor delivered (R304). -/
def Hub.transmitLocal (h : Hub) (port cut : Nat) (bad : Bool) : Hub :=
  match h.takeLocal port with
  | none => h
  | some e => if bad then e.2.cellBad e.1.overflowed else e.2.sendLocal port cut e.1

/-- The four check bytes of a frame in place of its own, stomped (R121, R304). -/
def stompEnd (bs : List Byte) : List Byte := bs.take (bs.length - 4) ++ (bs.drop (bs.length - 4)).map (fun b => b ^^^ 0xFF#8)

/-- A preempted Bulk frame carried on; one with a failing cell to its end, with a stomped check (R304, R449). -/
def Hub.carryOn (h : Hub) (x : EtherPart) (cut : Nat) (bad : Bool) : Hub :=
  if bad then (h.putOnLine { x with bytes := stompEnd x.bytes } false 0).cellBad x.dram else h.putOnLine x true cut

/-- The local Ethernet port, once its line is free: a frame of the Steward's; else a preempted Bulk frame carried on, where no Express or Timed frame
waits; else a delivered tunnelled frame that waits; else the next frame of its queues (R295, R449, R453; DEDUCED, log entry 25). -/
def Hub.transmitEther (h : Hub) (c8 cut : Nat) (bad : Bool) (own : List Byte) (mark : Nat) : Hub :=
  if h.etherFree = false then h
  else if own ≠ [] then (if h.etherOpen then h.sendComposed c8 own mark else h)
  else
    match h.nextXt 2, h.ether.part, h.ether.waiting with
    | none, some x, _ => h.carryOn x cut bad
    | none, none, bs :: l => (h.setEther (fun s => { s with waiting := l })).putOnLine { bytes := bs } true cut
    | _, _, _ => h.transmitLocal 2 cut bad

/-- TRANSMIT_FRAME: a switch port that is free to start a frame or fragment sends the next one. `c8` is the instant of its /S/ or SFD on C in eighths
of a tick; `cut` the boundary at which an Express or Timed frame waits, 0 for none; `bad` a failing cell; `own` a frame that the Steward firmware
has ready for port 2, with its mark. -/
def execTransmitFrame (port c8 cut : Nat) (bad : Bool) (own : List Byte) (mark : Nat) (s : State) : Host.Outcome State Fault Refusal :=
  run s fun h =>
    if port < 2 then h.transmitRing port c8 cut bad
    else if 8 ≤ port then h
    else if port = 2 then h.transmitEther c8 cut bad own mark
    else h.transmitLocal port 0 bad

end Sys2Proof.Machine
end

