-- ==== Sys2Proof/Machine/Dispatch.lean ====
section
/-!
DEFINITION. The dispatch: one arm for each command, each one direct call of its meaning.
-/
namespace Sys2Proof.Machine

def exec (i : Instr) (s : State) : Host.Outcome State Fault Refusal :=
  match i with
  | .registerWrite req page off size value => Sys2Proof.Machine.execRegisterWrite req page off size value s
  | .xkeyOpen req page => Sys2Proof.Machine.execXkeyOpen req page s
  | .xkeyClose req page value => Sys2Proof.Machine.execXkeyClose req page value s
  | .srst req page => Sys2Proof.Machine.execSrst req page s
  | .pgIrqRawClear req page mask setNow => Sys2Proof.Machine.execPgIrqRawClear req page mask setNow s
  | .pgFltClear req page mask active => Sys2Proof.Machine.execPgFltClear req page mask active s
  | .discard req page => Sys2Proof.Machine.execDiscard req page s
  | .validate req => Sys2Proof.Machine.execValidate req s
  | .commitNow req => Sys2Proof.Machine.execCommitNow req s
  | .commitAt req => Sys2Proof.Machine.execCommitAt req s
  | .commitEpoch req => Sys2Proof.Machine.execCommitEpoch req s
  | .abort req => Sys2Proof.Machine.execAbort req s
  | .validationEnd internalError => Sys2Proof.Machine.execValidationEnd internalError s
  | .commitInstant => Sys2Proof.Machine.execCommitInstant s
  | .commitRefusedLate => Sys2Proof.Machine.execCommitRefusedLate s
  | .revert req => Sys2Proof.Machine.execRevert req s
  | .maintEnter req => Sys2Proof.Machine.execMaintEnter req s
  | .maintExit req => Sys2Proof.Machine.execMaintExit req s
  | .shelf req => Sys2Proof.Machine.execShelf req s
  | .safestop req => Sys2Proof.Machine.execSafestop req s
  | .test req => Sys2Proof.Machine.execTest req s
  | .restart req => Sys2Proof.Machine.execRestart req s
  | .armedToRunning => Sys2Proof.Machine.execArmedToRunning s
  | .armedWait10s => Sys2Proof.Machine.execArmedWait10s s
  | .ringLost => Sys2Proof.Machine.execRingLost s
  | .ringRejoined => Sys2Proof.Machine.execRingRejoined s
  | .supplyPresent domain millivolts => Sys2Proof.Machine.execSupplyPresent domain millivolts s
  | .supplyLost domain => Sys2Proof.Machine.execSupplyLost domain s
  | .powerOn ioSel => Sys2Proof.Machine.execPowerOn ioSel s
  | .wakeEvent event => Sys2Proof.Machine.execWakeEvent event s
  | .powerOnHoldEnd => Sys2Proof.Machine.execPowerOnHoldEnd s
  | .referenceValid is25 => Sys2Proof.Machine.execReferenceValid is25 s
  | .corePllLock cellarN bootsel ioSel hostsel => Sys2Proof.Machine.execCorePllLock cellarN bootsel ioSel hostsel s
  | .ref25Lost => Sys2Proof.Machine.execRef25Lost s
  | .corePllSwitchover => Sys2Proof.Machine.execCorePllSwitchover s
  | .ref156Lost => Sys2Proof.Machine.execRef156Lost s
  | .clockLoss => Sys2Proof.Machine.execClockLoss s
  | .pllUnlock pll => Sys2Proof.Machine.execPllUnlock pll s
  | .rstN => Sys2Proof.Machine.execRstN s
  | .perstN => Sys2Proof.Machine.execPerstN s
  | .gateReq req value => Sys2Proof.Machine.execGateReq req value s
  | .gateHold req value => Sys2Proof.Machine.execGateHold req value s
  | .gateTakeEffect group => Sys2Proof.Machine.execGateTakeEffect group s
  | .ungateComplete group => Sys2Proof.Machine.execUngateComplete group s
  | .transmitFrame port stamp cut bad own mark => Sys2Proof.Machine.execTransmitFrame port stamp cut bad own mark s
  | .transitFrame port stamp sd lane4 body => Sys2Proof.Machine.execTransitFrame port stamp sd lane4 body s
  | .bulkFragment port sd body => Sys2Proof.Machine.execBulkFragment port sd body s
  | .receiveEnergy port los => Sys2Proof.Machine.execReceiveEnergy port los s
  | .autoDwell port => Sys2Proof.Machine.execAutoDwell port s
  | .blockLock port => Sys2Proof.Machine.execBlockLock port s
  | .lockingTimeout port => Sys2Proof.Machine.execLockingTimeout port s
  | .helloSend port => Sys2Proof.Machine.execHelloSend port s
  | .hello port frame => Sys2Proof.Machine.execHello port frame s
  | .helloTimeout port => Sys2Proof.Machine.execHelloTimeout port s
  | .lossOfLock port los symbols => Sys2Proof.Machine.execLossOfLock port los symbols s
  | .hiBer port symbols => Sys2Proof.Machine.execHiBer port symbols s
  | .settlingTimeout port => Sys2Proof.Machine.execSettlingTimeout port s
  | .downHoldEnd port => Sys2Proof.Machine.execDownHoldEnd port s
  | .bulkHold port queue => Sys2Proof.Machine.execBulkHold port queue s
  | .txFault port high => Sys2Proof.Machine.execTxFault port high s
  | .modAbs port absent acknowledged a0 => Sys2Proof.Machine.execModAbs port absent acknowledged a0 s
  | .sfpA2Read port acknowledged a2 => Sys2Proof.Machine.execSfpA2Read port acknowledged a2 s
  | .keepAliveSend port => Sys2Proof.Machine.execKeepAliveSend port s
  | .keepAlive port frame => Sys2Proof.Machine.execKeepAlive port frame s
  | .keepAliveLoss port => Sys2Proof.Machine.execKeepAliveLoss port s
  | .idAssign => Sys2Proof.Machine.execIdAssign s
  | .seed => Sys2Proof.Machine.execSeed s
  | .idRetake => Sys2Proof.Machine.execIdRetake s
  | .presentSend => Sys2Proof.Machine.execPresentSend s
  | .join port frame => Sys2Proof.Machine.execJoin port frame s
  | .present port frame => Sys2Proof.Machine.execPresent port frame s
  | .leave port frame => Sys2Proof.Machine.execLeave port frame s
  | .breakAnnouncement port frame => Sys2Proof.Machine.execBreakAnnouncement port frame s
  | .heal port frame => Sys2Proof.Machine.execHeal port frame s
  | .hopsExpire id port => Sys2Proof.Machine.execHopsExpire id port s
  | .linkStable port => Sys2Proof.Machine.execLinkStable port s
  | .healInstant sender port => Sys2Proof.Machine.execHealInstant sender port s
  | .steerHold flow => Sys2Proof.Machine.execSteerHold flow s
  | .wake req value => Sys2Proof.Machine.execWake req value s
  | .neighbourDelayRequestSend port => Sys2Proof.Machine.execNeighbourDelayRequestSend port s
  | .neighbourDelayRequest port stamp frame => Sys2Proof.Machine.execNeighbourDelayRequest port stamp frame s
  | .neighbourDelayResponse port stamp frame => Sys2Proof.Machine.execNeighbourDelayResponse port stamp frame s
  | .pdLost port => Sys2Proof.Machine.execPdLost port s
  | .syncSend => Sys2Proof.Machine.execSyncSend s
  | .timeSync port stamp frame => Sys2Proof.Machine.execTimeSync port stamp frame s
  | .syncTo => Sys2Proof.Machine.execSyncTo s
  | .masterClaim => Sys2Proof.Machine.execMasterClaim s
  | .holdValid => Sys2Proof.Machine.execHoldValid s
  | .fallBackLoad => Sys2Proof.Machine.execFallBackLoad s
  | .nowLo req => Sys2Proof.Machine.execNowLo req s
  | .fbInc req value => Sys2Proof.Machine.execFbInc req value s
  | .sampleInstant track => Sys2Proof.Machine.execSampleInstant track s
  | .ssiReadEnd unit raw first last => Sys2Proof.Machine.execSsiReadEnd unit raw first last s
  | .trackSample frame => Sys2Proof.Machine.execTrackSample frame s
  | .conversionPass track => Sys2Proof.Machine.execConversionPass track s
  | .conversion owner number => Sys2Proof.Machine.execConversion owner number s
  | .ageLim track => Sys2Proof.Machine.execAgeLim track s
  | .ageLim2 track => Sys2Proof.Machine.execAgeLim2 track s
  | .presetCmd req track value => Sys2Proof.Machine.execPresetCmd req track value s
  | .statsClr req track mask => Sys2Proof.Machine.execStatsClr req track mask s
  | .fbMiss track profile => Sys2Proof.Machine.execFbMiss track profile s
  | .smpTsLo req track => Sys2Proof.Machine.execSmpTsLo req track s
  | .nowPosLo req track => Sys2Proof.Machine.execNowPosLo req track s
  | .samplingInstant epoch => Sys2Proof.Machine.execSamplingInstant epoch s
  | .closeInstant => Sys2Proof.Machine.execCloseInstant s
  | .atriumSlot frame => Sys2Proof.Machine.execAtriumSlot frame s
  | .ready req => Sys2Proof.Machine.execReady req s
  | .publishBufferWrite req offset size value => Sys2Proof.Machine.execPublishBufferWrite req offset size value s
  | .epochLo req => Sys2Proof.Machine.execEpochLo req s
  | .remoteWriteIssue req n window node bulk addr acc data => Sys2Proof.Machine.execRemoteWriteIssue req n window node bulk addr acc data s
  | .remoteReadIssue req n window node bulk addr acc len => Sys2Proof.Machine.execRemoteReadIssue req n window node bulk addr acc len s
  | .remoteWrite frame => Sys2Proof.Machine.execRemoteWrite frame s
  | .remoteReadRequest frame uncorr => Sys2Proof.Machine.execRemoteReadRequest frame uncorr s
  | .readResponse frame => Sys2Proof.Machine.execReadResponse frame s
  | .rdTo slot => Sys2Proof.Machine.execRdTo slot s
  | .tagSlotRelease slot => Sys2Proof.Machine.execTagSlotRelease slot s
  | .interruptMessageSend entry => Sys2Proof.Machine.execInterruptMessageSend entry s
  | .irqSend req value => Sys2Proof.Machine.execIrqSend req value s
  | .interruptMessage port frame => Sys2Proof.Machine.execInterruptMessage port frame s
  | .irqHeldRelease src seq => Sys2Proof.Machine.execIrqHeldRelease src seq s
  | .irqHold src seq => Sys2Proof.Machine.execIrqHold src seq s
  | .routedMessage frame => Sys2Proof.Machine.execRoutedMessage frame s
  | .stewardMessage frame => Sys2Proof.Machine.execStewardMessage frame s
  | .mirrorCopy frame => Sys2Proof.Machine.execMirrorCopy frame s
  | .tunnelledEthernetFrame frame buffers cut => Sys2Proof.Machine.execTunnelledEthernetFrame frame buffers cut s
  | .bulkAdmission => Sys2Proof.Machine.execBulkAdmission s
  | .expressAdmission => Sys2Proof.Machine.execExpressAdmission s
  | .pinAge flow => Sys2Proof.Machine.execPinAge flow s
  | .lensEpoch => Sys2Proof.Machine.execLensEpoch s
  | .trainingEnd passed mr4 => Sys2Proof.Machine.execTrainingEnd passed mr4 s
  | .qdDepth req => Sys2Proof.Machine.execQdDepth req s
  | .tokenRefill => Sys2Proof.Machine.execTokenRefill s
  | .rawEdge channel level => Sys2Proof.Machine.execRawEdge channel level s
  | .filteredEdge channel withPair => Sys2Proof.Machine.execFilteredEdge channel withPair s
  | .outLevel req channel level => Sys2Proof.Machine.execOutLevel req channel level s
  | .outDuty req channel duty => Sys2Proof.Machine.execOutDuty req channel duty s
  | .qE3 req channel tag => Sys2Proof.Machine.execQE3 req channel tag s
  | .queueEntryFire channel => Sys2Proof.Machine.execQueueEntryFire channel s
  | .pendingEnd channel => Sys2Proof.Machine.execPendingEnd channel s
  | .flush req channel => Sys2Proof.Machine.execFlush req channel s
  | .rearm req channel => Sys2Proof.Machine.execRearm req channel s
  | .capClr req channel => Sys2Proof.Machine.execCapClr req channel s
  | .capAck req channel n => Sys2Proof.Machine.execCapAck req channel n s
  | .cnt req channel value => Sys2Proof.Machine.execCnt req channel value s
  | .capLo req channel => Sys2Proof.Machine.execCapLo req channel s
  | .fireInfo req channel => Sys2Proof.Machine.execFireInfo req channel s
  | .readback channel => Sys2Proof.Machine.execReadback channel s
  | .supplyRange bank => Sys2Proof.Machine.execSupplyRange bank s
  | .txd req page off value => Sys2Proof.Machine.execTxd req page off value s
  | .stallTo page => Sys2Proof.Machine.execStallTo page s
  | .rxd req page off => Sys2Proof.Machine.execRxd req page off s
  | .txFlush req page => Sys2Proof.Machine.execTxFlush req page s
  | .rxFlush req page => Sys2Proof.Machine.execRxFlush req page s
  | .tsClr req page => Sys2Proof.Machine.execTsClr req page s
  | .tsAck req page value => Sys2Proof.Machine.execTsAck req page value s
  | .rxTo page => Sys2Proof.Machine.execRxTo page s
  | .uartCharacterReceive unit rx ago old => Sys2Proof.Machine.execUartCharacterReceive unit rx ago old s
  | .uartCharacterTransmit unit => Sys2Proof.Machine.execUartCharacterTransmit unit s
  | .messageEnd unit => Sys2Proof.Machine.execMessageEnd unit s
  | .wakeIol req unit value => Sys2Proof.Machine.execWakeIol req unit value s
  | .respTo unit => Sys2Proof.Machine.execRespTo unit s
  | .frame req unit value => Sys2Proof.Machine.execFrame req unit value s
  | .spiWord unit data old => Sys2Proof.Machine.execSpiWord unit data old s
  | .csDeassert unit partWord => Sys2Proof.Machine.execCsDeassert unit partWord s
  | .ssiCtlRead req unit value => Sys2Proof.Machine.execSsiCtlRead req unit value s
  | .i2cTransmitEntry unit ack arb bytes ago => Sys2Proof.Machine.execI2cTransmitEntry unit ack arb bytes ago s
  | .stretchTo unit => Sys2Proof.Machine.execStretchTo unit s
  | .ownAddressMatched unit read ago => Sys2Proof.Machine.execOwnAddressMatched unit read ago s
  | .slvStretchMax unit nack => Sys2Proof.Machine.execSlvStretchMax unit nack s
  | .start req unit => Sys2Proof.Machine.execStart req unit s
  | .stop req unit => Sys2Proof.Machine.execStop req unit s
  | .evtClr req unit => Sys2Proof.Machine.execEvtClr req unit s
  | .groupStart req unit value => Sys2Proof.Machine.execGroupStart req unit value s
  | .startAt req unit value => Sys2Proof.Machine.execStartAt req unit value s
  | .startInstant unit => Sys2Proof.Machine.execStartInstant unit s
  | .groupStop req unit value => Sys2Proof.Machine.execGroupStop req unit value s
  | .groupRestart req unit value => Sys2Proof.Machine.execGroupRestart req unit value s
  | .restartAt req unit value => Sys2Proof.Machine.execRestartAt req unit value s
  | .programMemoryWrite req unit word value => Sys2Proof.Machine.execProgramMemoryWrite req unit word value s
  | .sumCalc unit => Sys2Proof.Machine.execSumCalc unit s
  | .w req unit index value => Sys2Proof.Machine.execW req unit index value s
  | .inq req unit off value => Sys2Proof.Machine.execInq req unit off value s
  | .outq req unit off => Sys2Proof.Machine.execOutq req unit off s
  | .inFlush req unit => Sys2Proof.Machine.execInFlush req unit s
  | .outFlush req unit => Sys2Proof.Machine.execOutFlush req unit s
  | .stampLo req unit => Sys2Proof.Machine.execStampLo req unit s
  | .nop unit => Sys2Proof.Machine.execNop unit s
  | .ldi unit => Sys2Proof.Machine.execLdi unit s
  | .lui unit => Sys2Proof.Machine.execLui unit s
  | .mov unit => Sys2Proof.Machine.execMov unit s
  | .add unit => Sys2Proof.Machine.execAdd unit s
  | .sub unit => Sys2Proof.Machine.execSub unit s
  | .and unit => Sys2Proof.Machine.execAnd unit s
  | .or unit => Sys2Proof.Machine.execOr unit s
  | .xor unit => Sys2Proof.Machine.execXor unit s
  | .shl unit => Sys2Proof.Machine.execShl unit s
  | .shr unit => Sys2Proof.Machine.execShr unit s
  | .sar unit => Sys2Proof.Machine.execSar unit s
  | .addi unit => Sys2Proof.Machine.execAddi unit s
  | .mul unit => Sys2Proof.Machine.execMul unit s
  | .ld unit => Sys2Proof.Machine.execLd unit s
  | .st unit => Sys2Proof.Machine.execSt unit s
  | .jmp unit => Sys2Proof.Machine.execJmp unit s
  | .jcc unit => Sys2Proof.Machine.execJcc unit s
  | .djnz unit => Sys2Proof.Machine.execDjnz unit s
  | .call unit => Sys2Proof.Machine.execCall unit s
  | .ret unit => Sys2Proof.Machine.execRet unit s
  | .halt unit => Sys2Proof.Machine.execHalt unit s
  | .pdir unit => Sys2Proof.Machine.execPdir unit s
  | .pout unit => Sys2Proof.Machine.execPout unit s
  | .poutr unit => Sys2Proof.Machine.execPoutr unit s
  | .pin unit => Sys2Proof.Machine.execPin unit s
  | .waitp unit => Sys2Proof.Machine.execWaitp unit s
  | .waitpEnd unit => Sys2Proof.Machine.execWaitpEnd unit s
  | .waitpTimeout unit => Sys2Proof.Machine.execWaitpTimeout unit s
  | .shifto unit => Sys2Proof.Machine.execShifto unit s
  | .shifti unit => Sys2Proof.Machine.execShifti unit s
  | .time unit => Sys2Proof.Machine.execTime unit s
  | .stamp unit => Sys2Proof.Machine.execStamp unit s
  | .waitt unit => Sys2Proof.Machine.execWaitt unit s
  | .waittEnd unit => Sys2Proof.Machine.execWaittEnd unit s
  | .delay unit => Sys2Proof.Machine.execDelay unit s
  | .delayEnd unit => Sys2Proof.Machine.execDelayEnd unit s
  | .pull unit => Sys2Proof.Machine.execPull unit s
  | .pullWaitEnd unit => Sys2Proof.Machine.execPullWaitEnd unit s
  | .push unit => Sys2Proof.Machine.execPush unit s
  | .pushWaitEnd unit => Sys2Proof.Machine.execPushWaitEnd unit s
  | .pub unit => Sys2Proof.Machine.execPub unit s
  | .irq unit => Sys2Proof.Machine.execIrq unit s
  | .armt unit => Sys2Proof.Machine.execArmt unit s
  | .armp unit => Sys2Proof.Machine.execArmp unit s
  | .waite unit => Sys2Proof.Machine.execWaite unit s
  | .waiteEnd unit => Sys2Proof.Machine.execWaiteEnd unit s
  | .cancel unit => Sys2Proof.Machine.execCancel unit s
  | .tpos unit => Sys2Proof.Machine.execTpos unit s
  | .tnow unit => Sys2Proof.Machine.execTnow unit s
  | .illegalInstruction unit => Sys2Proof.Machine.execIllegalInstruction unit s
  | .actionSlotFire unit slot => Sys2Proof.Machine.execActionSlotFire unit slot s
  | .go req unit value => Sys2Proof.Machine.execGo req unit value s
  | .canCancel req unit value => Sys2Proof.Machine.execCanCancel req unit value s
  | .recover req unit value => Sys2Proof.Machine.execRecover req unit value s
  | .integratingEnd unit => Sys2Proof.Machine.execIntegratingEnd unit s
  | .busOffRecovery unit => Sys2Proof.Machine.execBusOffRecovery unit s
  | .transmitChoice unit idle => Sys2Proof.Machine.execTransmitChoice unit idle s
  | .canTransmissionEnd unit ago delay => Sys2Proof.Machine.execCanTransmissionEnd unit ago delay s
  | .arbitrationLost unit => Sys2Proof.Machine.execArbitrationLost unit s
  | .transmissionError unit eights delay => Sys2Proof.Machine.execTransmissionError unit eights delay s
  | .canFrameReceive unit frame ago own => Sys2Proof.Machine.execCanFrameReceive unit frame ago own s
  | .ethernetFrameReceive rx c8 => Sys2Proof.Machine.execEthernetFrameReceive rx c8 s
  | .controlRequest bytes => Sys2Proof.Machine.execControlRequest bytes s
  | .ethernetServiceFrame bytes => Sys2Proof.Machine.execEthernetServiceFrame bytes s
  | .ethLinkUp word => Sys2Proof.Machine.execEthLinkUp word s
  | .ethLinkDown => Sys2Proof.Machine.execEthLinkDown s
  | .verifyTime => Sys2Proof.Machine.execVerifyTime s
  | .mdio req value => Sys2Proof.Machine.execMdio req value s
  | .mdioFrameEnd data => Sys2Proof.Machine.execMdioFrameEnd data s
  | .wakeTx req value => Sys2Proof.Machine.execWakeTx req value s
  | .wakeTxEnd => Sys2Proof.Machine.execWakeTxEnd s
  | .pcieWriteTlp n bar off data => Sys2Proof.Machine.execPcieWriteTlp n bar off data s
  | .pcieReadTlp n bar off len => Sys2Proof.Machine.execPcieReadTlp n bar off len s
  | .qspiRead n addr len abandoned => Sys2Proof.Machine.execQspiRead n addr len abandoned s
  | .qspiQuadRead n addr len abandoned => Sys2Proof.Machine.execQspiQuadRead n addr len abandoned s
  | .qspiWrite n addr len data => Sys2Proof.Machine.execQspiWrite n addr len data s
  | .qspiQuadWrite n addr len data => Sys2Proof.Machine.execQspiQuadWrite n addr len data s
  | .qspiBad => Sys2Proof.Machine.execQspiBad s
  | .txProd req qp value => Sys2Proof.Machine.execTxProd req qp value s
  | .descriptorFetch qp words => Sys2Proof.Machine.execDescriptorFetch qp words s
  | .descriptorWrite qp buffer => Sys2Proof.Machine.execDescriptorWrite qp buffer s
  | .descriptorRead qp => Sys2Proof.Machine.execDescriptorRead qp s
  | .descriptorTunnel qp buffer => Sys2Proof.Machine.execDescriptorTunnel qp buffer s
  | .descriptorComplete qp => Sys2Proof.Machine.execDescriptorComplete qp s
  | .rxTail req qp value => Sys2Proof.Machine.execRxTail req qp value s
  | .qpStop qp err => Sys2Proof.Machine.execQpStop qp err s
  | .drainEnd qp => Sys2Proof.Machine.execDrainEnd qp s
  | .vpend req high bits => Sys2Proof.Machine.execVpend req high bits s
  | .msiXSend vector => Sys2Proof.Machine.execMsiXSend vector s
  | .send req mailbox len => Sys2Proof.Machine.execSend req mailbox len s
  | .ack req mailbox rc => Sys2Proof.Machine.execAck req mailbox rc s
  | .recall req mailbox => Sys2Proof.Machine.execRecall req mailbox s
  | .mailboxDataWrite req off size value => Sys2Proof.Machine.execMailboxDataWrite req off size value s
  | .ring req side bits => Sys2Proof.Machine.execRing req side bits s
  | .dbRawClear req side bits => Sys2Proof.Machine.execDbRawClear req side bits s
  | .on req unit value => Sys2Proof.Machine.execOn req unit value s
  | .unlatch req unit => Sys2Proof.Machine.execUnlatch req unit s
  | .enClr req unit => Sys2Proof.Machine.execEnClr req unit s
  | .shuntSample unit vsh edge => Sys2Proof.Machine.execShuntSample unit vsh edge s
  | .voltageSample unit drain millivolts vgs => Sys2Proof.Machine.execVoltageSample unit drain millivolts vgs s
  | .fastTrip unit vsh edge => Sys2Proof.Machine.execFastTrip unit vsh edge s
  | .rampTime unit edge => Sys2Proof.Machine.execRampTime unit edge s
  | .rampTurn unit => Sys2Proof.Machine.execRampTurn unit s
  | .backoffEnd unit => Sys2Proof.Machine.execBackoffEnd unit s
  | .vinInRange unit => Sys2Proof.Machine.execVinInRange unit s
  | .retryClr unit => Sys2Proof.Machine.execRetryClr unit s
  | .zeroCold unit => Sys2Proof.Machine.execZeroCold unit s
  | .zeroHot unit => Sys2Proof.Machine.execZeroHot unit s
  | .gateT unit vgs full => Sys2Proof.Machine.execGateT unit vgs full s
  | .offT unit => Sys2Proof.Machine.execOffT unit s
  | .chopCycle unit offset => Sys2Proof.Machine.execChopCycle unit offset s
  | .imeas req unit => Sys2Proof.Machine.execImeas req unit s
  | .energyLo req unit => Sys2Proof.Machine.execEnergyLo req unit s
  | .faultTransition sources => Sys2Proof.Machine.execFaultTransition sources s
  | .fence => Sys2Proof.Machine.execFence s
  | .release req key page => Sys2Proof.Machine.execRelease req key page s
  | .repeatClr page => Sys2Proof.Machine.execRepeatClr page s
  | .thermalReading t0 t1 t2 t3 => Sys2Proof.Machine.execThermalReading t0 t1 t2 t3 s
  | .stepMs => Sys2Proof.Machine.execStepMs s
  | .sensorDiff sensor => Sys2Proof.Machine.execSensorDiff sensor s
  | .ecall code ptr len => Sys2Proof.Machine.execEcall code ptr len s
  | .annexAccessFault addr kind => Sys2Proof.Machine.execAnnexAccessFault addr kind s
  | .copStart annex rd op => Sys2Proof.Machine.execCopStart annex rd op s
  | .copWait annex rd => Sys2Proof.Machine.execCopWait annex rd s
  | .copPoll annex rd => Sys2Proof.Machine.execCopPoll annex rd s
  | .copAbort annex rd => Sys2Proof.Machine.execCopAbort annex rd s
  | .sha256 => Sys2Proof.Machine.execSha256 s
  | .ecdsaP256 => Sys2Proof.Machine.execEcdsaP256 s
  | .aes256Gcm => Sys2Proof.Machine.execAes256Gcm s
  | .crc32c => Sys2Proof.Machine.execCrc32c s
  | .trackArithmetic => Sys2Proof.Machine.execTrackArithmetic s
  | .keyLoad => Sys2Proof.Machine.execKeyLoad s
  | .keyWrite => Sys2Proof.Machine.execKeyWrite s
  | .keyClear => Sys2Proof.Machine.execKeyClear s
  | .coprocessorComplete => Sys2Proof.Machine.execCoprocessorComplete s
  | .wdogKick req key => Sys2Proof.Machine.execWdogKick req key s
  | .wdogS => Sys2Proof.Machine.execWdogS s
  | .wdogA => Sys2Proof.Machine.execWdogA s
  | .stewardReady req key => Sys2Proof.Machine.execStewardReady req key s
  | .anxCtlStart req => Sys2Proof.Machine.execAnxCtlStart req s
  | .anxCtlStop req => Sys2Proof.Machine.execAnxCtlStop req s
  | .unload req => Sys2Proof.Machine.execUnload req s
  | .timerComparator annex value => Sys2Proof.Machine.execTimerComparator annex value s
  | .version cls => Sys2Proof.Machine.execVersion cls s
  | .status cls => Sys2Proof.Machine.execStatus cls s
  | .lcAdvance cls => Sys2Proof.Machine.execLcAdvance cls s
  | .keyRevoke cls => Sys2Proof.Machine.execKeyRevoke cls s
  | .anxStart cls => Sys2Proof.Machine.execAnxStart cls s
  | .anxStop cls => Sys2Proof.Machine.execAnxStop cls s
  | .anxPages cls => Sys2Proof.Machine.execAnxPages cls s
  | .gateRelease cls => Sys2Proof.Machine.execGateRelease cls s
  | .trans req key target => Sys2Proof.Machine.execTrans req key target s
  | .otpProg req key => Sys2Proof.Machine.execOtpProg req key s
  | .bootRomStart flashOk pot potUs => Sys2Proof.Machine.execBootRomStart flashOk pot potUs s
  | .updInfo cls => Sys2Proof.Machine.execUpdInfo cls s
  | .updBegin cls flashOk => Sys2Proof.Machine.execUpdBegin cls flashOk s
  | .updData cls flashOk => Sys2Proof.Machine.execUpdData cls flashOk s
  | .updVerify cls => Sys2Proof.Machine.execUpdVerify cls s
  | .verificationEnd flashOk => Sys2Proof.Machine.execVerificationEnd flashOk s
  | .updActivate cls flashOk => Sys2Proof.Machine.execUpdActivate cls flashOk s
  | .activationEnd flashOk => Sys2Proof.Machine.execActivationEnd flashOk s
  | .updConfirm cls flashOk => Sys2Proof.Machine.execUpdConfirm cls flashOk s
  | .autoConfirm flashOk => Sys2Proof.Machine.execAutoConfirm flashOk s
  | .updRevert cls flashOk => Sys2Proof.Machine.execUpdRevert cls flashOk s
  | .updAbort cls flashOk => Sys2Proof.Machine.execUpdAbort cls flashOk s
  | .updCellar cls flashOk => Sys2Proof.Machine.execUpdCellar cls flashOk s
  | .reboot => Sys2Proof.Machine.execReboot s
  | .bistPhaseEnd failed page detail => Sys2Proof.Machine.execBistPhaseEnd failed page detail s
  | .selfTestEnd => Sys2Proof.Machine.execSelfTestEnd s
  | .bistInfo cls => Sys2Proof.Machine.execBistInfo cls s
  | .unitTest cls => Sys2Proof.Machine.execUnitTest cls s
  | .unitAbort cls => Sys2Proof.Machine.execUnitAbort cls s
  | .unitTestEnd failed page detail => Sys2Proof.Machine.execUnitTestEnd failed page detail s
  | .serdesPllUnlock port => Sys2Proof.Machine.execSerdesPllUnlock port s
  | .referenceWaitLimit => Sys2Proof.Machine.execReferenceWaitLimit s
  | .rstNRelease => Sys2Proof.Machine.execRstNRelease s
  | .dramTimeout => Sys2Proof.Machine.execDramTimeout s
  | .mergedInterruptMessage entry => Sys2Proof.Machine.execMergedInterruptMessage entry s
  | .bankMeasurement bank millivolts => Sys2Proof.Machine.execBankMeasurement bank millivolts s
  | .pwmPeriod channel => Sys2Proof.Machine.execPwmPeriod channel s
  | .iolStageTimer unit => Sys2Proof.Machine.execIolStageTimer unit s
  | .csAssert unit ago => Sys2Proof.Machine.execCsAssert unit ago s
  | .i2cSlaveByte unit data nack => Sys2Proof.Machine.execI2cSlaveByte unit data nack s
  | .i2cBusStop unit => Sys2Proof.Machine.execI2cBusStop unit s
  | .shiftEnd unit => Sys2Proof.Machine.execShiftEnd unit s
  | .pinDeferEnd unit pin => Sys2Proof.Machine.execPinDeferEnd unit pin s
  | .receptionError unit first eights exception => Sys2Proof.Machine.execReceptionError unit first eights exception s
  | .pcieConfigurationRequest change => Sys2Proof.Machine.execPcieConfigurationRequest change s
  | .pcieLinkUp rate width => Sys2Proof.Machine.execPcieLinkUp rate width s
  | .pcieLinkDown => Sys2Proof.Machine.execPcieLinkDown s
  | .secureWatchdogHalf => Sys2Proof.Machine.execSecureWatchdogHalf s
  | .otpProgDone blown => Sys2Proof.Machine.execOtpProgDone blown s
  | .lcTransitionDone copies => Sys2Proof.Machine.execLcTransitionDone copies s

end Sys2Proof.Machine
end

