-- ==== Sys2Proof/Machine/Edge.lean ====
section
/-!
DEFINITION. Commands that fall on one edge of the 500 MHz clock: the order in which they join the queue (R37, R42, R43, R69, R208, R231, R234,
R315, R364, R405, R412, R438, R482, R503, R525, R551).
Where the manual is open: DEDUCED, log entry 54.
-/
namespace Sys2Proof.Machine

open Reg

/-- The requester whose access to a register a command is (R40). A remote access is its tenant's, a control request the committed control tenant's
(R454), a PCI Express, QSPI or descriptor one the local host's. -/
def Hub.requesterOf (h : Hub) : Instr → Option Req
  | .registerWrite req _ _ _ _ => some req
  | .xkeyOpen req _ => some req
  | .xkeyClose req _ _ => some req
  | .srst req _ => some req
  | .pgIrqRawClear req _ _ _ => some req
  | .pgFltClear req _ _ _ => some req
  | .discard req _ => some req
  | .validate req => some req
  | .commitNow req => some req
  | .commitAt req => some req
  | .commitEpoch req => some req
  | .abort req => some req
  | .revert req => some req
  | .maintEnter req => some req
  | .maintExit req => some req
  | .shelf req => some req
  | .test req => some req
  | .restart req => some req
  | .gateReq req _ => some req
  | .gateHold req _ => some req
  | .wake req _ => some req
  | .nowLo req => some req
  | .fbInc req _ => some req
  | .presetCmd req _ _ => some req
  | .statsClr req _ _ => some req
  | .smpTsLo req _ => some req
  | .nowPosLo req _ => some req
  | .ready req => some req
  | .publishBufferWrite req _ _ _ => some req
  | .epochLo req => some req
  | .remoteWriteIssue req _ _ _ _ _ _ _ => some req
  | .remoteReadIssue req _ _ _ _ _ _ _ => some req
  | .irqSend req _ => some req
  | .qdDepth req => some req
  | .outLevel req _ _ => some req
  | .outDuty req _ _ => some req
  | .qE3 req _ _ => some req
  | .flush req _ => some req
  | .rearm req _ => some req
  | .capClr req _ => some req
  | .capAck req _ _ => some req
  | .cnt req _ _ => some req
  | .capLo req _ => some req
  | .fireInfo req _ => some req
  | .txd req _ _ _ => some req
  | .rxd req _ _ => some req
  | .txFlush req _ => some req
  | .rxFlush req _ => some req
  | .tsClr req _ => some req
  | .tsAck req _ _ => some req
  | .wakeIol req _ _ => some req
  | .frame req _ _ => some req
  | .ssiCtlRead req _ _ => some req
  | .start req _ => some req
  | .stop req _ => some req
  | .evtClr req _ => some req
  | .groupStart req _ _ => some req
  | .startAt req _ _ => some req
  | .groupStop req _ _ => some req
  | .groupRestart req _ _ => some req
  | .restartAt req _ _ => some req
  | .programMemoryWrite req _ _ _ => some req
  | .w req _ _ _ => some req
  | .inq req _ _ _ => some req
  | .outq req _ _ => some req
  | .inFlush req _ => some req
  | .outFlush req _ => some req
  | .stampLo req _ => some req
  | .go req _ _ => some req
  | .canCancel req _ _ => some req
  | .recover req _ _ => some req
  | .mdio req _ => some req
  | .wakeTx req _ => some req
  | .txProd req _ _ => some req
  | .rxTail req _ _ => some req
  | .vpend req _ _ => some req
  | .send req _ _ => some req
  | .ack req _ _ => some req
  | .recall req _ => some req
  | .mailboxDataWrite req _ _ _ => some req
  | .ring req _ _ => some req
  | .dbRawClear req _ _ => some req
  | .on req _ _ => some req
  | .unlatch req _ => some req
  | .enClr req _ => some req
  | .imeas req _ => some req
  | .energyLo req _ => some req
  | .release req _ _ => some req
  | .wdogKick req _ => some req
  | .stewardReady req _ => some req
  | .anxCtlStart req => some req
  | .anxCtlStop req => some req
  | .unload req => some req
  | .trans req _ _ => some req
  | .otpProg req _ => some req
  | .remoteWrite f => some (.tenant f.hdr.ten)
  | .remoteReadRequest f _ => some (.tenant f.hdr.ten)
  | .pcieWriteTlp _ _ _ _ => some .host
  | .pcieReadTlp _ _ _ _ => some .host
  | .qspiWrite _ _ _ _ => some .host
  | .qspiQuadWrite _ _ _ _ => some .host
  | .qspiRead _ _ _ _ => some .host
  | .qspiQuadRead _ _ _ _ => some .host
  | .descriptorWrite _ _ => some .host
  | .descriptorRead _ => some .host
  | .controlRequest _ => some (.tenant (h.cfg pEth ETH.CTRL_TEN))
  | _ => none

/-- The place of a requester among writes that reach a register on one edge: the last prevails (R43). -/
def writePlace : Req → Nat
  | .annex => 0
  | .tenant t => 8 - t % 8
  | .host => 9
  | .secure => 10

/-- The bytes of the local map that a host access writes, from a target with its data (R465, R470). -/
def Hub.hostBytes (h : Hub) (t : HostTarget) (data : List Byte) : Option (Nat × List Byte) :=
  match h.hostAccess t 0 data.length with
  | some x => if h.isHere x.node then some (x.addr, data) else none
  | none => none

/-- The bytes of the local map that a command writes through a bus, with the address of the first. -/
def Hub.busBytes (h : Hub) : Instr → Option (Nat × List Byte)
  | .remoteWrite f => some (addressOf f, f.payload.drop 8)
  | .remoteWriteIssue req n window node bulk addr acc data =>
    (match h.accessOf req n window node bulk addr (2 ^ (acc % 4)) with
     | some x => if h.isHere x.node then some (x.addr, data) else none
     | none => none)
  | .pcieWriteTlp _ bar off data => h.hostBytes (barTarget bar off) data
  | .qspiWrite _ addr _ data => h.hostBytes (qspiTarget addr) data
  | .qspiQuadWrite _ addr _ data => h.hostBytes (qspiTarget addr) data
  | .controlRequest bytes =>
    let b := (controlBody bytes).2
    if leNat ((b.drop 10).take 1) % 2 = 0 ∧ h.isHere (leNat ((b.drop 4).take 6) / 2 ^ 36) then
      some (leNat ((b.drop 4).take 6) % 2 ^ 36, b.drop 16)
    else none
  | .descriptorWrite qp buffer =>
    (match h.pendingDesc qp 1 with
     | some d => if h.isHere (h.descAccess qp d).node then some ((h.descAccess qp d).addr, buffer.take (d.word 0 % 65536)) else none
     | none => none)
  | _ => none

/-- The words that a command writes into the register pages, each with its page, its offset and its value. -/
def Hub.wordsWritten (h : Hub) : Instr → List (Nat × Nat × Nat)
  | .registerWrite _ page off _ value => [(page, off, value)]
  | c =>
    match h.busBytes c with
    | none => []
    | some (a, bs) =>
      if a < 0x40000000 ∨ 0x41000000 ≤ a then []
      else (List.range ((bs.length + 3) / 4)).map (fun i => ((a + 4 * i) / 4096 % 4096, (a + 4 * i) % 4096, leNat ((bs.drop (4 * i)).take 4)))

/-- The place of a word among those written to one mailbox, in the order ACK, RECALL, SEND, data write (R482). -/
def mailWord (w : Nat × Nat × Nat) : Option Nat :=
  if w.1 ≠ pMbx then none
  else if w.2.1 = 0x0C0 then
    (match w.2.2 / 2 ^ 28 % 16 with
     | 2 => some 0
     | 3 => some 1
     | 1 => some 2
     | _ => none)
  else if 0xC00 ≤ w.2.1 then some 3
  else none

/-- The places of the commands to one mailbox (R482). -/
def Hub.mailPlace (h : Hub) : Instr → Option Nat
  | .ack _ _ _ => some 0
  | .recall _ _ => some 1
  | .send _ _ _ => some 2
  | .mailboxDataWrite _ _ _ _ => some 3
  | c => ((h.wordsWritten c).filterMap mailWord).head?

/-- Whether a written word is one of flags that the hardware may set on the same edge: PG_IRQ_RAW, PG_FLT and DB_RAW (R37, R525). -/
def flagWord (w : Nat × Nat × Nat) : Bool :=
  w.2.1 == 0x010 || w.2.1 == 0x01C || (w.1 == pMbx && (List.range 4).any (fun i => w.2.1 == (MBX.DB_RAW_BITS i).off))

/-- Whether a command clears flags that the hardware may set on the same edge, by whatever path it reaches them. -/
def Hub.clearsFlags (h : Hub) : Instr → Bool
  | .pgIrqRawClear _ _ _ _ => true
  | .pgFltClear _ _ _ _ => true
  | .dbRawClear _ _ _ => true
  | c => (h.wordsWritten c).any flagWord

/-- The place of a write or read by its requester: behind what the hardware does on the edge (R43), a mailbox's commands in their own order (R482).
A write that clears flags comes before the events that set them (R37, R525). -/
def Hub.accessRank (h : Hub) (c : Instr) (r : Req) : Nat :=
  match h.mailPlace c with
  | some p => 120 + p
  | none => (if h.clearsFlags c then 3 else 100) + writePlace r

/-- The place of a command among those of one edge. The commit comes first, before every write and every fault (R42, R518), then what clears flags; a
refill precedes its charges (R315), a CAN frame is stored before a hold that begins (R438), and an operation completes before it is aborted or its page
fenced (R551). A close precedes a sampling (R231), and a sampling READY and PUB (R234, R414); an engine's instruction precedes its slots (R405), a
damage finding a trip, and FAST VIN out of range (R503). The accesses follow (R43), so that a pop or a flush comes before a push of the hardware (R364)
and a start of the coprocessor before its gate (R551). A sample is taken after the actions queued on its edge (R221) and before the age limits (R208);
WAITE reads the flags last (R412). -/
def Hub.edgeRank (h : Hub) (c : Instr) : Nat :=
  match c with
  | .commitInstant => 2
  | .tokenRefill => 14
  | .canFrameReceive _ _ _ _ => 15
  | .coprocessorComplete => 15
  | .supplyLost _ => 16
  | .clockLoss => 16
  | .thermalReading _ _ _ _ => 17
  | .faultTransition _ => 18
  | .ref25Lost => 19
  | .pllUnlock _ => 19
  | .ringLost => 22
  | .fence => 24
  | .closeInstant => 28
  | .samplingInstant _ => 30
  | .offT _ => 57
  | .gateT _ _ _ => 57
  | .fastTrip _ _ _ => 58
  | .voltageSample _ _ _ _ => 59
  | .actionSlotFire _ slot => 62 + slot % 16
  | .gateTakeEffect _ => 130
  | .uartCharacterReceive _ _ _ _ => 140
  | .messageEnd _ => 140
  | .respTo _ => 140
  | .spiWord _ _ _ => 140
  | .i2cTransmitEntry _ _ _ _ _ => 140
  | .stretchTo _ => 140
  | .ownAddressMatched _ _ _ => 140
  | .i2cSlaveByte _ _ _ => 140
  | .i2cBusStop _ => 140
  | .push _ => 140
  | .pushWaitEnd _ => 140
  | .sampleInstant _ => 150
  | .ssiReadEnd _ _ _ _ => 150
  | .trackSample _ => 150
  | .ageLim _ => 151
  | .ageLim2 _ => 151
  | .waite _ => 152
  | .waiteEnd _ => 152
  | c =>
    match h.requesterOf c with
    | none => 60
    | some r => h.accessRank c r

/-- The commands of one edge in the order in which they take effect; those of one place keep their order. -/
def Hub.edgeOrder (h : Hub) (cs : List Instr) : List Instr := cs.insertionSort (fun a b => h.edgeRank a ≤ h.edgeRank b)

/-- The sizes of the groups of commands that wait, with the commands that came by themselves each a group of its own. -/
def Hub.groupsOf (h : Hub) (waiting : Nat) : List Nat :=
  h.edge.groups ++ List.replicate (waiting - h.edge.groups.sum) 1

/-- Commands that fall on one edge join the queue. A command that is put into the queue by itself has an edge of its own. -/
def State.arrive (s : State) (cs : List Instr) : State :=
  { pending := s.pending ++ s.hub.edgeOrder cs
    hub := { s.hub with edge := { s.hub.edge with groups := s.hub.groupsOf s.pending.length ++ [cs.length] } } }

end Sys2Proof.Machine
end

