-- ==== Sys2Proof/Machine/Tick.lean ====
section
/-!
DEFINITION. The edge of the 500 MHz clock that passes while no command waits.
Where the manual is open: DESIGN CHOICE, log entry 5.
-/
namespace Sys2Proof.Machine

open Reg

/-- Whether a cell time of 6.4 ns ends within the edge that takes C on from a count: five sixteenths of a cell time (R11, R285). -/
def cellEdge (c : Nat) : Bool := (c + 1) * 5 / 16 != c * 5 / 16

/-- Whether the crossbar or the DRAM's staging area has cells to move. -/
def Hub.cellsWait (h : Hub) : Bool := h.sw.voq != [] || h.sw.queues != []

/-- The junction temperature that the stamps use, sampled from THERM every 1 ms of C (R175; the phase of the sampling is a DESIGN CHOICE, log
entry 56). -/
def Hub.sampledTj (h : Hub) : Nat := if h.time.c % 500000 = 0 then h.get pTherm THERM.STAT_TJ else h.time.tj

/-- One edge of the 500 MHz domain: C counts, and the fall-back path adds FB_INC (R169, R172); a cell time of the crossbar passes where one ends within
it (R285), the bridge serves what had to wait (R264), and the local Ethernet port's frames end (R461); it ends as a command does. While the core does
not run, no clock of it does (R100, R103). -/
def Hub.tick (h : Hub) : Hub :=
  if h.coreRuns = false then h.begin
  else
    let g := h.prismUnits.foldl (fun g e => g.prismLeave e) h.begin
    let g : Hub := { g with
      clock := h.clock + 1
      time := { h.time with
        tj := h.sampledTj
        c := (h.time.c + 1) % 2 ^ 64
        fb := (h.time.fb + h.get pTime TIME.FB_INC_INC) % 2 ^ 88 } }
    let g := (if cellEdge h.clock && g.cellsWait then g.cellTime else g).bridgeEdge.etherEdge
    (g.prismUnits.foldl (fun g e => g.prismEnter e) g).finish h

/-- The machine after an edge. -/
def State.tick (s : State) : State := { s with hub := s.hub.tick }

end Sys2Proof.Machine
end

