-- ==== Sys2Proof/WellFormed.lean ====
section
/-!
DEFINITION. Well-formed commands: every operand within the range that the manual gives it. A command whose operands lie outside is no
command of the hub; what the meanings do with one is of no account.
-/
namespace Sys2Proof

/-- A number below a bound: an instance, a page, a field of a register or of a frame. -/
def below (v n : Nat) : Bool := decide (v < n)

/-- Tenants are numbered 0 to 7 (R40). -/
def Req.wf : Req → Bool
  | .tenant t => below t 8
  | _ => true

/-- Banks are numbered 0 to 15 (R95). -/
def Supply.wf : Supply → Bool
  | .bank k => below k 16
  | _ => true

/-- Every field of a header fits its width (R120). -/
def Header.wf (x : Header) : Bool :=
  below x.ver 4 && below x.type 64 && below x.ten 16 && below x.dst 4096 && below x.src 4096 && below x.seq (2 ^ 16) && below x.len (2 ^ 14)
    && below x.hops (2 ^ 14) && below x.flow (2 ^ 16) && below x.tag (2 ^ 16) && below x.aux (2 ^ 16)

/-- A frame's header fits, and its LEN is the length of its payload (R120). -/
def Frame.wf (f : Frame) : Bool := f.hdr.wf && f.payload.length == f.hdr.len

/-- A CAN frame's identifier fits its format, its data has the length of its DLC, and only an FD frame switches the bit rate and only a Classical
frame is a remote frame (R423, R431, R439). -/
def CanFrame.wf (f : CanFrame) : Bool :=
  below f.id (if f.ide then 2 ^ 29 else 2 ^ 11) && below f.dlc 16 && !(f.fdf && f.rtr) && (f.fdf || !(f.brs || f.esi))
    && f.data.length == (if f.rtr then 0 else canLength f.fdf f.dlc)

/-- Whether a command's operands are well formed. -/
def wellFormed : Instr → Bool
  | .registerWrite req page off size value => req.wf && below page 4096 && below off 4096 && below size 4096 && below value (2 ^ 32)
  | .xkeyOpen req page => req.wf && below page 4096
  | .xkeyClose req page value => req.wf && below page 4096 && below value (2 ^ 32)
  | .srst req page => req.wf && below page 4096
  | .pgIrqRawClear req page mask setNow => req.wf && below page 4096 && below mask (2 ^ 32) && below setNow (2 ^ 32)
  | .pgFltClear req page mask active => req.wf && below page 4096 && below mask (2 ^ 32) && below active (2 ^ 16)
  | .discard req page => req.wf && below page 4096
  | .validate req => req.wf
  | .commitNow req => req.wf
  | .commitAt req => req.wf
  | .commitEpoch req => req.wf
  | .abort req => req.wf
  | .validationEnd _ => true
  | .commitInstant => true
  | .commitRefusedLate => true
  | .revert req => req.wf
  | .maintEnter req => req.wf
  | .maintExit req => req.wf
  | .shelf req => req.wf
  | .safestop req => req.wf
  | .test req => req.wf
  | .restart req => req.wf
  | .armedToRunning => true
  | .armedWait10s => true
  | .ringLost => true
  | .ringRejoined => true
  | .supplyPresent domain millivolts => domain.wf && below millivolts (2 ^ 16)
  | .supplyLost domain => domain.wf
  | .powerOn _ => true
  | .wakeEvent _ => true
  | .powerOnHoldEnd => true
  | .referenceValid _ => true
  | .corePllLock _ _ _ _ => true
  | .ref25Lost => true
  | .corePllSwitchover => true
  | .ref156Lost => true
  | .clockLoss => true
  | .pllUnlock _ => true
  | .rstN => true
  | .perstN => true
  | .gateReq req value => req.wf && below value (2 ^ 32)
  | .gateHold req value => req.wf && below value (2 ^ 32)
  | .gateTakeEffect group => below group 12
  | .ungateComplete group => below group 12
  | .transmitFrame port stamp _ _ _ _ => below port 8 && below stamp (2 ^ 67)
  | .transitFrame port stamp sd _ _ => below port 2 && below stamp (2 ^ 67) && below sd (2 ^ 16)
  | .bulkFragment port sd _ => below port 2 && below sd (2 ^ 16)
  | .receiveEnergy port _ => below port 2
  | .autoDwell port => below port 2
  | .blockLock port => below port 2
  | .lockingTimeout port => below port 2
  | .helloSend port => below port 2
  | .hello port frame => below port 2 && frame.wf
  | .helloTimeout port => below port 2
  | .lossOfLock port _ _ => below port 2
  | .hiBer port _ => below port 2
  | .settlingTimeout port => below port 2
  | .downHoldEnd port => below port 2
  | .bulkHold port queue => below port 2 && below queue 16
  | .txFault port _ => below port 2
  | .modAbs port _ _ _ => below port 2
  | .sfpA2Read port _ _ => below port 2
  | .keepAliveSend port => below port 2
  | .keepAlive port frame => below port 2 && frame.wf
  | .keepAliveLoss port => below port 2
  | .idAssign => true
  | .seed => true
  | .idRetake => true
  | .presentSend => true
  | .join port frame => below port 2 && frame.wf
  | .present port frame => below port 2 && frame.wf
  | .leave port frame => below port 2 && frame.wf
  | .breakAnnouncement port frame => below port 2 && frame.wf
  | .heal port frame => below port 2 && frame.wf
  | .hopsExpire _ port => below port 2
  | .linkStable port => below port 2
  | .healInstant _ port => below port 2
  | .steerHold flow => below flow (2 ^ 16)
  | .wake req value => req.wf && below value (2 ^ 32)
  | .neighbourDelayRequestSend port => below port 2
  | .neighbourDelayRequest port stamp frame => below port 2 && below stamp (2 ^ 67) && frame.wf
  | .neighbourDelayResponse port stamp frame => below port 2 && below stamp (2 ^ 67) && frame.wf
  | .pdLost port => below port 2
  | .syncSend => true
  | .timeSync port stamp frame => below port 2 && below stamp (2 ^ 67) && frame.wf
  | .syncTo => true
  | .masterClaim => true
  | .holdValid => true
  | .fallBackLoad => true
  | .nowLo req => req.wf
  | .fbInc req value => req.wf && below value (2 ^ 32)
  | .sampleInstant track => below track 16
  | .ssiReadEnd unit _ _ _ => below unit 8
  | .trackSample frame => frame.wf
  | .conversionPass track => below track 16
  | .conversion _ _ => true
  | .ageLim track => below track 16
  | .ageLim2 track => below track 16
  | .presetCmd req track value => req.wf && below track 16 && below value (2 ^ 32)
  | .statsClr req track mask => req.wf && below track 16 && below mask (2 ^ 32)
  | .fbMiss track profile => below track 16 && below profile 4
  | .smpTsLo req track => req.wf && below track 16
  | .nowPosLo req track => req.wf && below track 16
  | .samplingInstant epoch => below epoch (2 ^ 64)
  | .closeInstant => true
  | .atriumSlot frame => frame.wf
  | .ready req => req.wf
  | .publishBufferWrite req _ size value => req.wf && below size 4096 && below value (2 ^ 32)
  | .epochLo req => req.wf
  | .remoteWriteIssue req _ _ node _ addr acc _ => req.wf && below node 4096 && below addr (2 ^ 36) && below acc 256
  | .remoteReadIssue req _ _ node _ addr acc len => req.wf && below node 4096 && below addr (2 ^ 36) && below acc 256 && below len (2 ^ 16)
  | .remoteWrite frame => frame.wf
  | .remoteReadRequest frame _ => frame.wf
  | .readResponse frame => frame.wf
  | .rdTo slot => below slot 320
  | .tagSlotRelease slot => below slot 320
  | .interruptMessageSend entry => below entry 32
  | .irqSend req value => req.wf && below value (2 ^ 32)
  | .interruptMessage port frame => below port 2 && frame.wf
  | .irqHeldRelease _ seq => below seq (2 ^ 16)
  | .irqHold _ seq => below seq (2 ^ 16)
  | .routedMessage frame => frame.wf
  | .stewardMessage frame => frame.wf
  | .mirrorCopy frame => frame.wf
  | .tunnelledEthernetFrame frame _ _ => frame.wf
  | .bulkAdmission => true
  | .expressAdmission => true
  | .pinAge flow => below flow (2 ^ 16)
  | .lensEpoch => true
  | .trainingEnd _ mr4 => below mr4 256
  | .qdDepth req => req.wf
  | .tokenRefill => true
  | .rawEdge channel _ => below channel 132
  | .filteredEdge channel _ => below channel 128
  | .outLevel req channel _ => req.wf && below channel 128
  | .outDuty req channel duty => req.wf && below channel 128 && below duty (2 ^ 16)
  | .qE3 req channel tag => req.wf && below channel 128 && below tag (2 ^ 16)
  | .queueEntryFire channel => below channel 128
  | .pendingEnd channel => below channel 128
  | .flush req channel => req.wf && below channel 128
  | .rearm req channel => req.wf && below channel 128
  | .capClr req channel => req.wf && below channel 128
  | .capAck req channel n => req.wf && below channel 128 && below n 256
  | .cnt req channel value => req.wf && below channel 128 && below value (2 ^ 32)
  | .capLo req channel => req.wf && below channel 128
  | .fireInfo req channel => req.wf && below channel 128
  | .readback channel => below channel 128
  | .supplyRange bank => below bank 16
  | .txd req page off value => req.wf && below page 4096 && below off 4096 && below value (2 ^ 32)
  | .stallTo page => below page 4096
  | .rxd req page off => req.wf && below page 4096 && below off 4096
  | .txFlush req page => req.wf && below page 4096
  | .rxFlush req page => req.wf && below page 4096
  | .tsClr req page => req.wf && below page 4096
  | .tsAck req page value => req.wf && below page 4096 && below value (2 ^ 32)
  | .rxTo page => below page 4096
  | .uartCharacterReceive unit _ _ _ => below unit 16
  | .uartCharacterTransmit unit => below unit 16
  | .messageEnd unit => below unit 16
  | .wakeIol req unit value => req.wf && below unit 16 && below value (2 ^ 32)
  | .respTo unit => below unit 16
  | .frame req unit value => req.wf && below unit 8 && below value (2 ^ 32)
  | .spiWord unit data _ => below unit 8 && below data (2 ^ 32)
  | .csDeassert unit _ => below unit 8
  | .ssiCtlRead req unit value => req.wf && below unit 8 && below value (2 ^ 32)
  | .i2cTransmitEntry unit _ _ _ _ => below unit 8
  | .stretchTo unit => below unit 8
  | .ownAddressMatched unit _ _ => below unit 8
  | .slvStretchMax unit _ => below unit 8
  | .start req unit => req.wf && below unit 32
  | .stop req unit => req.wf && below unit 32
  | .evtClr req unit => req.wf && below unit 32
  | .groupStart req unit value => req.wf && below unit 32 && below value (2 ^ 32)
  | .startAt req unit value => req.wf && below unit 32 && below value (2 ^ 32)
  | .startInstant unit => below unit 32
  | .groupStop req unit value => req.wf && below unit 32 && below value (2 ^ 32)
  | .groupRestart req unit value => req.wf && below unit 32 && below value (2 ^ 32)
  | .restartAt req unit value => req.wf && below unit 32 && below value (2 ^ 32)
  | .programMemoryWrite req unit word value => req.wf && below unit 32 && word.all (fun i => below i 1024) && below value (2 ^ 32)
  | .sumCalc unit => below unit 32
  | .w req unit index value => req.wf && below unit 32 && below index 8 && below value (2 ^ 32)
  | .inq req unit off value => req.wf && below unit 32 && below off 4096 && below value (2 ^ 32)
  | .outq req unit off => req.wf && below unit 32 && below off 4096
  | .inFlush req unit => req.wf && below unit 32
  | .outFlush req unit => req.wf && below unit 32
  | .stampLo req unit => req.wf && below unit 32
  | .nop unit => below unit 32
  | .ldi unit => below unit 32
  | .lui unit => below unit 32
  | .mov unit => below unit 32
  | .add unit => below unit 32
  | .sub unit => below unit 32
  | .and unit => below unit 32
  | .or unit => below unit 32
  | .xor unit => below unit 32
  | .shl unit => below unit 32
  | .shr unit => below unit 32
  | .sar unit => below unit 32
  | .addi unit => below unit 32
  | .mul unit => below unit 32
  | .ld unit => below unit 32
  | .st unit => below unit 32
  | .jmp unit => below unit 32
  | .jcc unit => below unit 32
  | .djnz unit => below unit 32
  | .call unit => below unit 32
  | .ret unit => below unit 32
  | .halt unit => below unit 32
  | .pdir unit => below unit 32
  | .pout unit => below unit 32
  | .poutr unit => below unit 32
  | .pin unit => below unit 32
  | .waitp unit => below unit 32
  | .waitpEnd unit => below unit 32
  | .waitpTimeout unit => below unit 32
  | .shifto unit => below unit 32
  | .shifti unit => below unit 32
  | .time unit => below unit 32
  | .stamp unit => below unit 32
  | .waitt unit => below unit 32
  | .waittEnd unit => below unit 32
  | .delay unit => below unit 32
  | .delayEnd unit => below unit 32
  | .pull unit => below unit 32
  | .pullWaitEnd unit => below unit 32
  | .push unit => below unit 32
  | .pushWaitEnd unit => below unit 32
  | .pub unit => below unit 32
  | .irq unit => below unit 32
  | .armt unit => below unit 32
  | .armp unit => below unit 32
  | .waite unit => below unit 32
  | .waiteEnd unit => below unit 32
  | .cancel unit => below unit 32
  | .tpos unit => below unit 32
  | .tnow unit => below unit 32
  | .illegalInstruction unit => below unit 32
  | .actionSlotFire unit slot => below unit 32 && below slot 16
  | .go req unit value => req.wf && below unit 4 && below value (2 ^ 32)
  | .canCancel req unit value => req.wf && below unit 4 && below value (2 ^ 32)
  | .recover req unit value => req.wf && below unit 4 && below value (2 ^ 32)
  | .integratingEnd unit => below unit 4
  | .busOffRecovery unit => below unit 4
  | .transmitChoice unit _ => below unit 4
  | .canTransmissionEnd unit _ _ => below unit 4
  | .arbitrationLost unit => below unit 4
  | .transmissionError unit _ _ => below unit 4
  | .canFrameReceive unit frame _ _ => below unit 4 && frame.wf
  | .ethernetFrameReceive _ _ => true
  | .controlRequest _ => true
  | .ethernetServiceFrame _ => true
  | .ethLinkUp _ => true
  | .ethLinkDown => true
  | .verifyTime => true
  | .mdio req value => req.wf && below value (2 ^ 32)
  | .mdioFrameEnd data => below data (2 ^ 32)
  | .wakeTx req value => req.wf && below value (2 ^ 32)
  | .wakeTxEnd => true
  | .pcieWriteTlp _ bar off _ => below bar 6 && below off 4096
  | .pcieReadTlp _ bar off len => below bar 6 && below off 4096 && below len (2 ^ 16)
  | .qspiRead _ addr len _ => below addr (2 ^ 36) && below len (2 ^ 16)
  | .qspiQuadRead _ addr len _ => below addr (2 ^ 36) && below len (2 ^ 16)
  | .qspiWrite _ addr len _ => below addr (2 ^ 36) && below len (2 ^ 16)
  | .qspiQuadWrite _ addr len _ => below addr (2 ^ 36) && below len (2 ^ 16)
  | .qspiBad => true
  | .txProd req qp value => req.wf && below qp 8 && below value (2 ^ 32)
  | .descriptorFetch qp _ => below qp 8
  | .descriptorWrite qp _ => below qp 8
  | .descriptorRead qp => below qp 8
  | .descriptorTunnel qp _ => below qp 8
  | .descriptorComplete qp => below qp 8
  | .rxTail req qp value => req.wf && below qp 8 && below value (2 ^ 32)
  | .qpStop qp _ => below qp 8
  | .drainEnd qp => below qp 8
  | .vpend req _ bits => req.wf && below bits (2 ^ 32)
  | .msiXSend vector => below vector 64
  | .send req mailbox len => req.wf && below mailbox 16 && below len (2 ^ 16)
  | .ack req mailbox rc => req.wf && below mailbox 16 && below rc 16
  | .recall req mailbox => req.wf && below mailbox 16
  | .mailboxDataWrite req off size value => req.wf && below off 4096 && below size 4096 && below value (2 ^ 32)
  | .ring req side bits => req.wf && below side 4 && below bits (2 ^ 32)
  | .dbRawClear req side bits => req.wf && below side 4 && below bits (2 ^ 32)
  | .on req unit value => req.wf && below unit 4 && below value (2 ^ 32)
  | .unlatch req unit => req.wf && below unit 4
  | .enClr req unit => req.wf && below unit 4
  | .shuntSample unit _ _ => below unit 4
  | .voltageSample unit _ _ _ => below unit 4
  | .fastTrip unit _ _ => below unit 4
  | .rampTime unit _ => below unit 4
  | .rampTurn unit => below unit 4
  | .backoffEnd unit => below unit 4
  | .vinInRange unit => below unit 4
  | .retryClr unit => below unit 4
  | .zeroCold unit => below unit 4
  | .zeroHot unit => below unit 4
  | .gateT unit _ _ => below unit 4
  | .offT unit => below unit 4
  | .chopCycle unit _ => below unit 4
  | .imeas req unit => req.wf && below unit 4
  | .energyLo req unit => req.wf && below unit 4
  | .faultTransition _ => true
  | .fence => true
  | .release req key page => req.wf && below key (2 ^ 16) && below page 4096
  | .repeatClr page => below page 4096
  | .thermalReading _ _ _ _ => true
  | .stepMs => true
  | .sensorDiff sensor => below sensor 4
  | .ecall _ _ len => below len (2 ^ 16)
  | .annexAccessFault addr kind => below addr (2 ^ 36) && below kind 3
  | .copStart _ rd _ => below rd 32
  | .copWait _ rd => below rd 32
  | .copPoll _ rd => below rd 32
  | .copAbort _ rd => below rd 32
  | .sha256 => true
  | .ecdsaP256 => true
  | .aes256Gcm => true
  | .crc32c => true
  | .trackArithmetic => true
  | .keyLoad => true
  | .keyWrite => true
  | .keyClear => true
  | .coprocessorComplete => true
  | .wdogKick req key => req.wf && below key (2 ^ 16)
  | .wdogS => true
  | .wdogA => true
  | .stewardReady req key => req.wf && below key (2 ^ 16)
  | .anxCtlStart req => req.wf
  | .anxCtlStop req => req.wf
  | .unload req => req.wf
  | .timerComparator _ value => below value (2 ^ 32)
  | .version _ => true
  | .status _ => true
  | .lcAdvance _ => true
  | .keyRevoke _ => true
  | .anxStart _ => true
  | .anxStop _ => true
  | .anxPages _ => true
  | .gateRelease _ => true
  | .trans req key target => req.wf && below key (2 ^ 16) && below target (2 ^ 32)
  | .otpProg req key => req.wf && below key (2 ^ 16)
  | .bootRomStart _ _ potUs => below potUs 4001
  | .updInfo _ => true
  | .updBegin _ _ => true
  | .updData _ _ => true
  | .updVerify _ => true
  | .verificationEnd _ => true
  | .updActivate _ _ => true
  | .activationEnd _ => true
  | .updConfirm _ _ => true
  | .autoConfirm _ => true
  | .updRevert _ _ => true
  | .updAbort _ _ => true
  | .updCellar _ _ => true
  | .reboot => true
  | .bistPhaseEnd _ page _ => below page 4096
  | .selfTestEnd => true
  | .bistInfo _ => true
  | .unitTest _ => true
  | .unitAbort _ => true
  | .unitTestEnd _ page _ => below page 4096
  | .serdesPllUnlock port => below port 2
  | .referenceWaitLimit => true
  | .rstNRelease => true
  | .dramTimeout => true
  | .mergedInterruptMessage entry => below entry 32
  | .bankMeasurement bank millivolts => below bank 16 && below millivolts (2 ^ 16)
  | .pwmPeriod channel => below channel 128
  | .iolStageTimer unit => below unit 16
  | .csAssert unit _ => below unit 8
  | .i2cSlaveByte unit _ _ => below unit 8
  | .i2cBusStop unit => below unit 8
  | .shiftEnd unit => below unit 32
  | .pinDeferEnd unit pin => below unit 32 && below pin 8
  | .receptionError unit _ _ _ => below unit 4
  | .pcieConfigurationRequest _ => true
  | .pcieLinkUp _ _ => true
  | .pcieLinkDown => true
  | .secureWatchdogHalf => true
  | .otpProgDone _ => true
  | .lcTransitionDone _ => true

end Sys2Proof
end

