-- ==== Sys2Proof/Safety.lean ====
section
/-!
DEFINITION. What the claims speak of: the state in which a command ends, what admits a register access, the canonical form of the
hub's tables, and the names the claims give to effects that take several registers.
-/
namespace Sys2Proof.Machine

open Reg

/-! ### The end of a command -/

/-- The hub as a command finds it. -/
abbrev State.found (s : State) : Hub := s.hub.begin

/-- The core has its supplies and clocks and has begun its boot: outside that no command but the keep-alive domain's and start-up's own acts
(R96, R100, R103). -/
abbrev State.awake (s : State) : Prop := s.hub.coreRuns = true

/-- The hub is not in Shelf, where nothing but the keep-alive domain is powered (R100, R101). -/
abbrev State.powered (s : State) : Prop := s.hub.mode ≠ .shelf

/-- No change of mode falls due at the end of this command: other commands of its edge follow, or none of them has asked for one (R69). -/
abbrev State.settled (s : State) : Prop := s.found.edge.more = true ∨ s.found.edge.want = none

/-- The hub as an engine's instruction finds it: its tick count starts at the tick that has begun (R402). -/
abbrev State.ticked (s : State) (unit : Nat) : Hub := s.found.reTick unit

/-- The state in which a command ends whose own effect leaves the hub as `g`: what the end of every command adds has happened. -/
def State.ends (s : State) (g : Hub) : State := { s with hub := g.finish s.hub }

/-- The state in which an accepted write ends, answered without an error. -/
def State.wrote (s : State) (req : Req) (g : Hub) : State := s.ends (g.emit (.resp req true))

/-- The state in which a read ends that answers `x.1` and leaves `x.2`. -/
def State.told (s : State) (req : Req) (x : Nat × Hub) : State := s.ends (x.2.emit (.data req x.1))

/-- A write of one register is admitted: nothing of R32 to R34, R41, R92, R113 or R588 turns it away. -/
abbrev State.admits (s : State) (req : Req) (p off : Nat) : Prop := s.found.turnedAway req p off 4 = none

/-- A read of one register is admitted. -/
abbrev State.admitsRead (s : State) (req : Req) (p off : Nat) : Prop := s.found.readTurnedAway req p off 4 = none

/-- A mode request is accepted: it reaches the register, its requester may make it, and R90, R92, R100, R107 and R586 refuse nothing. -/
abbrev State.grants (s : State) (req : Req) (cmd : Nat) : Prop :=
  s.found.modeReqShut req = false ∧ s.found.mayWrite req pSys = true ∧ s.found.requestResult req 0x6D0E cmd = 0

/-! ### What a command leaves as it was -/

/-- The place of a page's field. -/
def Fld.on (f : Fld) (p : Nat) : Key := ⟨p, f.off, f.lo⟩

/-- Every register has the present, staged and committed value of another hub, but for the present values of some places. -/
def Hub.registersBut (g h : Hub) (l : List Key) : Prop :=
  g.staged = h.staged ∧ g.committed = h.committed ∧ ∀ k, k ∉ l → RegFile.find g.live k = RegFile.find h.live k

/-- The hub but for its registers, what it sends out, the number of the next free value, the faults waiting to be judged and the bookkeeping of
the commands of one edge. -/
def Hub.rest (h : Hub) : Hub :=
  { h with live := [], staged := [], committed := [], out := [], free := 0, edge := {}, sys := { h.sys with due := [] } }

/-- Everything of a hub is as in another, but for the present values of some places, what it sends out and the next free value's number. -/
def Hub.keeps (g h : Hub) (l : List Key) : Prop := g.registersBut h l ∧ g.rest = h.rest

/-- The places that the end of a command may change: interrupt flags and vectors whose lines have risen, mailboxes whose readers have come,
and the holds that follow their causes (R471, R480, R483, R557). -/
def endPlaces : List Key :=
  [PG.IRQ_RAW.on pMbx, HOST.VPEND_LO_PEND.on pHost, HOST.VPEND_HI_PEND.on pHost, SYS.GATE_HOLD_HOLD.on pSys]
    ++ (List.range 16).map (fun m => (MBX.STAT_WAITING m).on pMbx)

/-- The places that record a register access that was turned away (R32, R33, R41, R113). -/
def errorPlaces : List Key :=
  [SYS.ACC_ERR_REQ.on pSys, SYS.ACC_ERR_PAGE.on pSys, SYS.ACC_ERR_OFFSET.on pSys, SYS.OWN_ERR_REQ.on pSys, SYS.OWN_ERR_PAGE.on pSys,
   SYS.OWN_ERR_OFFSET.on pSys, SYS.OWN_ERR_CNT_COUNT.on pSys, SYS.GATE_ERR_REQ.on pSys, SYS.GATE_ERR_PAGE.on pSys, SYS.GATE_ERR_OFFSET.on pSys]

/-- The places that record the error response to a requester: a host's is recorded in HOST.WERR and raises an interrupt flag (R468). -/
def responsePlaces (req : Req) : List Key :=
  if req = .host then
    [HOST.WERR_READ.on pHost, HOST.WERR_NODE.on pHost, HOST.WERR_STATUS.on pHost, HOST.WERR_ADDR_HI.on pHost, (latched HOST.WERR_LO_ADDR).on pHost,
     HOST.WERR_CNT_COUNT.on pHost, PG.IRQ_RAW.on pHost]
  else []

/-! ### The canonical form -/

/-- The register files list each place once, in rising order. -/
abbrev Hub.ordered (h : Hub) : Prop :=
  RegFile.sorted h.live = true ∧ RegFile.sorted h.staged = true ∧ RegFile.sorted h.committed = true

/-- Every memory of the hub is in its canonical form; the flash lists no erased byte. -/
abbrev Hub.memoriesWf (h : Hub) : Prop :=
  Memory.wf 0 h.dram = true ∧ Memory.wf 0 h.prsMem = true ∧ Memory.wf 0 h.topo.groups = true ∧
  Memory.wf 0 h.atr.front = true ∧ Memory.wf 0 h.atr.shadow = true ∧ Memory.wf 0 h.atr.live = true ∧
  Memory.wf 0 h.host.msix = true ∧ Memory.wf 0 h.host.mail = true ∧
  Memory.wf 0 h.stw.sram = true ∧ Memory.wf 0 h.upd.buf = true ∧ Memory.wf 0xFF h.flash = true ∧
  (∀ e ∈ h.ports, Memory.wf 0 e.2.a0 = true ∧ Memory.wf 0 e.2.a2 = true) ∧ (∀ e ∈ h.cans, Memory.wf 0 e.2.mem = true)

/-- A mailbox shows WAITING only while its reader is absent (R483). -/
abbrev Hub.readersServed (h : Hub) : Prop :=
  ∀ m, m < 16 → h.on pMbx (MBX.STAT_WAITING m) = true → h.readerPresent (h.cfg pMbx (MBX.CFG_READER m)) = false

/-! ### Effects of several registers -/

/-- A commit attempt that begins to validate (R49, R52). -/
def Hub.commitStarted (h : Hub) (cmd : Nat) : Hub :=
  let g := ((h.put pSys SYS.COMMIT_STATE_BLOCKED 0).put pSys SYS.COMMIT_DROPS_DROPS 0).put pSys SYS.COMMIT_STATE_STATE 1
  { g with sys := { g.sys with commitCmd := cmd, commitMode := h.get pSys SYS.MODE_CUR } }

/-- A mode request accepted, as MODE_REQ_STAT shows it. -/
def Hub.requestNoted (h : Hub) (cmd : Nat) : Hub :=
  (h.put pSys SYS.MODE_REQ_STAT_RESULT 0).put pSys SYS.MODE_REQ_STAT_LAST_CMD cmd

/-- The core PLLs lock: the straps are sampled and the boot ROM starts (R103). -/
def Hub.plled (h : Hub) (cellarN bootsel ioSel : Bool) (hostsel : Nat) : Hub :=
  let h := ((h.put pSys SYS.CLK_STAT_PLL625 1).put pSys SYS.CLK_STAT_PLL500 1).put pSys SYS.CLK_STAT_PLL250 1
  let h := ((h.put pSys SYS.STRAPS_CELLAR_N (flag cellarN)).put pSys SYS.STRAPS_BOOTSEL (flag bootsel)).put pSys SYS.STRAPS_HOSTSEL hostsel
  (((h.strapIo ioSel).strapsHook).startupAt 0).startRom

/-- No reference clock is left (R106). -/
def Hub.clocksGone (h : Hub) : Hub := (h.put pSys SYS.CLK_STAT_REF25 0).put pSys SYS.CLK_STAT_REF156 0

/-- A pending gate request takes effect: the units are powered down, or only their clocks stop (R110, R111). -/
def Hub.gateTaken (h : Hub) (group : Nat) : Hub :=
  let g := if h.gateWanted group = 2 then h.powerGateHook group else h.leavePowerGate group
  let g := (groupPages group).foldl (fun g p => g.alignBlock p) (g.setGateState group (h.gateWanted group))
  { g with sys := { g.sys with ungating := g.sys.ungating.filter (fun i => i != group) } }

/-- A group runs again, its pages after a power gate as after a soft reset (R111). -/
def Hub.ungated (h : Hub) (group : Nat) : Hub :=
  let g := h.leavePowerGate group
  (groupPages group).foldl (fun g p => g.alignBlock p)
    { g.setGateState group 0 with sys := { g.sys with ungating := g.sys.ungating.filter (fun i => i != group) } }

/-- A module is gone, and what was read of it (R138). -/
def Hub.modulePulled (h : Hub) (port : Nat) : Hub :=
  (h.put (pRport port) RPORT.STAT_SFP_PRESENT 0).setPort port (fun p => { p with a0 := [], a2 := [] })

/-- A source's sample instant noted: the multiple of the sample period that it takes (R200). -/
def Hub.gridNoted (h : Hub) (track : Nat) : Hub := h.setTrack track (fun t => { t with grid := h.mainTicks / h.samplePeriod track + 1 })

/-- The end of a conversion pass: another follows where a sample has been accepted meanwhile (R215). -/
def Hub.passEnded (h : Hub) (track : Nat) : Hub :=
  { h with passes := h.passes.drop 1 }.setTrack track (fun t =>
    { t with pass := if t.passAgain then t.newest else none, passAgain := false, passOld := !t.inAcquire })

/-- A port has block lock (R133). -/
def Hub.blockLocked (h : Hub) (port : Nat) : Hub :=
  ((h.put (pRport port) RPORT.STAT_CDR_LOCK 1).put (pRport port) RPORT.STAT_BLOCK_LOCK 1).put (pRport port) RPORT.STAT_HI_BER 0

/-- The answer to a neighbour's delay request waits to be sent (R177). -/
def Hub.delayAnswered (h : Hub) (port stamp : Nat) (frame : Frame) : Hub :=
  let payload := leBytes 2 (frame.field 0 2) ++ leBytes 1 (flag h.mainValid) ++ leBytes 1 0 ++ leBytes 8 0 ++ leBytes 12 0
  h.setPort port (fun p => p.push .link false
    { frame := { cls := .link, hdr := h.linkHeader 0x33 24 port, payload := payload }, rx := some stamp })

/-- The epoch before is closed, the outputs that its banks hold are driven, and the epoch of a sampling instant opens where the engine runs
(R231, R234, R247). -/
def Hub.epochOpened (h : Hub) (epoch : Nat) : Hub := (((h.closeOpen.noteSkipped epoch).takeShadow).driveOutputs).openSampled epoch

/-- A sampling instant's remainder: its epoch is the last one, its slot is published, and the sampling Tracks sample (R231, R236). -/
def Hub.epochSampled (h : Hub) (epoch : Nat) : Hub :=
  ((h.setAtr (fun a => { a with last := some epoch, sampledAt := some h.clock })).publish epoch).sampledAll

/-- A channel's pin shows a level. -/
def Hub.balled (h : Hub) (c : Nat) (level : Bool) : Hub := h.setCh c (fun x => { x with ball := level })

/-- The word that sets a channel's level and keeps its duty (R341). -/
def Hub.levelWord (h : Hub) (c : Nat) (level : Bool) : Nat := h.get (pCh c) CH.OUT_DUTY * 2 ^ 16 + flag level

/-- The word that sets a channel's duty and keeps its level (R344). -/
def Hub.dutyWord (h : Hub) (c duty : Nat) : Nat := duty % 2 ^ 16 * 2 ^ 16 + h.get (pCh c) CH.OUT_LEVEL

/-- An I²C controller after a stop condition (R388). -/
def Hub.i2cIdle (h : Hub) (unit : Nat) : Hub :=
  ((h.put (pI2c unit) I2C.STAT_BUS_BUSY 0).put (pI2c unit) I2C.STAT_ADDRESSED 0).setI2c (pI2c unit) (fun i => { i with slave := none })

/-! ### Prism engines -/

/-- An engine but for its program counter and the bookkeeping of its ticks: what instructions still do at their end stays, from another anchor. -/
def PrsState.still (x : PrsState) : PrsState :=
  { x with pc := 0, anchor := 0, ticks := 0, first := 0, after := x.after.map (fun a => (0, a.2)) }

/-- The instruction that an engine fetches. -/
abbrev Hub.fetched (h : Hub) (unit : Nat) : Nat := h.progWord unit (h.eng unit).pc

/-- An engine executes, and the instruction it fetches is a legal one of an operation code (R400, R407). -/
abbrev Hub.fetches (h : Hub) (unit op : Nat) : Prop :=
  h.executing unit = true ∧ h.illegalAt unit = false ∧ opOf (h.fetched unit) = op

/-- The instant of a page's GRP_AT, and how far it lies ahead in ticks (R417). -/
def Hub.groupInstant (h : Hub) (unit : Nat) : Nat := h.get64 (pPrs unit) PRS.GRP_AT_LO_TLO PRS.GRP_AT_HI_THI

def Hub.groupAhead (h : Hub) (unit : Nat) : Nat := (h.groupInstant unit + 2 ^ 64 - h.now % 2 ^ 64) % 2 ^ 64

/-- A group command names a group, and its requester may write every page of it (R417, R418). -/
abbrev Hub.groupOpen (h : Hub) (req : Req) (value cmd : Nat) : Prop :=
  slice (value / 16 * 16 + cmd) 16 16 = 0x47A1 ∧ slice (value / 16 * 16 + cmd) 8 8 ≠ 0 ∧
  (h.groupMembers (slice (value / 16 * 16 + cmd) 8 8)).any (fun e => !h.mayWrite req (pPrs e)) = false ∧ h.modeEff ≠ .held

/-- How far the instant of an ARMT word lies ahead (R410). -/
def Hub.armAhead (h : Hub) (unit w : Nat) : Nat := (h.wpair unit (slice w 19 3) + 2 ^ 64 - h.now % 2 ^ 64) % 2 ^ 64

/-- The slot that an ARMT word arms. -/
def Hub.armedSlot (h : Hub) (unit w : Nat) : Slot :=
  { at_ := h.wpair unit (slice w 19 3), evt := bitOf w 18, mask := slice w 8 8, val := slice w 0 8 }

/-- The descriptor register of an ARMP word. -/
def Hub.posDesc (h : Hub) (unit w : Nat) : Nat := h.wreg unit (slice w 16 3)

/-- The position and the slot that an ARMP word arms (R411). -/
def Hub.posBindAt (h : Hub) (unit w : Nat) : PosBind :=
  let d := h.posDesc unit w
  { track := slice d 28 4, prof := slice d 26 2, policy := slice d 24 2, measure := bitOf d 23, target := h.wpair unit (slice w 19 3) % 2 ^ 48 }

def Hub.posSlotAt (h : Hub) (unit w : Nat) : Slot :=
  let d := h.posDesc unit w
  { pos := some (h.posBindAt unit w), evt := bitOf d 22, mask := slice d 8 8, val := slice d 0 8 }

/-! ### CAN -/

/-- A send object after its frame went out whole: its SOF edge was sampled `ago` clock edges ago (R424, R432, R435). -/
def Hub.canSent (h : Hub) (unit i ago delay : Nat) : Hub :=
  let p := pCan unit
  let w2 := putBit (h.objWord unit i 2) 28 (h.canState unit == 3)
  let g := (((h.measureTdc unit i delay).stopSending unit).inc p CAN.TX_OK_COUNT).put p CAN.STAT_TEC (h.get p CAN.STAT_TEC - 1)
  let g := (g.setObjWord unit i 2 w2).putObjStamp unit i (h.inputStamp ago) h.onFallBack
  (if g.objType unit i = 3 ∧ (h.can unit).cancelling then g.setObj unit i false 0 else g.giveBack unit i 2).canConfine unit

/-- A send object after it lost arbitration (R432). -/
def Hub.canLost (h : Hub) (unit i : Nat) : Hub :=
  let n := satAdd 8 (slice (h.objWord unit i 6) 0 8) 1
  let g := h.setObjWord unit i 6 (h.objWord unit i 6 / 2 ^ 8 * 2 ^ 8 + n)
  let g := (g.inc (pCan unit) CAN.ARB_LOST_COUNT).put (pCan unit) CAN.STAT_RX_BUSY 1
  g.attemptFailed unit i n (g.canCfg unit CAN.CFG_ARB_LIM) 4

/-- A reception that ended in an error, outside HOLD (R428, R439). -/
def Hub.canMisread (h : Hub) (unit : Nat) (first : Bool) (eights : Nat) : Hub :=
  let p := pCan unit
  let g := (h.put p CAN.STAT_RX_BUSY 0).inc p CAN.RX_ERR_COUNT
  (g.put p CAN.STAT_REC (min 255 (g.get p CAN.STAT_REC + flag first + 8 * eights))).canConfine unit

/-! ### Ethernet and the host port -/

/-- The service call that an Ethernet frame carries (R547). -/
def Hub.etherCall (h : Hub) (bytes : List Byte) : SvcCall :=
  let body := bytes.drop (etherType bytes).2
  callOf (.ether ((bytes.drop 6).take 6) (leNat ((body.drop 10).take 2))) (h.cfg pEth ETH.CTRL_TEN) body

/-- A control request's write to this node by number 0 (R454). -/
def Hub.controlWrites (h : Hub) (bytes : List Byte) : Hub :=
  let t := h.cfg pEth ETH.CTRL_TEN
  let tag := (controlBody bytes).1
  let b := (controlBody bytes).2
  let f (o n : Nat) : Nat := leNat ((b.drop o).take n)
  let x : BusAccess := { origin := .control (f 0 2) ((bytes.drop 6).take 6) tag, req := .tenant t, ten := t, node := f 4 6 / 2 ^ 36, addr := f 4 6 % 2 ^ 36,
                         bulk := f 2 1 % 2 == 1, width := 2 ^ (f 11 1 % 4) }
  h.controlLocal x t false (f 11 1 % 4) (b.length - 16) (b.drop 16)

/-- Whether a control request is a write to this node. -/
def Hub.controlOwnWrite (h : Hub) (bytes : List Byte) : Bool :=
  let b := (controlBody bytes).2
  leNat ((b.drop 10).take 1) % 2 != 1 && h.isHere (leNat ((b.drop 4).take 6) / 2 ^ 36)

/-- A tunnel descriptor's frame waits for the ring (R475). -/
def Hub.tunnelQueued (h : Hub) (qp : Nat) (d : Desc) (buffer : List Byte) : Hub :=
  let h := h.markIssued qp d.idx
  let len := d.word 0 % 65536
  let v := vlanOf buffer
  let payload := tunnelHeader len v.1 false v.2 d.stamp ++ buffer.take len
  let hdr : Header := { type := 0x18, ten := h.cfg pBrg BRG.ISSUE_HOST_TEN, group := bitOf (d.word 1) 12, dst := d.word 1 % 4096, len := payload.length }
  h.arrive { ingress := 3, egress := 8, pri := h.get pHost (HOST.QP_CFG_PRI qp), qp := some qp, origin := .dma qp d.idx,
             frame := { cls := .bulk, payload := payload, hdr := hdr } }

/-- The first descriptor of a queue pair is written back and consumed (R473). -/
def Hub.descriptorClosed (h : Hub) (qp : Nat) (d : Desc) (l : List Desc) (st : Nat) : Hub :=
  let base := h.get64 pHost (HOST.QP_TX_BASE_LO_ADDR qp) (HOST.QP_TX_BASE_HI_ADDR qp)
  let cons := (d.idx + 1) % h.txEntries qp
  let h := (h.setQp qp { h.qp qp with descs := l }).emits
    [.hostWrite (base + 32 * d.idx + 24) (leBytes 4 (2 ^ 31 + st * 65536)), .hostWrite (h.writeBack qp) (leBytes 4 cons)]
  (h.put pHost (HOST.QP_STAT_TX_CONS qp) cons).inc pHost (HOST.QP_TX_DONE_COUNT qp)

/-- The words of MBX.CMD (R481). -/
def sendWord (mailbox len : Nat) : Nat := 0x10000000 + mailbox % 16 * 0x1000000 + len % 128 * 0x10000
def ackWord (mailbox rc : Nat) : Nat := 0x20000000 + mailbox % 16 * 0x1000000 + rc % 65536
def recallWord (mailbox : Nat) : Nat := 0x30000000 + mailbox % 16 * 0x1000000

/-! ### Power zones -/

/-- A sample of the shunt taken and kept, before its trips (R492, R493). -/
def Hub.shuntTaken (h : Hub) (unit : Nat) (vsh : Int) : Hub :=
  ((h.nextSlot unit).zoneMeasure unit vsh).setZone unit (fun s => { s with shunts := (max (-500000) (min 500000 vsh) :: s.shunts).take 64 })

/-! ### Faults and temperature -/

/-- Whether a page has a fault source of a number (R514). -/
def isSourceOf (p src : Nat) : Bool :=
  match kindOf p with
  | some k => decide (src < sourceCount k)
  | none => false

/-- The four junction sensors' readings stored (R528). -/
def Hub.sensorsRead (h : Hub) (t0 t1 t2 t3 : Int) : Hub :=
  (((h.put pTherm (THERM.SENSOR_T 0) (ofSigned 16 t0)).put pTherm (THERM.SENSOR_T 1) (ofSigned 16 t1)).put
    pTherm (THERM.SENSOR_T 2) (ofSigned 16 t2)).put pTherm (THERM.SENSOR_T 3) (ofSigned 16 t3)

/-! ### Steward -/

/-- A well-formed call of a service is the first that waits in its class, the secure world serves, and no service runs (R543, R545, R573). -/
abbrev Hub.servesCall (h : Hub) (cls : SvcClass) (code : Nat) (c : SvcCall) : Prop :=
  h.headCall cls = some c ∧ c.code = code ∧ h.secureServes = true ∧ c.good = true ∧ argBytes code ≤ c.args.length ∧ h.upd.running = none

/-- An update service is allowed too: no other one runs, its caller and the mode are right, UPD is not fenced (R570, R573). -/
abbrev Hub.updatesCall (h : Hub) (cls : SvcClass) (code : Nat) (c : SvcCall) : Prop :=
  h.servesCall cls code c ∧ (h.dropCall c).updCaller c.req = true ∧ (h.dropCall c).updMode code = true ∧ (h.dropCall c).fenced pUpd = false

/-- The reply of STATUS, and the nonce that it leaves valid (R556). -/
def Hub.statusReply (h : Hub) (nonce : Nat) : List Byte :=
  leBytes 1 h.lifecycle ++ leBytes 1 (h.get pSys SYS.MODE_CUR) ++ leBytes 1 h.annexState ++ leBytes 1 (h.get pStw STW.STAT_ANX_CAUSE)
    ++ leBytes 4 ((h.ns - h.stw.bootNs) / 10 ^ 9) ++ leBytes 16 nonce

def Hub.nonceIssued (h : Hub) (nonce : Nat) : Hub := { h with stw := { h.stw with nonces := h.stw.nonces ++ [(nonce, h.ns)] } }

/-- LC_ADVANCE: a token that names the target and an open nonce carries the part there (R556). -/
def Hub.lcAdvanced (h : Hub) (c : SvcCall) : Hub :=
  let target := leNat (c.args.take 4)
  match h.tokenNonce c.args target with
  | none => h.answer c 0x0003 []
  | some n =>
    let g := h.useNonce n
    let g := ({ g with stw := { g.stw with token := some target } }.writeTrans .secure (0x1C5E0000 + target % 16)).1
    let r := g.get pLc LC.TRANS_STAT_RESULT
    if r = 5 then g.answer c 0 (leBytes 1 target) else g.answer c 0x0005 (leBytes 1 r)

/-- KEY_REVOKE: a token that names a slot revokes its key, unless no live key would be left (R556). -/
def Hub.keyRevoked (h : Hub) (c : SvcCall) : Hub :=
  let slot := leNat (c.args.take 4)
  match h.tokenNonce c.args slot with
  | none => h.answer c 0x0003 []
  | some n =>
    let g := h.useNonce n
    if (g.liveSlots.filter (fun i => i != slot)) = [] then g.answer c 0x0005 []
    else (g.blow 64 (2 ^ (4 + slot))).answer c 0 (leBytes 1 (slice ((g.blow 64 (2 ^ (4 + slot))).fuse 64) 4 4))

/-- The holds that GATE_RELEASE leaves (R557). -/
def Hub.holdAfter (h : Hub) (c : SvcCall) : Nat :=
  (List.range 12).foldl (fun v i => if bitOf (leNat (c.args.take 2)) i ∧ !h.holdCauses.contains i then withoutBit v i else v)
    (h.get pSys SYS.GATE_HOLD_HOLD)

/-- A lifecycle transition that begins (R555). -/
def Hub.transBegun (h : Hub) (target : Nat) : Hub :=
  let g := (h.put pLc LC.TRANS_STAT_TARGET target).put pLc LC.TRANS_STAT_RESULT 5
  { g with stw := { g.stw with trans := transBit g.lifecycle g.deployment target, token := none } }

/-- The bit of a lifecycle transition blown in its copies (R552, R555). -/
def Hub.transBlown (h : Hub) (b copies : Nat) : Hub :=
  let g := (List.range 3).foldl (fun g i => if i < copies then g.blow (4 + i) (2 ^ b) else g) { h with stw := { h.stw with trans := none } }
  (g.put pLc LC.TRANS_STAT_RESULT (if 3 ≤ copies then 0 else 4)).irq pLc 0

/-! ### Update -/

/-- BEGIN: the Landing is erased and its caller owns it (R575). -/
def Hub.landingBegun (h : Hub) (c : SvcCall) : Hub :=
  let n := leNat (c.args.take 2)
  let g := (h.writeRecord (fun r => { r with land := 0 })).flashErase (h.area 2) n
  let g := ((g.put pUpd UPD.LAND_LEN_BLOCKS n).put pUpd UPD.LAND_RX_BYTES 0).put pUpd UPD.LAND_OWNER_REQ c.req
  { g with upd := { g.upd with part := [], dataNs := g.ns, etherLoad := SvcPath_cls c.path == SvcClass.ether } }.setLanding 1

/-- DATA's arguments are those of the owner of the Landing and lie within the announced length (R576). -/
abbrev Hub.dataFits (h : Hub) (c : SvcCall) : Prop :=
  let off := leNat (c.args.take 4)
  let len := leNat ((c.args.drop 4).take 2)
  h.landing = 1 ∧ c.req = h.get pUpd UPD.LAND_OWNER_REQ ∧ leNat ((c.args.drop 7).take 1) = 0 ∧ len % 4 = 0 ∧ 0 < len ∧ len ≤ 1024 ∧
  off + len ≤ 65536 * h.get pUpd UPD.LAND_LEN_BLOCKS ∧ (leNat ((c.args.drop 6).take 1) % 2 = 0 → len + 8 = c.args.length)

/-- DATA's bytes taken, before whole blocks are stored (R576). -/
def Hub.dataTaken (h : Hub) (c : SvcCall) : Hub :=
  let len := leNat ((c.args.drop 4).take 2)
  ({ h with upd := { h.upd with part := h.upd.part ++ h.callData c len, dataNs := h.ns } }).put
    pUpd UPD.LAND_RX_BYTES (h.get pUpd UPD.LAND_RX_BYTES + len)

/-- The end of a verification (R577, R578). -/
def Hub.verified (h : Hub) (c : SvcCall) (flashOk : Bool) : Hub :=
  let x := h.updIdle.judgeImage 2 (h.get pUpd UPD.LAND_LEN_BLOCKS)
  let g := x.2
  if x.1 = 0 then (g.setLanding 4).answer c 0 (g.streamRead (g.area 2) 32 4 ++ g.streamRead (g.area 2) 36 2)
  else ((if flashOk then g.writeRecord (fun r => { r with land := 0 }) else g.flashFailed).setLanding 0).answer c x.1 []

/-- ACTIVATE: the slot that is to take the image is marked empty and erased, and the copy begins (R578). -/
def Hub.activationBegun (h : Hub) : Hub :=
  let g := (h.writeRecord (fun r => r.setSlot h.activateTarget 0)).flashErase (h.area h.activateTarget) (h.get pUpd UPD.LAND_LEN_BLOCKS)
  { g with upd := { g.upd with target := h.activateTarget } }.setLanding 5

/-- The end of an activation: the image stands in its slot, marked for trial (R578). -/
def Hub.activated (h : Hub) (c : SvcCall) : Hub :=
  let g := h.updIdle.setLanding 2
  let t := h.upd.target
  let base := g.area 2
  let n := g.get pUpd UPD.LAND_LEN_BLOCKS
  let g' := (g.copyLanding t n).writeRecord
    (fun r => { (r.setSlot t 2).setVersion t (g.streamNat base 32 4) (g.streamNat base 36 2) with tries := 0, active := t })
  g'.noteReboot (leNat (c.args.take 1) % 2 == 1 || g'.mode == .cellar)

/-- ABORT: the Landing is empty again and has no owner (R575). -/
def Hub.landingAborted (h : Hub) : Hub :=
  let g := (h.writeRecord (fun r => { r with land := 0 })).put pUpd UPD.LAND_OWNER_REQ 0xF
  { g with upd := { g.upd with part := [] } }.setLanding 0

/-! ### Self-test -/

/-- A phase of the full self-test ends and the next begins (R587). -/
def Hub.phaseClosed (h : Hub) (failed page detail : Nat) : Hub :=
  let p := h.bist.phase
  let bad := failed &&& h.bist.items &&& phaseItems p
  let skip := if p = 3 then h.skipped else (h.bist.skipBanks, h.bist.skipZones)
  let first := match h.bist.first with
    | some f => some f
    | none => if bad = 0 then none else some (lowestItem bad, page, detail)
  let all := h.bist.failed ||| bad
  let b := { h.bist with failed := all, first := first, finalFailed := false, skipBanks := skip.1, skipZones := skip.2 }
  let next := nextPhase b.items p
  let h := (usedPages.filter (fun q => phasePage p q && q != pSys)).foldl (fun g q => g.reinit false q) { h with bist := b }
  h.enterPhase (if next = 5 ∧ all ≠ 0 then 6 else next)

/-- The full self-test ends with its result recorded (R590). -/
def Hub.testClosed (h : Hub) : Hub :=
  let h := (h.writeResult.irq pBist 0).put pBist BIST.STAT_ELAPSED h.bistElapsed
  { (((h.put pBist BIST.STAT_STATE 0).put pBist BIST.STAT_ITEM 0).put pBist PG.STAT_BLOCK 0) with bist := {} }

/-- The page and the items that UNIT_TEST names (R593). -/
def testPage (c : SvcCall) : Nat := leNat (c.args.take 2)
def testItems (c : SvcCall) : Nat := leNat ((c.args.drop 2).take 1) % 16 &&& unitItems (unitOf (testPage c))

end Sys2Proof.Machine
end

