-- ==== Sys2Proof/Certificates/Slice0/Obligations.lean ====
section
/-! DEFINITION. The statements for the provers. The first ones say of every command under which conditions on the state and its operands it
answers a next state, and which one: its own effect, by the shared operations that the rules describe. The others state rules of the spec and
what commands leave unchanged. -/

open Sys2Proof Sys2Proof.Machine Sys2Proof.Machine.Reg

/-- The register commands complete with their own effect: under the conditions of its rule each answers the next state that the rule gives. -/
def Obligations.RegisterCommandsComplete : Prop :=
  (∀ (s : State) (req : Req) (page off size value : Nat) (k : Kind),
      s.awake → ¬ (page = pSys ∧ off = 0x084) → s.found.turnedAway req page off size = none → kindOf page = some k → exec (.registerWrite req page off size value) s = .next (s.ends (s.found.admittedWrite req k page off size value (.reply req (pageAddr page off)) Hub.declareReady))) ∧
  (∀ (s : State) (req : Req) (page : Nat),
      s.awake → s.admits req page 0x008 → exec (.xkeyOpen req page) s = .next (s.wrote req (s.found.put page PG.STAT_XOPEN 1))) ∧
  (∀ (s : State) (req : Req) (page value : Nat),
      s.awake → s.admits req page 0x008 → value % 256 ≠ 0xE7 → exec (.xkeyClose req page value) s = .next (s.wrote req (s.found.put page PG.STAT_XOPEN 0))) ∧
  (∀ (s : State) (req : Req) (page : Nat),
      s.awake → s.admits req page 0x008 → page ≠ pSys ∧ page ≠ pLc ∧ page ≠ pStw → (page ≠ pBist ∨ s.found.on pBist BIST.UNIT_BUSY = false) → exec (.srst req page) s = .next (s.wrote req (((s.found.softResetBefore page).softResetRegs page).softResetHook s.found page))) ∧
  (∀ (s : State) (req : Req) (page : Nat),
      s.awake → s.admits req page 0x008 → page = pBist → s.found.on pBist BIST.UNIT_BUSY = true → exec (.srst req page) s = .next (s.wrote req ((unitPages s.found.bist.unit).foldl (fun g q => g.reinit true q) (((s.found.softResetBefore page).softResetRegs page).softResetHook s.found page)))) ∧
  (∀ (s : State) (req : Req) (page mask setNow : Nat),
      s.awake → s.admits req page 0x010 → exec (.pgIrqRawClear req page mask setNow) s = .next (s.wrote req (s.found.put page PG.IRQ_RAW ((s.found.get page PG.IRQ_RAW ^^^ (s.found.get page PG.IRQ_RAW &&& mask)) ||| pageFlags page setNow ||| Map.getD s.found.edge.risen page 0)))) ∧
  (∀ (s : State) (req : Req) (page mask active : Nat),
      s.awake → s.admits req page 0x01C → active = 0 → exec (.pgFltClear req page mask active) s = .next (s.wrote req (s.found.put page PG.FLT_SRC ((s.found.get page PG.FLT_SRC ^^^ (s.found.get page PG.FLT_SRC &&& mask)) ||| Map.getD s.found.edge.risen (0x1000 + page) 0)))) ∧
  (∀ (s : State) (req : Req) (page : Nat),
      s.awake → s.admits req page 0x024 → s.found.commitBusy = false → exec (.discard req page) s = .next (s.wrote req ({ s.found with staged := copyPage s.found.staged s.found.committed page })))

/-- The commit commands complete with their own effect: under the conditions of its rule each answers the next state that the rule gives. -/
def Obligations.CommitCommandsComplete : Prop :=
  (∀ (s : State) (req : Req),
      s.awake → s.admits req pSys 0x040 → s.found.commitBusy = false → noCommit s.found.mode = false → exec (.validate req) s = .next (s.wrote req (s.found.commitStarted 1))) ∧
  (∀ (s : State) (req : Req),
      s.awake → s.admits req pSys 0x040 → s.found.commitBusy = false → noCommit s.found.mode = false → exec (.commitNow req) s = .next (s.wrote req (s.found.commitStarted 2))) ∧
  (∀ (s : State) (req : Req),
      s.awake → s.admits req pSys 0x040 → s.found.commitBusy = false → noCommit s.found.mode = false → commitTimeOk s.found.now s.found.commitTime = true → exec (.commitAt req) s = .next (s.wrote req (s.found.commitStarted 3))) ∧
  (∀ (s : State) (req : Req),
      s.awake → s.admits req pSys 0x040 → s.found.commitBusy = false → noCommit s.found.mode = false → exec (.commitEpoch req) s = .next (s.wrote req (s.found.commitStarted 4))) ∧
  (∀ (s : State) (req : Req),
      s.awake → s.admits req pSys 0x040 → s.found.get pSys SYS.COMMIT_STATE_STATE = 2 → exec (.abort req) s = .next (s.wrote req (s.found.endAttempt 5))) ∧
  (∀ (s : State) (internalError : Bool),
      s.awake → s.found.get pSys SYS.COMMIT_STATE_STATE = 1 → internalError = false → exec (.validationEnd internalError) s = .next (s.ends (s.found.endValidation))) ∧
  (∀ (s : State) (internalError : Bool),
      s.awake → s.found.get pSys SYS.COMMIT_STATE_STATE = 1 → internalError = true → exec (.validationEnd internalError) s = .next (s.ends ((s.found.raise pSys 2).refuseAttempt 0x0F01))) ∧
  (∀ (s : State),
      s.awake → s.found.get pSys SYS.COMMIT_STATE_STATE = 2 → exec .commitInstant s = .next (s.ends (s.found.commit))) ∧
  (∀ (s : State),
      s.awake → s.found.get pSys SYS.COMMIT_STATE_STATE = 1 → s.found.sys.commitCmd = 3 → exec .commitRefusedLate s = .next (s.ends (s.found.refuseAttempt 0x0A02)))

/-- The mode requests complete with their own effect: under the conditions of its rule each answers the next state that the rule gives. -/
def Obligations.ModeRequestsComplete : Prop :=
  (∀ (s : State) (req : Req),
      s.awake → s.grants req 1 → (s.found.requestNoted 1).outranked = false → exec (.revert req) s = .next (s.wrote req (s.found.requestNoted 1 |> Hub.revert))) ∧
  (∀ (s : State) (req : Req),
      s.awake → s.grants req 1 → (s.found.requestNoted 1).outranked = true → exec (.revert req) s = .next (s.wrote req (s.found.requestNoted 1))) ∧
  (∀ (s : State) (req : Req),
      s.awake → s.grants req 2 → exec (.maintEnter req) s = .next (s.wrote req (s.found.requestNoted 2 |> Hub.maintEnter))) ∧
  (∀ (s : State) (req : Req),
      s.awake → s.grants req 3 → (s.found.requestNoted 3).outranked = false → exec (.maintExit req) s = .next (s.wrote req (s.found.requestNoted 3 |> Hub.maintExit))) ∧
  (∀ (s : State) (req : Req),
      s.awake → s.grants req 3 → (s.found.requestNoted 3).outranked = true → exec (.maintExit req) s = .next (s.wrote req (s.found.requestNoted 3))) ∧
  (∀ (s : State) (req : Req),
      s.awake → s.grants req 4 → (s.found.requestNoted 4).outranked = false → exec (.shelf req) s = .next (s.wrote req (s.found.requestNoted 4 |> Hub.shelfByRequest))) ∧
  (∀ (s : State) (req : Req),
      s.awake → s.grants req 4 → (s.found.requestNoted 4).outranked = true → exec (.shelf req) s = .next (s.wrote req (s.found.requestNoted 4))) ∧
  (∀ (s : State) (req : Req),
      s.awake → s.grants req 5 → exec (.safestop req) s = .next (s.wrote req ((s.found.requestNoted 5).safeStop 0x62 pSys 0))) ∧
  (∀ (s : State) (req : Req),
      s.awake → s.grants req 6 → (s.found.requestNoted 6).outranked = false → exec (.test req) s = .next (s.wrote req (((s.found.requestNoted 6).changeMode .test 0x13).startSelfTest))) ∧
  (∀ (s : State) (req : Req),
      s.awake → s.grants req 6 → (s.found.requestNoted 6).outranked = true → exec (.test req) s = .next (s.wrote req (s.found.requestNoted 6))) ∧
  (∀ (s : State) (req : Req),
      s.awake → s.grants req 7 → exec (.restart req) s = .next (s.wrote req ((s.found.requestNoted 7).systemReset 0x03 3)))

/-- The events that lead from one mode to another complete with their own effect: under the conditions of its rule each answers the next state that the rule gives. -/
def Obligations.ModeEventsComplete : Prop :=
  (∀ (s : State),
      s.awake → s.found.armUnmet = 0 → s.found.armInstant = true → s.found.mode = .armed → s.found.anyFence = false → exec .armedToRunning s = .next (s.ends (s.found.enterMode .running 0x30))) ∧
  (∀ (s : State),
      s.awake → s.found.armUnmet = 0 → s.found.armInstant = true → s.found.mode = .armed → s.found.anyFence = true → exec .armedToRunning s = .next (s.ends (s.found.enterMode .degraded 0x31))) ∧
  (∀ (s : State),
      s.awake → s.found.mode = .armed → exec .armedWait10s s = .next (s.ends (s.found.irq pSys 1))) ∧
  (∀ (s : State),
      s.awake → s.found.ringLost = true → (s.found.mode = .running ∨ s.found.mode = .degraded) → exec .ringLost s = .next (s.ends (({ s.found with sys := { s.found.sys with rejoined := false } }).enterMode .islanded 0x40))) ∧
  (∀ (s : State),
      s.awake → s.found.mode = .islanded → s.found.ringJoined = true → s.found.mainValid = true → s.found.sys.rejoined = true → s.found.samplesNow = true → s.found.anyFence = false → exec .ringRejoined s = .next (s.ends (s.found.enterMode .running 0x41))) ∧
  (∀ (s : State) (domain : Supply) (millivolts : Nat),
      s.found.present domain = false → exec (.supplyPresent domain millivolts) s = .next (s.ends ((s.found.setPresent domain true).supplyCame domain millivolts))) ∧
  (∀ (s : State) (domain : Supply),
      s.found.present domain = true → exec (.supplyLost domain) s = .next (s.ends (((s.found.setPresent domain false).recordLost domain).supplyWent domain))) ∧
  (∀ (s : State) (ioSel : Bool),
      exec (.powerOn ioSel) s = .next (s.ends (s.found.powerOn.strapIo ioSel))) ∧
  (∀ (s : State) (event : Wake),
      s.found.mode = .shelf → (s.found.noteSlot event).wakeQualifies event = true → (s.found.noteSlot event).wakeEnabled event = true → exec (.wakeEvent event) s = .next (s.ends ((s.found.noteSlot event).leaveShelf (withBit (s.found.noteSlot event).sys.wakeSeen event.bit)))) ∧
  (∀ (s : State),
      s.powered → s.found.mode = .waking → s.found.sys.startup = 2 → s.found.corePresent = true → exec .powerOnHoldEnd s = .next (s.ends (s.found.atStepThree.proceed))) ∧
  (∀ (s : State) (is25 : Bool),
      s.powered → is25 = true → s.found.mode = .waking → s.found.sys.startup = 3 → s.found.corePresent = true → s.found.sys.rstLow = false → exec (.referenceValid is25) s = .next (s.ends (((s.found.put pSys SYS.CLK_STAT_REF25 1).put pSys SYS.CLK_STAT_REF_SRC 0).startupAt 4))) ∧
  (∀ (s : State) (is25 : Bool),
      s.powered → is25 = false → exec (.referenceValid is25) s = .next (s.ends (((s.found.put pSys SYS.CLK_STAT_REF156 1).serdesPlls).proceed))) ∧
  (∀ (s : State) (cellarN bootsel ioSel : Bool) (hostsel : Nat),
      s.powered → s.found.mode = .waking → s.found.sys.startup = 4 → s.found.corePresent = true → exec (.corePllLock cellarN bootsel ioSel hostsel) s = .next (s.ends (s.found.plled cellarN bootsel ioSel hostsel))) ∧
  (∀ (s : State),
      s.powered → s.found.on pSys SYS.CLK_STAT_REF25 = true → s.found.on pSys SYS.CLK_STAT_REF156 = true → exec .ref25Lost s = .next (s.ends (((s.found.put pSys SYS.CLK_STAT_REF25 0).timeRef25Lost).raiseRef25))) ∧
  (∀ (s : State),
      s.powered → s.found.get pSys SYS.CLK_STAT_REF25 = 0 → s.found.on pSys SYS.CLK_STAT_REF156 = true → exec .corePllSwitchover s = .next (s.ends (s.found.put pSys SYS.CLK_STAT_REF_SRC 1))) ∧
  (∀ (s : State),
      s.powered → s.found.on pSys SYS.CLK_STAT_REF156 = true → s.found.on pSys SYS.CLK_STAT_REF25 = true → exec .ref156Lost s = .next (s.ends ((s.found.put pSys SYS.CLK_STAT_REF156 0).serdesLost))) ∧
  (∀ (s : State),
      s.powered → s.found.mode ≠ .shelf → exec .clockLoss s = .next (s.ends (s.found.clocksGone.systemReset 0x03 4))) ∧
  (∀ (s : State) (pll : Nat),
      s.awake → s.found.on pSys (if s.found.on pSys SYS.CLK_STAT_REF_SRC then SYS.CLK_STAT_REF156 else SYS.CLK_STAT_REF25) = true → pll = 0 → exec (.pllUnlock pll) s = .next (s.ends ((s.found.put pSys SYS.CLK_STAT_PLL625 0).raise pSys 1))) ∧
  (∀ (s : State),
      s.found.mode ≠ .shelf → exec .rstN s = .next (s.ends (({ s.found with sys := { s.found.sys with rstLow := true } }).systemReset 0x03 2))) ∧
  (∀ (s : State),
      s.awake → exec .perstN s = .next (s.ends (s.found.perst))) ∧
  (∀ (s : State),
      s.powered → s.found.mode = .waking → s.found.sys.startup = 3 → s.found.corePresent = true → s.found.sys.rstLow = false → s.found.get pSys SYS.CLK_STAT_REF25 = 0 → s.found.on pSys SYS.CLK_STAT_REF156 = true → exec .referenceWaitLimit s = .next (s.ends (((({ s.found with sys := { s.found.sys with refLate := true } }).put pSys SYS.CLK_STAT_REF_SRC 1).startupAt 4).raiseRef25))) ∧
  (∀ (s : State),
      s.found.mode = .waking → s.found.sys.startup = 3 → s.found.corePresent = true → s.found.on pSys SYS.CLK_STAT_REF25 = true → exec .rstNRelease s = .next (s.ends (((({ s.found with sys := { s.found.sys with rstLow := false } }).put pSys SYS.CLK_STAT_REF_SRC 0)).startupAt 4)))

/-- The gating commands and events complete with their own effect: under the conditions of its rule each answers the next state that the rule gives. -/
def Obligations.GateCommandsComplete : Prop :=
  (∀ (s : State) (req : Req) (value : Nat),
      s.awake → s.admits req pSys 0x0DC → exec (.gateReq req value) s = .next (s.wrote req (s.found.writeGateReq value))) ∧
  (∀ (s : State) (req : Req) (value : Nat),
      s.awake → s.admits req pSys 0x0E0 → req = .secure → exec (.gateHold req value) s = .next (s.wrote req (s.found.put pSys SYS.GATE_HOLD_HOLD value))) ∧
  (∀ (s : State) (group : Nat),
      s.awake → group < 12 → s.found.gateWanted group ≠ 0 → s.found.gateHeld group = false → s.found.gateUnitsIdle group = true → exec (.gateTakeEffect group) s = .next (s.ends (s.found.gateTaken group))) ∧
  (∀ (s : State) (group : Nat),
      s.awake → s.found.sys.ungating.contains group = true → exec (.ungateComplete group) s = .next (s.ends (s.found.ungated group)))

/-- Frames and link events at a ring port complete with their own effect: under the conditions of its rule each answers the next state that the rule gives. -/
def Obligations.RingReceptionCompletes : Prop :=
  (∀ (s : State) (port stamp cut : Nat) (bad : Bool) (own : List Byte) (mark : Nat),
      s.awake → port < 2 → exec (.transmitFrame port stamp cut bad own mark) s = .next (s.ends (s.found.transmitRing port stamp cut bad))) ∧
  (∀ (s : State) (port stamp cut : Nat) (bad : Bool) (own : List Byte) (mark : Nat) (e : QFrame × Hub),
      s.awake → port = 2 → s.found.etherFree = true → own = [] → s.found.nextXt 2 ≠ none → bad = false → s.found.takeLocal 2 = some e → exec (.transmitFrame port stamp cut bad own mark) s = .next (s.ends (e.2.sendLocal 2 cut e.1))) ∧
  (∀ (s : State) (port stamp cut : Nat) (bad : Bool) (own : List Byte) (mark : Nat),
      s.awake → port = 2 → s.found.etherFree = true → s.found.etherOpen = true → own ≠ [] → exec (.transmitFrame port stamp cut bad own mark) s = .next (s.ends (s.found.sendComposed stamp own mark))) ∧
  (∀ (s : State) (port stamp cut : Nat) (bad : Bool) (own : List Byte) (mark : Nat) (e : QFrame × Hub),
      s.awake → 2 < port → port < 8 → s.found.takeLocal port = some e → bad = false → exec (.transmitFrame port stamp cut bad own mark) s = .next (s.ends (e.2.sendLocal port 0 e.1))) ∧
  (∀ (s : State) (port stamp sd : Nat) (lane4 : Bool) (body : List Byte) (c : Cls),
      s.awake → port < 2 → s.found.link port ≠ 0 → lane4 = false → sdOf sd = some (.frame c) → (s.found.port port).spoilAt = none → exec (.transitFrame port stamp sd lane4 body) s = .next (s.ends (s.found.underPrior (s.found.beforeCommit stamp) (fun g => (g.freshBulk port c).judged port stamp (judge c body))))) ∧
  (∀ (s : State) (port stamp sd : Nat) (lane4 : Bool) (body : List Byte),
      s.awake → port < 2 → s.found.link port ≠ 0 → lane4 = true → exec (.transitFrame port stamp sd lane4 body) s = .next (s.ends ((s.found.breakHellos port).portCount port RPORT.FOREIGN_COUNT))) ∧
  (∀ (s : State) (port sd : Nat) (body : List Byte) (m : Nat) (o : OpenRx),
      s.awake → port < 2 → s.found.link port ≠ 0 → sdOf sd = some (.continuation m) → (s.found.port port).rxOpen = some o → (s.found.port port).spoilAt = none → o.next % 4 = m → exec (.bulkFragment port sd body) s = .next (s.ends (s.found.underPrior (s.found.beforeCommit o.stamp) (fun g => g.continueBulk port o body)))) ∧
  (∀ (s : State) (port sd : Nat) (body : List Byte) (m : Nat),
      s.awake → port < 2 → s.found.link port ≠ 0 → sdOf sd = some (.continuation m) → (s.found.port port).rxOpen = none → exec (.bulkFragment port sd body) s = .next (s.ends (s.found.portCount port RPORT.FRAG_ERR_COUNT))) ∧
  (∀ (s : State) (port : Nat) (los : Bool),
      s.awake → port < 2 → (s.found.noteLos port los).1.link port = 1 → (s.found.noteLos port los).2 = false → (s.found.noteLos port los).1.ringWorks = true → exec (.receiveEnergy port los) s = .next (s.ends ((((s.found.noteLos port los).1.unpark port).put (pRport port) RPORT.STAT_PLL_LOCK 1).setLink port 2))) ∧
  (∀ (s : State) (port : Nat),
      s.awake → s.found.link port = 1 → s.found.cfg (pRport port) RPORT.CFG_RATE = 0 → exec (.autoDwell port) s = .next (s.ends (s.found.nextRate port))) ∧
  (∀ (s : State) (port : Nat),
      s.awake → s.found.link port = 2 → s.found.ringWorks = true → exec (.blockLock port) s = .next (s.ends ((s.found.blockLocked port).setLink port 3))) ∧
  (∀ (s : State) (port : Nat),
      s.awake → s.found.link port = 5 → s.found.ringWorks = true → exec (.blockLock port) s = .next (s.ends (s.found.blockLocked port))) ∧
  (∀ (s : State) (port : Nat),
      s.awake → s.found.link port = 2 → exec (.lockingTimeout port) s = .next (s.ends (((s.found.setLink port 1).nextRate port).rejoinFailed))) ∧
  (∀ (s : State) (port : Nat),
      s.awake → (s.found.link port = 3 ∨ s.found.link port = 7) → exec (.helloSend port) s = .next (s.ends (s.found.sendLink port 0x30 (s.found.helloPayload port)))) ∧
  (∀ (s : State) (port : Nat) (frame : Frame),
      s.awake → s.found.link port = 3 → (s.found.notePeer port frame).refusal port frame = 0 → 3 ≤ ((s.found.notePeer port frame).port port).hellos + 1 → bitOf (frame.field 1 1) 7 = true → exec (.hello port frame) s = .next (s.ends (((s.found.notePeer port frame).setPort port (fun p => { p with hellos := ((s.found.notePeer port frame).port port).hellos + 1 })).linkUp port))) ∧
  (∀ (s : State) (port : Nat) (frame : Frame),
      s.awake → s.found.link port = 3 → (s.found.notePeer port frame).refusal port frame ≠ 0 → exec (.hello port frame) s = .next (s.ends (((((s.found.notePeer port frame).put (pRport port) RPORT.STAT_REFUSE ((s.found.notePeer port frame).refusal port frame)).setLink port 7).rejoinFailed).raise (pRport port) 1))) ∧
  (∀ (s : State) (port : Nat),
      s.awake → s.found.link port = 3 → exec (.helloTimeout port) s = .next (s.ends ((s.found.setLink port 1).rejoinFailed))) ∧
  (∀ (s : State) (port : Nat) (los : Bool) (symbols : Nat),
      s.awake → port < 2 → ((s.found.noteLos port los).1.countSymbols port symbols).link port = 4 → exec (.lossOfLock port los symbols) s = .next (s.ends (((s.found.noteLos port los).1.countSymbols port symbols).portSignalLost port))) ∧
  (∀ (s : State) (port symbols : Nat),
      s.awake → port < 2 → (s.found.countSymbols port symbols).link port = 4 → (((s.found.countSymbols port symbols).put (pRport port) RPORT.STAT_HI_BER 1).setLink port 6).get (pRport port) RPORT.STAT_RATE_EFF ≠ 1 → exec (.hiBer port symbols) s = .next (s.ends (((((s.found.countSymbols port symbols).put (pRport port) RPORT.STAT_HI_BER 1).setLink port 6).put (pRport port) RPORT.STAT_BLOCK_LOCK 0).raise (pRport port) 2))) ∧
  (∀ (s : State) (port : Nat),
      s.awake → s.found.link port = 5 → exec (.settlingTimeout port) s = .next (s.ends (s.found.setLink port 6))) ∧
  (∀ (s : State) (port : Nat),
      s.awake → s.found.link port = 6 → exec (.downHoldEnd port) s = .next (s.ends (s.found.setLink port 1))) ∧
  (∀ (s : State) (port queue : Nat) (e : QFrame) (q : List QFrame),
      s.awake → port < 2 → queue < 16 → (s.found.link port ≠ 4 ∨ s.found.portOpen port = false) → Map.getD s.found.sw.queues (port * 16 + queue) [] = e :: q → e.since + 50000 * s.found.cfg (pRport port) RPORT.CFG_BULK_HOLD ≤ s.found.clock → exec (.bulkHold port queue) s = .next (s.ends (({ s.found with sw := { s.found.sw with queues := Map.put s.found.sw.queues (port * 16 + queue) [] q } }).portCount port RPORT.HOLD_TO_COUNT))) ∧
  (∀ (s : State) (port : Nat) (high : Bool),
      s.awake → port < 2 → high = false → exec (.txFault port high) s = .next (s.ends (s.found.put (pRport port) RPORT.STAT_SFP_TXFAULT 0))) ∧
  (∀ (s : State) (port : Nat) (high : Bool),
      s.awake → port < 2 → (s.found.put (pRport port) RPORT.STAT_SFP_TXFAULT 1).cfgOn (pRport port) RPORT.CFG_SFP_MGMT = true → high = true → (s.found.put (pRport port) RPORT.STAT_SFP_TXFAULT 1).link port ≠ 4 → exec (.txFault port high) s = .next (s.ends ((s.found.put (pRport port) RPORT.STAT_SFP_TXFAULT 1).raise (pRport port) 3))) ∧
  (∀ (s : State) (port : Nat) (absent acknowledged : Bool) (a0 : List Byte),
      s.awake → port < 2 → absent = true → (s.found.modulePulled port).cfgOn (pRport port) RPORT.CFG_SFP_MGMT = true → exec (.modAbs port absent acknowledged a0) s = .next (s.ends (((s.found.modulePulled port).irq (pRport port) 1).rateWarn port))) ∧
  (∀ (s : State) (port : Nat) (absent acknowledged : Bool) (a0 : List Byte),
      s.awake → port < 2 → absent = false → (s.found.put (pRport port) RPORT.STAT_SFP_PRESENT 1).cfgOn (pRport port) RPORT.CFG_SFP_MGMT = true → acknowledged = true → exec (.modAbs port absent acknowledged a0) s = .next (s.ends ((((s.found.put (pRport port) RPORT.STAT_SFP_PRESENT 1).irq (pRport port) 1).setPort port (fun p => { p with a0 := pageOf a0 })).rateWarn port))) ∧
  (∀ (s : State) (port : Nat) (acknowledged : Bool) (a2 : List Byte),
      s.awake → port < 2 → s.found.modulePresent port = true → bitOf (Mem.read (s.found.port port).a0 92).toNat 6 = true → acknowledged = true → exec (.sfpA2Read port acknowledged a2) s = .next (s.ends (s.found.setPort port (fun p => { p with a2 := pageOf a2 })))) ∧
  (∀ (s : State) (port : Nat),
      s.awake → port < 2 → (s.found.link port = 4 ∨ s.found.link port = 5) → exec (.keepAliveSend port) s = .next (s.ends (s.found.sendKeepAlive port))) ∧
  (∀ (s : State) (port : Nat) (frame : Frame),
      s.awake → port < 2 → (s.found.link port = 4 ∨ s.found.link port = 5) → bitOf (frame.field 0 1) 7 = true → exec (.keepAlive port frame) s = .next (s.ends (((s.found.setPort port (fun p => { p with peerSrc := frame.hdr.src, peerKa := true })).noteSeed port frame).peerLeaves port))) ∧
  (∀ (s : State) (port : Nat) (frame : Frame),
      s.awake → port < 2 → (s.found.link port = 4 ∨ s.found.link port = 5) → bitOf (frame.field 0 1) 7 = false → exec (.keepAlive port frame) s = .next (s.ends (((s.found.setPort port (fun p => { p with peerSrc := frame.hdr.src, peerKa := true })).noteSeed port frame).setPort port (fun p => { p with peerLeaving := false })))) ∧
  (∀ (s : State) (port : Nat),
      s.awake → s.found.link port = 4 → exec (.keepAliveLoss port) s = .next (s.ends (s.found.setLink port 6))) ∧
  (∀ (s : State) (port : Nat),
      s.awake → port < 2 → s.found.on pSys SYS.CLK_STAT_REF156 = true → exec (.serdesPllUnlock port) s = .next (s.ends ((s.found.put (pRport port) RPORT.STAT_PLL_LOCK 0).raise (pRport port) 0)))

/-- The events of node IDs, announcements and heals complete with their own effect: under the conditions of its rule each answers the next state that the rule gives. -/
def Obligations.TopologyEventsComplete : Prop :=
  (∀ (s : State) (id : Nat),
      s.awake → s.found.get pTopo TOPO.STAT_ID_STATE ≠ 3 → s.found.numberless = true → s.found.candidate = some id → exec .idAssign s = .next (s.ends (s.found.takeId id 1))) ∧
  (∀ (s : State),
      s.awake → s.found.numberless = true → s.found.mode.forwards = true → s.found.ownSeedOnly 0 = true → s.found.ownSeedOnly 1 = true → exec .seed s = .next (s.ends ((s.found.takeId 1 1).put pTopo TOPO.STAT_SEEDED 1))) ∧
  (∀ (s : State) (id : Nat),
      s.awake → s.found.get pTopo TOPO.STAT_ID_STATE = 3 → s.found.numberless = true → s.found.candidate = some id → exec .idRetake s = .next (s.ends (s.found.takeId id 1))) ∧
  (∀ (s : State),
      s.awake → exec .presentSend s = .next (s.ends (s.found.announce 2 0 0 0))) ∧
  (∀ (s : State) (port : Nat) (frame : Frame),
      s.awake → port < 2 → frame.hdr.type = 0x10 → frame.field 18 1 = 1 → frame.hdr.src ≠ 0 → frame.hdr.src ≤ 4094 → frame.hdr.src ≠ s.found.nodeId → exec (.join port frame) s = .next (s.ends ((((s.found.inc pTopo TOPO.EVENTS_JOINS).refreshMember port frame).recordOpenness port frame).resteerIf s.found))) ∧
  (∀ (s : State) (port : Nat) (frame : Frame),
      s.awake → port < 2 → frame.hdr.type = 0x10 → frame.field 18 1 = 2 → frame.hdr.src ≠ 0 → frame.hdr.src ≤ 4094 → frame.hdr.src ≠ s.found.nodeId → exec (.present port frame) s = .next (s.ends (((s.found.refreshMember port frame).recordOpenness port frame).resteerIf s.found))) ∧
  (∀ (s : State) (port : Nat) (frame : Frame),
      s.awake → port < 2 → frame.hdr.type = 0x10 → frame.field 18 1 = 3 → frame.hdr.src ≠ 0 → frame.hdr.src ≤ 4094 → frame.hdr.src ≠ s.found.nodeId → exec (.leave port frame) s = .next (s.ends (((s.found.inc pTopo TOPO.EVENTS_LEAVES).removeMember frame.hdr.src).resteerIf s.found))) ∧
  (∀ (s : State) (port : Nat) (frame : Frame),
      s.awake → port < 2 → frame.hdr.type = 0x10 → frame.field 18 1 = 4 → frame.hdr.src ≠ 0 → frame.hdr.src ≤ 4094 → frame.hdr.src ≠ s.found.nodeId → namedPort frame = port → exec (.breakAnnouncement port frame) s = .next (s.ends (((((s.found.inc pTopo TOPO.EVENTS_BREAKS).refreshMember port frame).cancelHeal port frame).putRecord port frame).resteerIf s.found))) ∧
  (∀ (s : State) (port : Nat) (frame : Frame),
      s.awake → port < 2 → frame.hdr.type = 0x10 → frame.field 18 1 = 5 → frame.hdr.src ≠ 0 → frame.hdr.src ≤ 4094 → frame.hdr.src ≠ s.found.nodeId → frame.field 28 8 ≤ ((s.found.inc pTopo TOPO.EVENTS_HEALS).refreshMember port frame).now → exec (.heal port frame) s = .next (s.ends ((((s.found.inc pTopo TOPO.EVENTS_HEALS).refreshMember port frame).dropRecord (namedPort frame) frame.hdr.src (annGen (namedPort frame) frame)).resteerIf s.found))) ∧
  (∀ (s : State) (id port : Nat) (m : Member),
      s.awake → s.found.member id = some m → port = 0 → exec (.hopsExpire id port) s = .next (s.ends (((s.found.setTopo (fun t => { t with members := Map.set t.members id { m with hopsE := none } })).dropSilent id).resteerIf s.found))) ∧
  (∀ (s : State) (port : Nat),
      s.awake → port < 2 → s.found.link port = 4 → s.found.portOpen port = false → (s.found.port port).peerLeaving = false → Map.find s.found.topo.healAt port = none → s.found.fenced pSw = false → exec (.linkStable port) s = .next (s.ends (((((s.found.bumpGen port).setTopo (fun t => { t with healAt := Map.set t.healAt port (s.found.now + 500000 * s.found.cfg pTopo TOPO.TIMERS_HEAL_DELAY) })).noteHeal).announce 5 port ((((s.found.bumpGen port).setTopo (fun t => { t with healAt := Map.set t.healAt port (s.found.now + 500000 * s.found.cfg pTopo TOPO.TIMERS_HEAL_DELAY) })).noteHeal).port port).peerSrc (s.found.now + 500000 * s.found.cfg pTopo TOPO.TIMERS_HEAL_DELAY))))) ∧
  (∀ (s : State) (sender port : Nat),
      s.awake → sender = s.found.nodeId → (Map.find s.found.topo.healAt port).isSome = true → s.found.link port = 4 → s.found.fenced pSw = false → exec (.healInstant sender port) s = .next (s.ends ((s.found.openPort port).resteerIf s.found))) ∧
  (∀ (s : State) (flow : Nat),
      s.awake → exec (.steerHold flow) s = .next (s.ends (s.found.setTopo (fun t => { t with heldFlows := t.heldFlows.filter (fun f => f != flow) })))) ∧
  (∀ (s : State) (req : Req) (value : Nat),
      s.awake → s.admits req pTopo 0x058 → exec (.wake req value) s = .next (s.wrote req (s.found.writeWake value)))

/-- The commands of ring time complete with their own effect: under the conditions of its rule each answers the next state that the rule gives. -/
def Obligations.RingTimeCommandsComplete : Prop :=
  (∀ (s : State) (port : Nat),
      s.awake → port < 2 → s.found.link port = 4 → exec (.neighbourDelayRequestSend port) s = .next (s.ends ((s.found.sendLink port 0x32 (leBytes 2 (s.found.port port).pd.nextId ++ leBytes 6 0)).setPd port (fun d => { d with nextId := ((s.found.port port).pd.nextId + 1) % 65536 })))) ∧
  (∀ (s : State) (port stamp : Nat) (frame : Frame),
      s.awake → port < 2 → s.found.link port = 4 → exec (.neighbourDelayRequest port stamp frame) s = .next (s.ends (s.found.delayAnswered port stamp frame))) ∧
  (∀ (s : State) (port stamp : Nat) (frame : Frame) (id : Nat) (t1 : Int),
      s.awake → (s.found.port port).pd.waiting = some (id, t1) → port < 2 → s.found.link port = 4 → frame.field 0 2 = id → exec (.neighbourDelayResponse port stamp frame) s = .next (s.ends ((s.found.setPd port (fun q => { q with waiting := none })).filterDelay port ((s.found.stamp port false stamp - t1 - toSigned 64 (frame.field 4 8)) / 2)))) ∧
  (∀ (s : State) (port : Nat) (x : Nat × Int),
      s.awake → (s.found.port port).pd.waiting = some x → exec (.pdLost port) s = .next (s.ends ((s.found.setPd port (fun q => { q with waiting := none })).inc pTime TIME.PD_LOST_COUNT))) ∧
  (∀ (s : State),
      s.awake → s.found.timeState = 3 → exec .syncSend s = .next (s.ends (s.found.originate { cls := .timed, hdr := { type := 0x03, dst := 4095, ten := 0xF }, payload := s.found.syncPayload }))) ∧
  (∀ (s : State) (port stamp : Nat) (frame : Frame) (d : Int),
      s.awake → s.found.dIn port = some d → s.found.pllHeld = false → s.found.ignoresRank (frame.field 9 1, frame.field 20 16) = false → exec (.timeSync port stamp frame) s = .next (s.ends ((s.found.acceptSync port stamp frame d).timeFollows s.found))) ∧
  (∀ (s : State) (port stamp : Nat) (frame : Frame),
      s.awake → s.found.dIn port = none → exec (.timeSync port stamp frame) s = .next (s.ends (s.found.inc pTime TIME.SYNC_IGNORED_COUNT))) ∧
  (∀ (s : State),
      s.awake → s.found.timeState = 1 → exec .syncTo s = .next (s.ends (s.found.setTime 0))) ∧
  (∀ (s : State),
      s.awake → (s.found.timeState = 2 ∨ s.found.timeState = 5) → exec .syncTo s = .next (s.ends ((s.found.setTime 4).timeValidityHook s.found))) ∧
  (∀ (s : State),
      s.awake → s.found.timeCandidate = true → (s.found.timeState = 0 ∨ s.found.timeState = 2 ∨ s.found.timeState = 4 ∧ s.found.pllHeld = false) → exec .masterClaim s = .next (s.ends (((s.found.setTime 3).setMaster s.found.nodeId (some s.found.ownKey)).timeFollows s.found))) ∧
  (∀ (s : State),
      s.awake → s.found.timeState ≠ 2 → s.found.timeState ≠ 3 → exec .holdValid s = .next (s.ends (((s.found.setTimeSt (fun t => { t with holdExpired := true })).noteTime).timeValidityHook s.found))) ∧
  (∀ (s : State),
      s.awake → s.found.mainInUse = true → exec .fallBackLoad s = .next (s.ends (s.found.fbCopy))) ∧
  (∀ (s : State) (req : Req),
      s.awake → s.admitsRead req pTime 0x048 → exec (.nowLo req) s = .next (s.told req (s.found.readNow))) ∧
  (∀ (s : State) (req : Req) (value : Nat),
      s.awake → s.admits req pTime 0x064 → fbIncOk value = true → exec (.fbInc req value) s = .next (s.wrote req (s.found.put pTime TIME.FB_INC_INC value)))

/-- The commands of the Track follower complete with their own effect: under the conditions of its rule each answers the next state that the rule gives. -/
def Obligations.TrackCommandsComplete : Prop :=
  (∀ (s : State) (track : Nat),
      s.awake → track < 16 → s.found.sourceRuns track = true → s.found.sampleDue track = true → (s.found.track track).ssiReading = false → (s.found.gridNoted track).cfg (pTrk track) TRK.SRC_CFG_TYPE = 1 → exec (.sampleInstant track) s = .next (s.ends (((s.found.gridNoted track).quadPosition track).2.sourcePosition track ((s.found.gridNoted track).quadPosition track).1 ((s.found.gridNoted track).now8 % 2 ^ 67) (s.found.gridNoted track).onFallBack))) ∧
  (∀ (s : State) (track : Nat),
      s.awake → track < 16 → s.found.sourceRuns track = true → s.found.sampleDue track = true → (s.found.track track).ssiReading = false → (s.found.gridNoted track).cfg (pTrk track) TRK.SRC_CFG_TYPE = 2 → exec (.sampleInstant track) s = .next (s.ends ((s.found.gridNoted track).startTrackRead track))) ∧
  (∀ (s : State) (frame : Frame),
      s.awake → exec (.trackSample frame) s = .next (s.ends (s.found.offerSample (frame.hdr.aux % 16) (sampleOf frame) (bitOf (frame.field 8 1) 3) (bitOf (frame.field 8 1) 4)))) ∧
  (∀ (s : State) (track : Nat) (smp : Sample),
      s.awake → (s.found.track track).pass = some smp → s.found.passes.head? = some track → s.found.trackState track = 3 → exec (.conversionPass track) s = .next (s.ends (s.found.passEnded track))) ∧
  (∀ (s : State) (track : Nat) (smp : Sample),
      s.awake → (s.found.track track).pass = some smp → s.found.passes.head? = some track → s.found.passConverts track = true → exec (.conversionPass track) s = .next (s.ends ((s.found.convertAll track smp).passEnded track))) ∧
  (∀ (s : State) (owner number : Nat) (e : Nat × Nat × PosBind) (smp : Sample),
      s.awake → s.found.binds.find? (fun e => e.1 == owner && e.2.1 == number && e.2.2.new) = some e → s.found.conversionSample e.2.2.track = some smp → exec (.conversion owner number) s = .next (s.ends (s.found.convertAct smp owner number e.2.2))) ∧
  (∀ (s : State) (track : Nat) (a : Int),
      s.awake → s.found.trackAge track = some a → s.found.trackState track = 2 → s.found.ageLim track < a → exec (.ageLim track) s = .next (s.ends (s.found.setTrackState track 3))) ∧
  (∀ (s : State) (track : Nat),
      s.awake → s.found.trackState track ≠ 2 → s.found.beyondLim2 track = true → exec (.ageLim2 track) s = .next (s.ends ((s.found.bindsOf track).foldl (fun g e => if e.2.2.committed then g else (g.dropAct e.1 e.2.1 false).inc (pTrk track) TRK.POL_DROP_COUNT) s.found))) ∧
  (∀ (s : State) (req : Req) (track value : Nat),
      s.awake → s.admits req (pTrk track) 0x054 → slice value 16 16 = 0x5E7A → bitOf value 0 = true → s.found.isSource track = true → exec (.presetCmd req track value) s = .next (s.wrote req (s.found.setTrack track (fun t => { t with preset := true })))) ∧
  (∀ (s : State) (req : Req) (track mask : Nat),
      s.awake → s.admits req (pTrk track) 0x1C4 → exec (.statsClr req track mask) s = .next (s.wrote req (s.found.clearStats track (mask % 16)))) ∧
  (∀ (s : State) (track profile : Nat) (x : Measure),
      s.awake → Map.find (s.found.track track).open_ profile = some x → s.found.feedbackWindow track profile ≤ tickDiff s.found.now x.firedAt → exec (.fbMiss track profile) s = .next (s.ends (s.found.missMeasure track profile))) ∧
  (∀ (s : State) (req : Req) (track : Nat),
      s.awake → s.admitsRead req (pTrk track) 0x068 → exec (.smpTsLo req track) s = .next (s.told req (s.found.readSample track))) ∧
  (∀ (s : State) (req : Req) (track : Nat),
      s.awake → s.admitsRead req (pTrk track) 0x084 → exec (.nowPosLo req track) s = .next (s.told req (s.found.readPosition track)))

/-- The commands of the Atrium engine complete with their own effect: under the conditions of its rule each answers the next state that the rule gives. -/
def Obligations.AtriumCommandsComplete : Prop :=
  (∀ (s : State) (epoch : Nat),
      s.awake → s.found.mode.fromTransparent = true → s.found.mayOpen epoch = true → s.found.atrOn = true → exec (.samplingInstant epoch) s = .next (s.ends ((s.found.epochOpened epoch).epochSampled epoch))) ∧
  (∀ (s : State) (epoch : Nat),
      s.awake → s.found.mode.fromTransparent = true → s.found.mayOpen epoch = true → s.found.atrOn = false → exec (.samplingInstant epoch) s = .next (s.ends (s.found.epochSampled epoch))) ∧
  (∀ (s : State) (n : Nat),
      s.awake → s.found.atr.open_ = some n → s.found.closeTick n ≤ s.found.now → s.found.atrOn = true → s.found.fenced pAtr = false → s.found.atr.sampled = true → exec .closeInstant s = .next (s.ends (s.found.closeEpoch n))) ∧
  (∀ (s : State) (frame : Frame),
      s.awake → s.found.atrOn = true → s.found.fenced pAtr = false → s.found.openNow.judgeSlot frame = .accept → s.found.openNow.modeEff ≠ .islanded → exec (.atriumSlot frame) s = .next (s.ends ((s.found.openNow.atrCount 1 1).setAtr (fun a => { a with back := Map.set a.back frame.hdr.src (frame.payload.take (frame.hdr.len - 2), true) })))) ∧
  (∀ (s : State) (frame : Frame),
      s.awake → s.found.atrOn = true → s.found.fenced pAtr = false → s.found.openNow.judgeSlot frame = .shape → exec (.atriumSlot frame) s = .next (s.ends (s.found.openNow.atrCount 5 1))) ∧
  (∀ (s : State) (req : Req),
      s.awake → s.admits req pAtr 0x04C → exec (.ready req) s = .next (s.wrote req (s.found.put pAtr ATR.PUB_CTL_READY 1))) ∧
  (∀ (s : State) (req : Req) (offset size value : Nat),
      s.awake → (size = 1 ∨ size = 2 ∨ size = 4 ∨ size = 8) → offset % size = 0 → offset + size ≤ 1024 → (s.found.writeShadow req offset (leBytes size value)).2 = true → exec (.publishBufferWrite req offset size value) s = .next (s.ends ((s.found.writeShadow req offset (leBytes size value)).1.emit (.resp req true)))) ∧
  (∀ (s : State) (req : Req),
      s.awake → s.admitsRead req pAtr 0x054 → exec (.epochLo req) s = .next (s.told req (s.found.readEpoch)))

/-- The commands of the bridge complete with their own effect: under the conditions of its rule each answers the next state that the rule gives. -/
def Obligations.BridgeCommandsComplete : Prop :=
  (∀ (s : State) (req : Req) (n : Nat) (window : Bool) (node : Nat) (bulk : Option Bool) (addr acc : Nat) (data : List Byte) (x : BusAccess),
      s.awake → s.found.requesterUp req = true → s.found.accessOf req n window node bulk addr (2 ^ (acc % 4)) = some x → exec (.remoteWriteIssue req n window node bulk addr acc data) s = .next (s.ends (s.found.accessWrite x data))) ∧
  (∀ (s : State) (req : Req) (n : Nat) (window : Bool) (node : Nat) (bulk : Option Bool) (addr acc len : Nat) (x : BusAccess),
      s.awake → s.found.requesterUp req = true → s.found.accessOf req n window node bulk addr (2 ^ (acc % 4)) = some x → exec (.remoteReadIssue req n window node bulk addr acc len) s = .next (s.ends (s.found.accessRead x len))) ∧
  (∀ (s : State) (frame : Frame),
      s.awake → frame.hdr.type = 0x08 → exec (.remoteWrite frame) s = .next (s.ends (s.found.takeRequest { frame := frame }))) ∧
  (∀ (s : State) (frame : Frame) (uncorr : Option Nat),
      s.awake → frame.hdr.type = 0x09 → exec (.remoteReadRequest frame uncorr) s = .next (s.ends (s.found.takeRequest { frame := frame, uncorr := uncorr }))) ∧
  (∀ (s : State) (frame : Frame),
      s.awake → frame.hdr.type = 0x0A → s.found.fenced pBrg = false → s.found.matchedRead frame = none → exec (.readResponse frame) s = .next (s.ends (s.found.unmatched frame))) ∧
  (∀ (s : State) (frame : Frame) (i : Nat) (x : OpenRead),
      s.awake → frame.hdr.type = 0x0A → s.found.fenced pBrg = false → s.found.matchedRead frame = some (i, x) → frame.field 2 2 + 8 = frame.hdr.len → frame.field 0 1 = 0 → exec (.readResponse frame) s = .next (s.ends ((s.found.freeRead i false).complete x.origin false x.bulk x.dst x.addr 0 (frame.payload.drop 8)))) ∧
  (∀ (s : State) (slot : Nat) (x : OpenRead),
      s.awake → (s.found.slot slot).read = some x → exec (.rdTo slot) s = .next (s.ends ((((s.found.inc pBrg BRG.TIMEOUT_COUNT).freeRead slot true).complete x.origin false x.bulk x.dst x.addr 0x0D []).raise pBrg 3))) ∧
  (∀ (s : State) (slot : Nat),
      s.awake → exec (.tagSlotRelease slot) s = .next (s.ends ((s.found.setSlot slot { s.found.slot slot with resting := false }).pump))) ∧
  (∀ (s : State) (entry : Nat),
      s.awake → entry < 32 → s.found.cfgOn pBrg (BRG.IRQ_OUT_SRC_SW entry) = false → bitOf (s.found.irqPend (s.found.cfg pBrg (BRG.IRQ_OUT_SRC_PAGE entry))) (s.found.cfg pBrg (BRG.IRQ_OUT_SRC_BIT entry)) = true → exec (.interruptMessageSend entry) s = .next (s.ends (s.found.interruptEvent entry))) ∧
  (∀ (s : State) (req : Req) (value : Nat),
      s.awake → s.admits req pBrg 0x064 → exec (.irqSend req value) s = .next (s.wrote req (s.found.writeIrqSend value))) ∧
  (∀ (s : State) (port : Nat) (frame : Frame),
      s.awake → frame.hdr.type = 0x0C → s.found.fenced pBrg = false → (frame.cls = .bulk ∨ s.found.pathWhole port frame.hdr.src = true) → exec (.interruptMessage port frame) s = .next (s.ends (s.found.sinkInterrupt frame))) ∧
  (∀ (s : State) (src seq : Nat) (e : Nat × Frame),
      s.awake → s.found.heldMessage src seq = some e → s.found.otherCaughtUp e.1 e.2.hdr = true → exec (.irqHeldRelease src seq) s = .next (s.ends ((s.found.unhold e).sinkInterrupt e.2))) ∧
  (∀ (s : State) (src seq : Nat) (e : Nat × Frame),
      s.awake → s.found.heldMessage src seq = some e → exec (.irqHold src seq) s = .next (s.ends ((((s.found.unhold e).inc pBrg BRG.IRQ_LATE_COUNT).irq pBrg 2).sinkInterrupt e.2))) ∧
  (∀ (s : State) (frame : Frame) (e : Nat),
      s.awake → frame.hdr.type = 0x20 → s.found.fenced pBrg = false → routedLenOk frame = true → (List.range 512).find? (fun e => s.found.inboundMatch e frame) = some e → exec (.routedMessage frame) s = .next (s.ends (s.found.routeIn e frame))) ∧
  (∀ (s : State) (entry : Nat),
      s.awake → entry < 32 → (Map.getD s.found.brg.irqOut entry {}).merged = true → s.found.irqOutOn entry = true → s.found.fenced pBrg = false → exec (.mergedInterruptMessage entry) s = .next (s.ends ((s.found.setIrqOut entry { spacing := true }).sendInterrupt entry)))

/-- The commands of the switch and the Bulk buffers complete with their own effect: under the conditions of its rule each answers the next state that the rule gives. -/
def Obligations.SwitchCommandsComplete : Prop :=
  (∀ (s : State) (a : Arrival) (q : List Arrival),
      s.awake → s.found.sw.bulk = a :: q → exec .bulkAdmission s = .next (s.ends ((s.found.setSw (fun x => { x with bulk := q })).underPrior a.old (fun g => g.admitFrame a)))) ∧
  (∀ (s : State) (a : Arrival) (q : List Arrival),
      s.awake → s.found.sw.taps = a :: q → a.old = false → (s.found.setSw (fun x => { x with taps := q })).fenced pSw = true → exec .expressAdmission s = .next (s.ends ((s.found.setSw (fun x => { x with taps := q })).fenceDrop 1))) ∧
  (∀ (s : State) (a : Arrival) (q : List Arrival),
      s.awake → s.found.sw.taps = a :: q → a.old = false → (s.found.setSw (fun x => { x with taps := q })).fenced pSw = false → (a.egress ≠ 2 ∨ (s.found.setSw (fun x => { x with taps := q })).etherOpen = true) → (s.found.setSw (fun x => { x with taps := q })).xtPortCells a.egress + a.frame.cells ≤ (s.found.setSw (fun x => { x with taps := q })).cfg pSw SW.BUF_XT_PORT_MAX → exec .expressAdmission s = .next (s.ends ((s.found.setSw (fun x => { x with taps := q })).toVoq a.egress 0 { frame := a.frame, cells := a.frame.cells, since := (s.found.setSw (fun x => { x with taps := q })).clock, ingress := a.ingress, stamp := a.stamp }))) ∧
  (∀ (s : State) (flow : Nat) (p : Pin),
      s.awake → Map.find s.found.sw.pins flow = some p → p.used + s.found.cfg pSw SW.LENS_CFG_PIN_AGE * 500000000 ≤ s.found.clock → exec (.pinAge flow) s = .next (s.ends ((s.found.setSw (fun w => { w with pins := Map.erase w.pins flow })).setTopo (fun t => { t with flowDir := Map.erase t.flowDir flow })))) ∧
  (∀ (s : State),
      s.awake → exec .lensEpoch s = .next (s.ends (s.found.syncLens))) ∧
  (∀ (s : State) (passed : Bool) (mr4 : Nat),
      s.awake → s.found.get pDram DRAM.STAT_STATE = 1 → passed = true → exec (.trainingEnd passed mr4) s = .next (s.ends (((s.found.put pDram DRAM.STAT_MR4 mr4).put pDram DRAM.OVF_CAP_CELLS s.found.overflowCap).setDram 2))) ∧
  (∀ (s : State) (passed : Bool) (mr4 : Nat),
      s.awake → s.found.get pDram DRAM.STAT_STATE = 1 → passed = false → exec (.trainingEnd passed mr4) s = .next (s.ends ((((s.found.put pDram DRAM.STAT_MR4 mr4).put pDram DRAM.OVF_CAP_CELLS s.found.overflowCap).setDram 3).raise pDram 0))) ∧
  (∀ (s : State) (req : Req),
      s.awake → s.admitsRead req pQos 0x144 → exec (.qdDepth req) s = .next (s.told req (s.found.readDepth))) ∧
  (∀ (s : State),
      s.awake → s.found.brg.refilled ≠ some s.found.gridPoint → exec .tokenRefill s = .next (s.ends (((List.range 8).foldl (fun g t => g.put (pTen t) TEN.STAT_TOKENS (g.cfg (pTen t) TEN.XBUDGET_BYTES)) (s.found.setBrg (fun b => { b with refilled := some s.found.gridPoint }))).pump))) ∧
  (∀ (s : State),
      s.awake → exec .dramTimeout s = .next (s.ends (s.found.raise pDram 2))) ∧
  (∀ (s : State) (frame : Frame),
      s.awake → frame.hdr.type = 0x1A → s.found.cfgOn pSw SW.PSC_RX_EN = true → exec (.mirrorCopy frame) s = .next (s.ends (s.found.arrive { ingress := 7, egress := 2, queue := some (s.found.cfg pSw SW.PSC_QUEUE), frame := mirrorEtherFrame frame.hdr.ten (s.found.mirrorEther (frame.payload.take 9198)) }))) ∧
  (∀ (s : State) (frame : Frame),
      s.awake → frame.hdr.type = 0x1A → s.found.cfgOn pSw SW.PSC_RX_EN = false → exec (.mirrorCopy frame) s = .next (s.ends (s.found.inc pSw SW.PSC_DISCARD_COUNT))) ∧
  (∀ (s : State) (frame : Frame) (buffers : List (Nat × Nat)) (cut : Nat),
      s.awake → frame.hdr.type = 0x18 → 60 ≤ frame.field 0 2 → frame.field 0 2 ≤ 9212 → frame.hdr.len = 16 + frame.field 0 2 → s.found.cfgOn pEth ETH.TUN_RX_EN = false → exec (.tunnelledEthernetFrame frame buffers cut) s = .next (s.ends (s.found.offerHost frame buffers))) ∧
  (∀ (s : State) (frame : Frame) (buffers : List (Nat × Nat)) (cut : Nat),
      s.awake → frame.hdr.type = 0x18 → frame.field 0 2 < 60 → exec (.tunnelledEthernetFrame frame buffers cut) s = .next (s.ends (s.found.inc pEth ETH.BAD_TUN_COUNT)))

/-- The commands of the channels and banks complete with their own effect: under the conditions of its rule each answers the next state that the rule gives. -/
def Obligations.ChannelCommandsComplete : Prop :=
  (∀ (s : State) (channel : Nat) (level : Bool),
      s.awake → channel < 128 → (s.found.balled (channel % 128) level).filterDone (channel % 128) = false → (s.found.balled (channel % 128) level).levelsFollow (channel % 128) = true → ((s.found.balled (channel % 128) level).ch (channel % 128)).raw ≠ (level != (s.found.balled (channel % 128) level).cfgOn (pCh (channel % 128)) CH.CFG_INV_IN) → ((s.found.balled (channel % 128) level).ch (channel % 128)).filt ≠ (level != (s.found.balled (channel % 128) level).cfgOn (pCh (channel % 128)) CH.CFG_INV_IN) → exec (.rawEdge channel level) s = .next (s.ends ((s.found.balled (channel % 128) level).setCh (channel % 128) (fun x => { x with raw := (level != (s.found.balled (channel % 128) level).cfgOn (pCh (channel % 128)) CH.CFG_INV_IN), measuring := some (s.found.balled (channel % 128) level).rawEdge })))) ∧
  (∀ (s : State) (channel : Nat) (level : Bool),
      s.awake → channel < 128 → (s.found.balled (channel % 128) level).levelsFollow (channel % 128) = false → exec (.rawEdge channel level) s = .next (s.ends ((s.found.balled (channel % 128) level)))) ∧
  (∀ (s : State) (channel : Nat) (withPair : Bool),
      s.awake → withPair = false → s.found.filterDone (channel % 128) = true → exec (.filteredEdge channel withPair) s = .next (s.ends (s.found.acceptLevel (channel % 128) false))) ∧
  (∀ (s : State) (req : Req) (channel : Nat) (level : Bool),
      s.awake → s.admits req (pCh channel) 0x050 → s.found.modeEff ≠ .held → s.found.chMode channel = 1 → exec (.outLevel req channel level) s = .next (s.wrote req (((s.found.put (pCh channel) CH.OUT_DUTY (s.found.levelWord channel level / 2 ^ 16)).put (pCh channel) CH.OUT_LEVEL (s.found.levelWord channel level)).levelEvent channel 4 (fun _ => bitOf (s.found.levelWord channel level) 0) none))) ∧
  (∀ (s : State) (req : Req) (channel duty : Nat),
      s.awake → s.admits req (pCh channel) 0x050 → s.found.modeEff ≠ .held → s.found.chMode channel = 2 → exec (.outDuty req channel duty) s = .next (s.wrote req (((s.found.put (pCh channel) CH.OUT_DUTY (s.found.dutyWord channel duty / 2 ^ 16)).put (pCh channel) CH.OUT_LEVEL (s.found.dutyWord channel duty)).dutyEvent channel 4 (slice (s.found.dutyWord channel duty) 16 16)))) ∧
  (∀ (s : State) (req : Req) (channel tag : Nat),
      s.awake → s.admits req (pCh channel) 0x078 → (s.found.pushEntry channel tag).2 = true → exec (.qE3 req channel tag) s = .next (s.wrote req ((s.found.pushEntry channel tag).1))) ∧
  (∀ (s : State) (channel : Nat) (e : QEntry) (i : Nat),
      s.awake → s.found.dueEntry channel = some (e, i) → s.found.modeEff ≠ .armed → e.pos = none → exec (.queueEntryFire channel) s = .next (s.ends (s.found.fireEntry channel e (passed s.found.now i)))) ∧
  (∀ (s : State) (channel : Nat) (e : QEntry) (i : Nat),
      s.awake → s.found.dueEntry channel = some (e, i) → s.found.modeEff = .armed → exec (.queueEntryFire channel) s = .next (s.ends (s.found.dropEntry channel e.number true))) ∧
  (∀ (s : State) (channel : Nat) (src : Nat) (level : Bool) (i : Nat),
      s.awake → (s.found.ch channel).ending = some (src, level, i) → due s.found.now i = true → exec (.pendingEnd channel) s = .next (s.ends (s.found.levelEvent channel src (fun _ => level) none))) ∧
  (∀ (s : State) (req : Req) (channel : Nat),
      s.awake → s.admits req (pCh channel) 0x04C → exec (.flush req channel) s = .next (s.wrote req (s.found.flushQueue channel false))) ∧
  (∀ (s : State) (req : Req) (channel : Nat),
      s.awake → s.admits req (pCh channel) 0x04C → exec (.rearm req channel) s = .next (s.wrote req (s.found.rearm channel))) ∧
  (∀ (s : State) (req : Req) (channel : Nat),
      s.awake → s.admits req (pCh channel) 0x04C → exec (.capClr req channel) s = .next (s.wrote req (s.found.emptyCaptures channel))) ∧
  (∀ (s : State) (req : Req) (channel n : Nat),
      s.awake → s.admits req (pCh channel) 0x068 → n % 32 ≤ (s.found.ch channel).fifo.length → exec (.capAck req channel n) s = .next (s.wrote req (s.found.consumeCaptures channel (n % 32)))) ∧
  (∀ (s : State) (req : Req) (channel value : Nat),
      s.awake → s.admits req (pCh channel) 0x058 → s.found.chMode channel ≠ 3 → exec (.cnt req channel value) s = .next (s.wrote req (s.found.put (pCh channel) CH.CNT_COUNT (value + s.found.countedNow channel)))) ∧
  (∀ (s : State) (req : Req) (channel value : Nat),
      s.awake → s.admits req (pCh channel) 0x058 → s.found.chMode channel = 3 → s.found.sourcePair channel = false → exec (.cnt req channel value) s = .next (s.wrote req (s.found.setPair (channel - channel % 2) value))) ∧
  (∀ (s : State) (req : Req) (channel : Nat),
      s.awake → s.admitsRead req (pCh channel) 0x05C → exec (.capLo req channel) s = .next (s.told req (s.found.readCapture channel))) ∧
  (∀ (s : State) (req : Req) (channel : Nat),
      s.awake → s.admitsRead req (pCh channel) 0x07C → exec (.fireInfo req channel) s = .next (s.told req (s.found.readFire channel))) ∧
  (∀ (s : State) (channel : Nat),
      s.awake → channel < 128 → s.found.readBackRuns channel = true → exec (.readback channel) s = .next (s.ends ((s.found.inc (pCh channel) CH.READBACK_COUNT).raise (pCh channel) 0))) ∧
  (∀ (s : State) (bank : Nat),
      s.awake → bank < 16 → s.found.bankReads bank = true → inWindow (s.found.bankClass bank) (s.found.get (pBank bank) BANK.STAT_VMEAS) = false → exec (.supplyRange bank) s = .next (s.ends (s.found.raise (pBank bank) 1))) ∧
  (∀ (s : State) (bank millivolts : Nat),
      s.awake → bank < 16 → exec (.bankMeasurement bank millivolts) s = .next (s.ends ((s.found.setBankMv bank millivolts).measureBank bank))) ∧
  (∀ (s : State) (channel : Nat) (d : Nat) (m : Nat),
      s.awake → (s.found.ch channel).nextDuty = some (d, m) → s.found.chMode channel = 2 → s.found.pwmNumber channel ≠ m → exec (.pwmPeriod channel) s = .next (s.ends (s.found.setCh channel (fun x => { x with duty := d, nextDuty := none }))))

/-- The commands of the serial controllers complete with their own effect: under the conditions of its rule each answers the next state that the rule gives. -/
def Obligations.SerialCommandsComplete : Prop :=
  (∀ (s : State) (req : Req) (page off value : Nat),
      s.awake → s.found.turnedAway req page off 4 = none → pushPlace page off = true → exec (.txd req page off value) s = .next (s.ends (s.found.pushTx page value (.reply req (pageAddr page off))))) ∧
  (∀ (s : State) (page : Nat),
      s.awake → kindOf page = some .prs → exec (.stallTo page) s = .next (s.ends (s.found.stallTimeoutIn (instOf page)))) ∧
  (∀ (s : State) (page : Nat),
      s.awake → kindOf page ≠ some .prs → exec (.stallTo page) s = .next (s.ends (s.found.stallTimeout page))) ∧
  (∀ (s : State) (req : Req) (page off : Nat),
      s.awake → s.admitsRead req page off → popPlace page off = true → exec (.rxd req page off) s = .next (s.told req (s.found.popRx page))) ∧
  (∀ (s : State) (req : Req) (page : Nat),
      s.awake → s.admits req page 0x050 → exec (.txFlush req page) s = .next (s.wrote req (s.found.flushTx page))) ∧
  (∀ (s : State) (req : Req) (page : Nat),
      s.awake → s.admits req page 0x050 → exec (.rxFlush req page) s = .next (s.wrote req (((s.found.setSer page (fun x => { x with rx := [] })).rtsFollow page).settleOwed page 64))) ∧
  (∀ (s : State) (req : Req) (page : Nat),
      s.awake → s.admits req page 0x050 → exec (.tsClr req page) s = .next (s.wrote req (s.found.setSer page (fun x => { x with stamps := [], head := (x.head + x.stamps.length) % 16 })))) ∧
  (∀ (s : State) (req : Req) (page value : Nat),
      s.awake → s.admits req page 0x058 → value % 32 ≤ (s.found.ser page).stamps.length → exec (.tsAck req page value) s = .next (s.wrote req (s.found.setSer page (fun x => { x with stamps := x.stamps.drop (value % 32), head := (x.head + value % 32) % 16 })))) ∧
  (∀ (s : State) (page : Nat),
      s.awake → (s.found.ser page).rx ≠ [] → s.found.cfg page SER.FIFO_CFG_RX_TO ≠ 0 → exec (.rxTo page) s = .next (s.ends (s.found.irq page 2))) ∧
  (∀ (s : State) (unit : Nat) (rx : UartRx) (ago : Nat) (old : Bool),
      s.awake → exec (.uartCharacterReceive unit rx ago old) s = .next (s.ends (s.found.receiveChar (pUart unit) rx ago old))) ∧
  (∀ (s : State) (unit : Nat),
      s.awake → s.found.runs (pUart unit) = true → s.found.serHeld (pUart unit) = false → s.found.cfgOn (pUart unit) UART.FRAME_FLOW = false → exec (.uartCharacterTransmit unit) s = .next (s.ends (s.found.sendNext (pUart unit)))) ∧
  (∀ (s : State) (unit : Nat),
      s.awake → s.found.runs (pUart unit) = true → exec (.messageEnd unit) s = .next (s.ends (s.found.endMessage (pUart unit)))) ∧
  (∀ (s : State) (req : Req) (unit value : Nat),
      s.awake → s.admits req (pUart unit) 0x080 → exec (.wakeIol req unit value) s = .next (s.wrote req (s.found.writeIol (pUart unit) value))) ∧
  (∀ (s : State) (unit : Nat),
      s.awake → (s.found.ser (pUart unit)).uart.awaiting = true → exec (.respTo unit) s = .next (s.ends (((s.found.setUart (pUart unit) (fun u => { u with awaiting := false })).inc (pUart unit) UART.RESP_TO_COUNT).pushRx (pUart unit) (2 ^ 25)))) ∧
  (∀ (s : State) (req : Req) (unit value : Nat),
      s.awake → s.found.turnedAway req (pSpi unit) 0x078 4 = none → exec (.frame req unit value) s = .next (s.ends (s.found.pushTx (pSpi unit) (frameEntry value) (.reply req (pageAddr (pSpi unit) 0x078))))) ∧
  (∀ (s : State) (unit data : Nat) (old : Bool),
      s.awake → s.found.works (pSpi unit) old = true → s.found.serCfg (pSpi unit) old SPI.CLK_ROLE = 0 → exec (.spiWord unit data old) s = .next (s.ends ((s.found.masterWord (pSpi unit) data (s.found.wordForm (pSpi unit) old)).finishSer (pSpi unit)))) ∧
  (∀ (s : State) (unit : Nat) (partWord : Bool),
      s.awake → s.found.cfg (pSpi unit) SPI.CLK_ROLE = 1 → s.found.on (pSpi unit) SPI.STAT_FRAME_OPEN = true → partWord = false → exec (.csDeassert unit partWord) s = .next (s.ends (((s.found.put (pSpi unit) SPI.STAT_FRAME_OPEN 0).irq (pSpi unit) 4).finishSer (pSpi unit)))) ∧
  (∀ (s : State) (unit : Nat) (partWord : Bool),
      s.awake → s.found.cfg (pSpi unit) SPI.CLK_ROLE = 1 → s.found.on (pSpi unit) SPI.STAT_FRAME_OPEN = true → partWord = true → exec (.csDeassert unit partWord) s = .next (s.ends ((((s.found.put (pSpi unit) SPI.STAT_FRAME_OPEN 0).irq (pSpi unit) 4).inc (pSpi unit) SPI.SLV_PART_COUNT).finishSer (pSpi unit)))) ∧
  (∀ (s : State) (req : Req) (unit value : Nat),
      s.awake → s.admits req (pSpi unit) 0x074 → exec (.ssiCtlRead req unit value) s = .next (s.wrote req (s.found.writeSsiCtl unit value))) ∧
  (∀ (s : State) (unit raw : Nat) (first last : Bool) (k : Nat),
      s.awake → s.found.works (pSpi unit) true = true → s.found.serCfg (pSpi unit) (s.found.ser (pSpi unit)).finishing SPI.CLK_ROLE = 2 → s.found.hears (pSpi unit) 2 = true → s.found.ssiTrack unit = some k → (s.found.endSsi (pSpi unit)).serHeld (pSpi unit) = false → (s.found.endSsi (pSpi unit)).ssiPasses (pSpi unit) ((s.found.endSsi (pSpi unit)).cfg (pTrk k) TRK.SRC_CFG_SSI_BITS) raw first last = false → (((s.found.endSsi (pSpi unit)).setTrack k (fun t => { t with ssiReading := false })).ssiError (pSpi unit)).sourceRuns k = true → exec (.ssiReadEnd unit raw first last) s = .next (s.ends ((((s.found.endSsi (pSpi unit)).setTrack k (fun t => { t with ssiReading := false })).ssiError (pSpi unit)).encoderError k))) ∧
  (∀ (s : State) (unit raw : Nat) (first last : Bool),
      s.awake → s.found.works (pSpi unit) true = true → s.found.serCfg (pSpi unit) (s.found.ser (pSpi unit)).finishing SPI.CLK_ROLE = 2 → s.found.hears (pSpi unit) 2 = true → s.found.ssiTrack unit = none → (s.found.ser (pSpi unit)).spi.reading = true → ((s.found.endSsi (pSpi unit)).setSpi (pSpi unit) (fun x => { x with reading := false })).serHeld (pSpi unit) = false → ((s.found.endSsi (pSpi unit)).setSpi (pSpi unit) (fun x => { x with reading := false })).ssiPasses (pSpi unit) (((s.found.endSsi (pSpi unit)).setSpi (pSpi unit) (fun x => { x with reading := false })).cfg (pSpi unit) SPI.SSI_WIDTH) raw first last = true → exec (.ssiReadEnd unit raw first last) s = .next (s.ends (((((s.found.endSsi (pSpi unit)).setSpi (pSpi unit) (fun x => { x with reading := false })).pushRx (pSpi unit) (((s.found.endSsi (pSpi unit)).setSpi (pSpi unit) (fun x => { x with reading := false })).ssiValue (pSpi unit) (((s.found.endSsi (pSpi unit)).setSpi (pSpi unit) (fun x => { x with reading := false })).cfg (pSpi unit) SPI.SSI_WIDTH) raw)).irq (pSpi unit) 4).finishSer (pSpi unit)))) ∧
  (∀ (s : State) (unit : Nat) (ack arb : Bool) (bytes : List Byte) (ago : Nat) (e : Nat) (l : List Nat),
      s.awake → s.found.works (pI2c unit) true = true → s.found.serCfg (pI2c unit) (s.found.ser (pI2c unit)).finishing I2C.CFG_ROLE = 0 → (s.found.ser (pI2c unit)).i2c.due = [] → (s.found.ser (pI2c unit)).rx.length < 64 → s.found.serHeld (pI2c unit) = false → (s.found.ser (pI2c unit)).tx = e :: l → exec (.i2cTransmitEntry unit ack arb bytes ago) s = .next (s.ends ((s.found.i2cEntry (pI2c unit) e ack arb bytes ago).finishSer (pI2c unit)))) ∧
  (∀ (s : State) (unit : Nat),
      s.awake → (s.found.ser (pI2c unit)).i2c.held.isSome = true → s.found.cfg (pI2c unit) I2C.TIMEOUT_STRETCH_TO ≠ 0 → exec (.stretchTo unit) s = .next (s.ends (s.found.i2cStatus (pI2c unit) 0x04 0))) ∧
  (∀ (s : State) (unit : Nat) (read : Bool) (ago : Nat),
      s.awake → s.found.slaveRuns (pI2c unit) = true → (s.found.ser (pI2c unit)).rx.length < 64 → (s.found.ser (pI2c unit)).i2c.due = [] → exec (.ownAddressMatched unit read ago) s = .next (s.ends (((((s.found.put (pI2c unit) I2C.STAT_BUS_BUSY 1).put (pI2c unit) I2C.STAT_ADDRESSED 1).stampSer (pI2c unit) 1 (s.found.inputStamp ago) s.found.onFallBack).setI2c (pI2c unit) (fun i => { i with slave := some read })).pushRx (pI2c unit) (0x20000000 + flag read)))) ∧
  (∀ (s : State) (unit : Nat) (nack : Bool),
      s.awake → s.found.slaveRuns (pI2c unit) = true → (s.found.ser (pI2c unit)).i2c.slave = some true → (s.found.ser (pI2c unit)).tx = [] → s.found.serHeld (pI2c unit) = false → nack = false → exec (.slvStretchMax unit nack) s = .next (s.ends (s.found.sendOut (pI2c unit) 1 (.bus 0xFF)))) ∧
  (∀ (s : State) (unit : Nat),
      s.awake → (s.found.ser (pUart unit)).uart.stage = 1 → exec (.iolStageTimer unit) s = .next (s.ends (s.found.setUart (pUart unit) (fun u => { u with stage := 2, de := false, releaseAt := some s.found.clock })))) ∧
  (∀ (s : State) (unit ago : Nat),
      s.awake → s.found.runs (pSpi unit) = true → s.found.cfg (pSpi unit) SPI.CLK_ROLE = 1 → s.found.hears (pSpi unit) 3 = true → exec (.csAssert unit ago) s = .next (s.ends ((s.found.put (pSpi unit) SPI.STAT_FRAME_OPEN 1).stampSer (pSpi unit) 1 (s.found.inputStamp ago) s.found.onFallBack))) ∧
  (∀ (s : State) (unit : Nat) (data : Byte) (nack : Bool),
      s.awake → s.found.slaveRuns (pI2c unit) = true → (s.found.ser (pI2c unit)).i2c.slave = some false → (s.found.ser (pI2c unit)).rx.length < 64 → (s.found.ser (pI2c unit)).i2c.due = [] → exec (.i2cSlaveByte unit data nack) s = .next (s.ends (s.found.pushRx (pI2c unit) data.toNat))) ∧
  (∀ (s : State) (unit : Nat),
      s.awake → s.found.on (pI2c unit) I2C.STAT_ADDRESSED = true → exec (.i2cBusStop unit) s = .next (s.ends ((s.found.i2cIdle unit).pushOwed (pI2c unit) 0x30000000)))

/-- The register commands and timed events of the Prism engines complete with their own effect: under the conditions of its rule each answers the next state that the rule gives. -/
def Obligations.PrismRegisterCommandsComplete : Prop :=
  (∀ (s : State) (req : Req) (unit : Nat),
      s.awake → s.admits req (pPrs unit) 0x058 → s.found.startCheck unit false = 0 → exec (.start req unit) s = .next (s.wrote req (s.found.beginRun unit (edgeAfter s.found.clock)))) ∧
  (∀ (s : State) (req : Req) (unit : Nat),
      s.awake → s.admits req (pPrs unit) 0x058 → (s.found.prsState unit = 2 ∨ s.found.prsState unit = 3) → exec (.stop req unit) s = .next (s.wrote req ((s.found.leaveRun unit 1).setPrsState unit 1))) ∧
  (∀ (s : State) (req : Req) (unit : Nat),
      s.awake → s.admits req (pPrs unit) 0x058 → exec (.evtClr req unit) s = .next (s.wrote req (s.found.setFlags unit (0, 0)))) ∧
  (∀ (s : State) (req : Req) (unit value : Nat),
      s.awake → s.admits req (pPrs unit) 0x0A0 → s.found.groupOpen req value 1 → exec (.groupStart req unit value) s = .next (s.wrote req ((s.found.groupMembers (slice (value / 16 * 16 + 1) 8 8)).foldl (fun g e => g.groupDo 1 (s.found.groupInstant unit) e) s.found))) ∧
  (∀ (s : State) (req : Req) (unit value : Nat),
      s.awake → s.admits req (pPrs unit) 0x0A0 → s.found.groupOpen req value 2 → 5000 ≤ s.found.groupAhead unit → s.found.groupAhead unit ≤ 5000000000 → exec (.startAt req unit value) s = .next (s.wrote req ((s.found.groupMembers (slice (value / 16 * 16 + 2) 8 8)).foldl (fun g e => g.groupDo 2 (s.found.groupInstant unit) e) s.found))) ∧
  (∀ (s : State) (unit : Nat),
      s.awake → s.found.prsState unit = 2 → due s.found.now (s.found.eng unit).startAt = true → exec (.startInstant unit) s = .next (s.ends (s.found.beginRun unit (edgeFrom s.found.clock)))) ∧
  (∀ (s : State) (req : Req) (unit value : Nat),
      s.awake → s.admits req (pPrs unit) 0x0A0 → s.found.groupOpen req value 3 → exec (.groupStop req unit value) s = .next (s.wrote req ((s.found.groupMembers (slice (value / 16 * 16 + 3) 8 8)).foldl (fun g e => g.groupDo 3 (s.found.groupInstant unit) e) s.found))) ∧
  (∀ (s : State) (req : Req) (unit value : Nat),
      s.awake → s.admits req (pPrs unit) 0x0A0 → s.found.groupOpen req value 4 → exec (.groupRestart req unit value) s = .next (s.wrote req ((s.found.groupMembers (slice (value / 16 * 16 + 4) 8 8)).foldl (fun g e => g.groupDo 4 (s.found.groupInstant unit) e) s.found))) ∧
  (∀ (s : State) (req : Req) (unit value : Nat),
      s.awake → s.admits req (pPrs unit) 0x0A0 → s.found.groupOpen req value 5 → 5000 ≤ s.found.groupAhead unit → s.found.groupAhead unit ≤ 5000000000 → exec (.restartAt req unit value) s = .next (s.wrote req ((s.found.groupMembers (slice (value / 16 * 16 + 5) 8 8)).foldl (fun g e => g.groupDo 5 (s.found.groupInstant unit) e) s.found))) ∧
  (∀ (s : State) (req : Req) (unit : Nat) (word : Option Nat) (value : Nat),
      s.awake → s.admits req (pPrs unit) 0x04C → word = none → s.found.loadable unit = true → exec (.programMemoryWrite req unit word value) s = .next (s.wrote req (((s.found.put (pPrs unit) PRS.PROG_ENTRY (slice value 16 10)).put (pPrs unit) PRS.PROG_LEN (slice value 0 11)).staleSum unit))) ∧
  (∀ (s : State) (req : Req) (unit : Nat) (word : Option Nat) (value : Nat) (i : Nat),
      s.awake → word = some i → i < 1024 → s.found.memTurnedAway req unit (4 * i) = none → s.found.loadable unit = true → exec (.programMemoryWrite req unit word value) s = .next (s.ends ((({ s.found with prsMem := Mem.setWord s.found.prsMem (0x10000 * unit + 4 * i) 4 value }).staleSum unit).emit (.resp req true)))) ∧
  (∀ (s : State) (unit : Nat),
      s.awake → s.found.loadable unit = true → exec (.sumCalc unit) s = .next (s.ends ((s.found.put (pPrs unit) PRS.SUM_CALC_CALC (s.found.progSum unit)).setEng unit (fun x => { x with stale := false })))) ∧
  (∀ (s : State) (req : Req) (unit index value : Nat),
      s.awake → s.admits req (pPrs unit) (0x060 + 4 * index) → index < 8 → s.found.loadable unit = true → exec (.w req unit index value) s = .next (s.wrote req (s.found.put (pPrs unit) (PRS.W_VALUE index) value))) ∧
  (∀ (s : State) (req : Req) (unit off value : Nat),
      s.awake → s.found.turnedAway req (pPrs unit) off 4 = none → (off = 0x094 ∨ inWin 0xC00 off = true) → exec (.inq req unit off value) s = .next (s.ends (s.found.pushIn unit value (.reply req (pageAddr (pPrs unit) off))))) ∧
  (∀ (s : State) (req : Req) (unit off : Nat) (v : Nat) (l : List Nat),
      s.awake → s.found.readTurnedAway req (pPrs unit) off 4 = none → (off = 0x098 ∨ inWin 0xD00 off = true) → s.found.chained unit = false → (s.found.eng unit).outq = v :: l → exec (.outq req unit off) s = .next (s.ends ((s.found.setEng unit (fun x => { x with outq := l })).emit (.data req v)))) ∧
  (∀ (s : State) (req : Req) (unit : Nat),
      s.awake → s.admits req (pPrs unit) 0x09C → exec (.inFlush req unit) s = .next (s.wrote req (s.found.flushIn unit))) ∧
  (∀ (s : State) (req : Req) (unit : Nat),
      s.awake → s.admits req (pPrs unit) 0x09C → s.found.chained unit = false → exec (.outFlush req unit) s = .next (s.wrote req (s.found.setEng unit (fun x => { x with outq := [] })))) ∧
  (∀ (s : State) (req : Req) (unit : Nat),
      s.awake → s.admitsRead req (pPrs unit) 0x0AC → exec (.stampLo req unit) s = .next (s.told req (s.found.readStampLo unit))) ∧
  (∀ (s : State) (unit : Nat),
      s.awake → s.found.executing unit = true → s.found.illegalAt unit = true → exec (.illegalInstruction unit) s = .next (s.ends (((s.found.leaveRun unit 4).setPrsState unit 5).raise (pPrs unit) 0))) ∧
  (∀ (s : State) (unit slot : Nat) (x : Slot) (i : Nat),
      s.awake → Map.find s.found.slots (unit * 16 + slot) = some x → x.instant = some i → due s.found.now i = true → s.found.modeEff ≠ .armed → x.pos = none → exec (.actionSlotFire unit slot) s = .next (s.ends (s.found.fireSlot unit slot x))) ∧
  (∀ (s : State) (unit : Nat) (n : Nat) (v : Nat) (got : Nat) (past : Nat),
      s.awake → (s.found.eng unit).wait = .shift true n v got past → s.found.ticksOver unit = true → exec (.shiftEnd unit) s = .next (s.ends ((s.found.setW unit (slice n 23 3) (if bitOf n 19 then reverseBits (shiftBits n) (got % 2 ^ shiftBits n) else got % 2 ^ shiftBits n)).waitOver unit))) ∧
  (∀ (s : State) (unit : Nat) (n : Nat) (v : Nat) (got : Nat) (past : Nat),
      s.awake → (s.found.eng unit).wait = .shift false n v got past → s.found.ticksOver unit = true → exec (.shiftEnd unit) s = .next (s.ends ((s.found.emit (.shifted unit (v % 2 ^ shiftBits n))).waitOver unit))) ∧
  (∀ (s : State) (unit pin : Nat) (l : Bool),
      s.awake → Map.find (s.found.eng unit).deferred pin = some l → s.found.pinReady unit pin = true → exec (.pinDeferEnd unit pin) s = .next (s.ends ((s.found.setEng unit (fun x => { x with deferred := Map.erase x.deferred pin })).drivePin unit pin l)))

/-- The arithmetic and logic instructions of a Prism engine complete with their own effect: under the conditions of its rule each answers the next state that the rule gives. -/
def Obligations.PrismArithmeticCompletes : Prop :=
  (∀ (s : State) (unit : Nat),
      s.awake → s.found.fetches unit 0x00 → exec (.nop unit) s = .next (s.ends ((s.ticked unit).completed unit))) ∧
  (∀ (s : State) (unit : Nat),
      s.awake → s.found.fetches unit 0x01 → exec (.ldi unit) s = .next (s.ends (((s.ticked unit).setW unit (dOf (s.found.fetched unit)) (ofSigned 32 (toSigned 20 (slice (s.found.fetched unit) 0 20)))).completed unit))) ∧
  (∀ (s : State) (unit : Nat),
      s.awake → s.found.fetches unit 0x02 → exec (.lui unit) s = .next (s.ends (((s.ticked unit).setW unit (dOf (s.found.fetched unit)) (slice (s.found.fetched unit) 0 16 * 2 ^ 16 + (s.ticked unit).wreg unit (dOf (s.found.fetched unit)) % 2 ^ 16)).completed unit))) ∧
  (∀ (s : State) (unit : Nat),
      s.awake → s.found.fetches unit 0x03 → exec (.mov unit) s = .next (s.ends (((s.ticked unit).setW unit (dOf (s.found.fetched unit)) ((s.ticked unit).wreg unit (sOf (s.found.fetched unit)))).completed unit))) ∧
  (∀ (s : State) (unit : Nat),
      s.awake → s.found.fetches unit 0x04 → exec (.add unit) s = .next (s.ends (((s.ticked unit).result unit (dOf (s.found.fetched unit)) (((s.ticked unit).wreg unit (sOf (s.found.fetched unit)) + (s.ticked unit).wreg unit (tOf (s.found.fetched unit))) % 2 ^ 32) (decide (2 ^ 32 ≤ (s.ticked unit).wreg unit (sOf (s.found.fetched unit)) + (s.ticked unit).wreg unit (tOf (s.found.fetched unit))))).completed unit))) ∧
  (∀ (s : State) (unit : Nat),
      s.awake → s.found.fetches unit 0x05 → exec (.sub unit) s = .next (s.ends (((s.ticked unit).result unit (dOf (s.found.fetched unit)) (((s.ticked unit).wreg unit (sOf (s.found.fetched unit)) + 2 ^ 32 - (s.ticked unit).wreg unit (tOf (s.found.fetched unit))) % 2 ^ 32) (decide ((s.ticked unit).wreg unit (sOf (s.found.fetched unit)) < (s.ticked unit).wreg unit (tOf (s.found.fetched unit))))).completed unit))) ∧
  (∀ (s : State) (unit : Nat),
      s.awake → s.found.fetches unit 0x06 → exec (.and unit) s = .next (s.ends ((s.ticked unit).bitwise unit (s.found.fetched unit) (fun a b => a &&& b)))) ∧
  (∀ (s : State) (unit : Nat),
      s.awake → s.found.fetches unit 0x07 → exec (.or unit) s = .next (s.ends ((s.ticked unit).bitwise unit (s.found.fetched unit) (fun a b => a ||| b)))) ∧
  (∀ (s : State) (unit : Nat),
      s.awake → s.found.fetches unit 0x08 → exec (.xor unit) s = .next (s.ends ((s.ticked unit).bitwise unit (s.found.fetched unit) (fun a b => a ^^^ b)))) ∧
  (∀ (s : State) (unit : Nat),
      s.awake → s.found.fetches unit 0x09 → exec (.shl unit) s = .next (s.ends ((s.ticked unit).shifted unit (s.found.fetched unit) (fun a n => a * 2 ^ n % 2 ^ 32)))) ∧
  (∀ (s : State) (unit : Nat),
      s.awake → s.found.fetches unit 0x0A → exec (.shr unit) s = .next (s.ends ((s.ticked unit).shifted unit (s.found.fetched unit) (fun a n => a / 2 ^ n)))) ∧
  (∀ (s : State) (unit : Nat),
      s.awake → s.found.fetches unit 0x0B → exec (.sar unit) s = .next (s.ends ((s.ticked unit).shifted unit (s.found.fetched unit) (fun a n => ofSigned 32 (toSigned 32 a / (2 ^ n : Nat)))))) ∧
  (∀ (s : State) (unit : Nat),
      s.awake → s.found.fetches unit 0x0C → exec (.addi unit) s = .next (s.ends (((s.ticked unit).result unit (dOf (s.found.fetched unit)) (((s.ticked unit).wreg unit (sOf (s.found.fetched unit)) + ofSigned 32 (toSigned 17 (slice (s.found.fetched unit) 0 17))) % 2 ^ 32) (decide (2 ^ 32 ≤ (s.ticked unit).wreg unit (sOf (s.found.fetched unit)) + ofSigned 32 (toSigned 17 (slice (s.found.fetched unit) 0 17))))).completed unit))) ∧
  (∀ (s : State) (unit : Nat),
      s.awake → s.found.fetches unit 0x0D → exec (.mul unit) s = .next (s.ends (((s.ticked unit).result unit (dOf (s.found.fetched unit)) ((s.ticked unit).wreg unit (sOf (s.found.fetched unit)) * (s.ticked unit).wreg unit (tOf (s.found.fetched unit)) % 2 ^ 32) (decide (2 ^ 32 ≤ (s.ticked unit).wreg unit (sOf (s.found.fetched unit)) * (s.ticked unit).wreg unit (tOf (s.found.fetched unit))))).completedIn unit 2))) ∧
  (∀ (s : State) (unit : Nat),
      s.awake → s.found.fetches unit 0x0E → exec (.ld unit) s = .next (s.ends (((s.ticked unit).setW unit (dOf (s.found.fetched unit)) ((s.ticked unit).dataWord unit ((s.ticked unit).dataAddr unit (s.found.fetched unit)))).completedIn unit 2))) ∧
  (∀ (s : State) (unit : Nat),
      s.awake → s.found.fetches unit 0x0F → exec (.st unit) s = .next (s.ends (((s.ticked unit).setDataWord unit ((s.ticked unit).dataAddr unit (s.found.fetched unit)) ((s.ticked unit).wreg unit (dOf (s.found.fetched unit)))).completed unit)))

/-- The jumps, calls, waits and queue instructions of a Prism engine complete with their own effect: under the conditions of its rule each answers the next state that the rule gives. -/
def Obligations.PrismControlCompletes : Prop :=
  (∀ (s : State) (unit : Nat),
      s.awake → s.found.fetches unit 0x10 → exec (.jmp unit) s = .next (s.ends ((s.ticked unit).completeTo unit (slice (s.found.fetched unit) 0 10) 2))) ∧
  (∀ (s : State) (unit : Nat),
      s.awake → s.found.fetches unit 0x11 → (s.ticked unit).condition unit (dOf (s.found.fetched unit)) = true → exec (.jcc unit) s = .next (s.ends ((s.ticked unit).completeTo unit (slice (s.found.fetched unit) 0 10) 2))) ∧
  (∀ (s : State) (unit : Nat),
      s.awake → s.found.fetches unit 0x11 → (s.ticked unit).condition unit (dOf (s.found.fetched unit)) = false → exec (.jcc unit) s = .next (s.ends ((s.ticked unit).completed unit))) ∧
  (∀ (s : State) (unit : Nat),
      s.awake → s.found.fetches unit 0x12 → ((s.ticked unit).wreg unit (dOf (s.found.fetched unit)) + 2 ^ 32 - 1) % 2 ^ 32 ≠ 0 → exec (.djnz unit) s = .next (s.ends (((s.ticked unit).setW unit (dOf (s.found.fetched unit)) (((s.ticked unit).wreg unit (dOf (s.found.fetched unit)) + 2 ^ 32 - 1) % 2 ^ 32)).completeTo unit (slice (s.found.fetched unit) 0 10) 2))) ∧
  (∀ (s : State) (unit : Nat),
      s.awake → s.found.fetches unit 0x12 → ((s.ticked unit).wreg unit (dOf (s.found.fetched unit)) + 2 ^ 32 - 1) % 2 ^ 32 = 0 → exec (.djnz unit) s = .next (s.ends (((s.ticked unit).setW unit (dOf (s.found.fetched unit)) 0).completed unit))) ∧
  (∀ (s : State) (unit : Nat),
      s.awake → s.found.fetches unit 0x13 → exec (.call unit) s = .next (s.ends (((s.ticked unit).setEng unit (fun x => { x with stack := (x.pc + 1) :: x.stack })).completeTo unit (slice (s.found.fetched unit) 0 10) 2))) ∧
  (∀ (s : State) (unit : Nat),
      s.awake → s.found.fetches unit 0x14 → exec (.ret unit) s = .next (s.ends (((s.ticked unit).setEng unit (fun x => { x with stack := x.stack.drop 1 })).completeTo unit (((s.ticked unit).eng unit).stack.headD 0) 2))) ∧
  (∀ (s : State) (unit : Nat),
      s.awake → s.found.fetches unit 0x15 → exec (.halt unit) s = .next (s.ends ((((s.ticked unit).completed unit).leaveRun unit 2).setPrsState unit 4))) ∧
  (∀ (s : State) (unit : Nat),
      s.awake → s.found.fetches unit 0x22 → (s.ticked unit).wpair unit (sOf (s.found.fetched unit)) ≤ (s.ticked unit).now % 2 ^ 64 → exec (.waitt unit) s = .next (s.ends ((s.ticked unit).completed unit))) ∧
  (∀ (s : State) (unit : Nat),
      s.awake → s.found.fetches unit 0x22 → (s.ticked unit).now % 2 ^ 64 < (s.ticked unit).wpair unit (sOf (s.found.fetched unit)) → exec (.waitt unit) s = .next (s.ends ((s.ticked unit).waitFor unit (.time ((s.ticked unit).wpair unit (sOf (s.found.fetched unit)))) 1))) ∧
  (∀ (s : State) (unit : Nat) (t : Nat),
      s.awake → (s.found.eng unit).wait = .time t → s.found.waitMayEnd unit = true → t ≤ s.found.now % 2 ^ 64 → exec (.waittEnd unit) s = .next (s.ends (s.found.waitOver unit))) ∧
  (∀ (s : State) (unit : Nat),
      s.awake → s.found.fetches unit 0x23 → exec (.delay unit) s = .next (s.ends ((s.ticked unit).waitFor unit .delay (max 1 (slice (s.found.fetched unit) 0 20))))) ∧
  (∀ (s : State) (unit : Nat),
      s.awake → (s.found.eng unit).wait = .delay → s.found.ticksOver unit = true → exec (.delayEnd unit) s = .next (s.ends (s.found.waitOver unit))) ∧
  (∀ (s : State) (unit : Nat),
      s.awake → s.found.fetches unit 0x24 → ((s.ticked unit).eng unit).inq ≠ [] → exec (.pull unit) s = .next (s.ends (((s.ticked unit).pullWord unit (dOf (s.found.fetched unit))).completed unit))) ∧
  (∀ (s : State) (unit : Nat),
      s.awake → s.found.fetches unit 0x24 → ((s.ticked unit).eng unit).inq = [] → bitOf (s.found.fetched unit) 0 = true → exec (.pull unit) s = .next (s.ends ((s.ticked unit).waitFor unit (.pull (dOf (s.found.fetched unit))) 1))) ∧
  (∀ (s : State) (unit : Nat),
      s.awake → s.found.fetches unit 0x24 → ((s.ticked unit).eng unit).inq = [] → bitOf (s.found.fetched unit) 0 = false → exec (.pull unit) s = .next (s.ends ((((s.ticked unit).setW unit (dOf (s.found.fetched unit)) 0x80000000).setC unit true).completed unit))) ∧
  (∀ (s : State) (unit : Nat) (d : Nat),
      s.awake → (s.found.eng unit).wait = .pull d → s.found.waitMayEnd unit = true → (s.found.eng unit).inq ≠ [] → exec (.pullWaitEnd unit) s = .next (s.ends ((s.found.pullWord unit d).waitOver unit))) ∧
  (∀ (s : State) (unit : Nat),
      s.awake → s.found.fetches unit 0x25 → (s.ticked unit).outRoom unit = true → exec (.push unit) s = .next (s.ends ((((s.ticked unit).storeOut unit ((s.ticked unit).wreg unit (sOf (s.found.fetched unit)))).setC unit false).completed unit))) ∧
  (∀ (s : State) (unit : Nat) (v : Nat),
      s.awake → (s.found.eng unit).wait = .push v → s.found.waitMayEnd unit = true → s.found.outRoom unit = true → exec (.pushWaitEnd unit) s = .next (s.ends (((s.found.storeOut unit v).setC unit false).waitOver unit))) ∧
  (∀ (s : State) (unit : Nat),
      s.awake → s.found.fetches unit 0x26 → exec (.pub unit) s = .next (s.ends (((s.ticked unit).doAfter unit 1 (.publish ((s.ticked unit).wreg unit (sOf (s.found.fetched unit))))).completed unit))) ∧
  (∀ (s : State) (unit : Nat),
      s.awake → s.found.fetches unit 0x27 → exec (.irq unit) s = .next (s.ends (((s.ticked unit).irq (pPrs unit) (4 + slice (s.found.fetched unit) 0 2)).completed unit)))

/-- The pin, stamp, slot and event instructions of a Prism engine complete with their own effect: under the conditions of its rule each answers the next state that the rule gives. -/
def Obligations.PrismPinsAndSlotsComplete : Prop :=
  (∀ (s : State) (unit : Nat),
      s.awake → s.found.fetches unit 0x18 → exec (.pdir unit) s = .next (s.ends (((s.ticked unit).doAfter unit 1 (.dirs (slice (s.found.fetched unit) 8 8) (slice (s.found.fetched unit) 0 8))).completed unit))) ∧
  (∀ (s : State) (unit : Nat),
      s.awake → s.found.fetches unit 0x19 → exec (.pout unit) s = .next (s.ends (((s.ticked unit).doAfter unit 1 (.pins (slice (s.found.fetched unit) 8 8) (slice (s.found.fetched unit) 0 8))).completed unit))) ∧
  (∀ (s : State) (unit : Nat),
      s.awake → s.found.fetches unit 0x1A → exec (.poutr unit) s = .next (s.ends (((s.ticked unit).doAfter unit 1 (.pins (slice (s.found.fetched unit) 8 8) ((s.ticked unit).wreg unit (sOf (s.found.fetched unit)) % 256))).completed unit))) ∧
  (∀ (s : State) (unit : Nat),
      s.awake → s.found.fetches unit 0x1B → exec (.pin unit) s = .next (s.ends (((s.ticked unit).setW unit (dOf (s.found.fetched unit)) ((s.ticked unit).pinLevels unit)).completed unit))) ∧
  (∀ (s : State) (unit : Nat),
      s.awake → s.found.fetches unit 0x1C → slice (s.found.fetched unit) 21 2 = 1 → (s.ticked unit).pinLevel unit (slice (s.found.fetched unit) 23 3) = true → exec (.waitp unit) s = .next (s.ends (((s.ticked unit).setC unit false).completed unit))) ∧
  (∀ (s : State) (unit : Nat),
      s.awake → s.found.fetches unit 0x1C → 2 ≤ slice (s.found.fetched unit) 21 2 → bitOf (s.found.fetched unit) 20 = false → exec (.waitp unit) s = .next (s.ends ((s.ticked unit).waitFor unit (.pin (slice (s.found.fetched unit) 23 3) (slice (s.found.fetched unit) 21 2) false none) 1))) ∧
  (∀ (s : State) (unit : Nat) (p : Nat) (t : Bool) (q : Option (RawEdge × Nat)),
      s.awake → s.found.waitMayEnd unit = true → (s.found.eng unit).wait = .pin p 0 t q → s.found.pinLevel unit p = false → exec (.waitpEnd unit) s = .next (s.ends ((s.found.setC unit false).waitOver unit))) ∧
  (∀ (s : State) (unit : Nat) (p : Nat) (t : Bool) (x : RawEdge × Nat),
      s.awake → s.found.waitMayEnd unit = true → (s.found.eng unit).wait = .pin p 2 t (some x) → x.2 < s.found.clock → exec (.waitpEnd unit) s = .next (s.ends (((s.found.latchStamp unit p x.1 true).setC unit false).waitOver unit))) ∧
  (∀ (s : State) (unit : Nat) (p : Nat) (c : Nat),
      s.awake → (s.found.eng unit).wait = .pin p c true none → 2 ≤ c → s.found.ticksOver unit = true → exec (.waitpTimeout unit) s = .next (s.ends ((s.found.setC unit true).waitOver unit))) ∧
  (∀ (s : State) (unit : Nat),
      s.awake → s.found.fetches unit 0x1D → exec (.shifto unit) s = .next (s.ends ((s.ticked unit).beginShift unit false (s.found.fetched unit) ((s.ticked unit).wreg unit (slice (s.found.fetched unit) 23 3))))) ∧
  (∀ (s : State) (unit : Nat),
      s.awake → s.found.fetches unit 0x1E → exec (.shifti unit) s = .next (s.ends ((s.ticked unit).beginShift unit true (s.found.fetched unit) 0))) ∧
  (∀ (s : State) (unit : Nat),
      s.awake → s.found.fetches unit 0x20 → exec (.time unit) s = .next (s.ends ((((s.ticked unit).setPair64 unit (dOf (s.found.fetched unit)) ((s.ticked unit).now % 2 ^ 64)).setC unit (!(s.ticked unit).mainInUse)).completedIn unit 2))) ∧
  (∀ (s : State) (unit : Nat),
      s.awake → s.found.fetches unit 0x21 → exec (.stamp unit) s = .next (s.ends ((((s.ticked unit).setPair64 unit (dOf (s.found.fetched unit)) ((((s.ticked unit).eng unit).stamp.getD {}).stamp / 8)).setC unit (((s.ticked unit).eng unit).stamp.getD {}).fb).completed unit))) ∧
  (∀ (s : State) (unit : Nat),
      s.awake → s.found.fetches unit 0x28 → (s.ticked unit).armAhead unit (s.found.fetched unit) < 2 ^ 40 → exec (.armt unit) s = .next (s.ends ((({ (s.ticked unit) with slots := Map.set (s.ticked unit).slots (unit * 16 + slice (s.found.fetched unit) 22 4) ((s.ticked unit).armedSlot unit (s.found.fetched unit)) }).setC unit false).completedIn unit 2))) ∧
  (∀ (s : State) (unit : Nat),
      s.awake → s.found.fetches unit 0x28 → 2 ^ 40 ≤ (s.ticked unit).armAhead unit (s.found.fetched unit) → (s.ticked unit).armAhead unit (s.found.fetched unit) < 2 ^ 63 → exec (.armt unit) s = .next (s.ends ((s.ticked unit).armRefused unit (slice (s.found.fetched unit) 22 4)))) ∧
  (∀ (s : State) (unit : Nat),
      s.awake → s.found.fetches unit 0x29 → (s.ticked unit).followed (slice ((s.ticked unit).wreg unit (slice (s.found.fetched unit) 16 3)) 28 4) = false → exec (.armp unit) s = .next (s.ends ((s.ticked unit).armRefused unit (slice (s.found.fetched unit) 22 4)))) ∧
  (∀ (s : State) (unit : Nat),
      s.awake → s.found.fetches unit 0x29 → (s.ticked unit).followed ((s.ticked unit).posBindAt unit (s.found.fetched unit)).track = true → ((s.ticked unit).posBindAt unit (s.found.fetched unit)).policy ≠ 3 → slice ((s.ticked unit).wreg unit (slice (s.found.fetched unit) 16 3)) 16 6 = 0 → (s.ticked unit).targetRefused ((s.ticked unit).posBindAt unit (s.found.fetched unit)).track ((s.ticked unit).posBindAt unit (s.found.fetched unit)).target = false → exec (.armp unit) s = .next (s.ends (((({ (s.ticked unit) with slots := Map.set (s.ticked unit).slots (unit * 16 + slice (s.found.fetched unit) 22 4) ((s.ticked unit).posSlotAt unit (s.found.fetched unit)) }).admitAct (128 + unit) (slice (s.found.fetched unit) 22 4) ((s.ticked unit).posBindAt unit (s.found.fetched unit))).setC unit false).completedIn unit 2))) ∧
  (∀ (s : State) (unit : Nat),
      s.awake → s.found.fetches unit 0x2A → (s.ticked unit).anyFlag unit (slice (s.found.fetched unit) 0 16) = true → exec (.waite unit) s = .next (s.ends (((s.ticked unit).takeFlags unit (dOf (s.found.fetched unit)) (slice (s.found.fetched unit) 0 16)).completed unit))) ∧
  (∀ (s : State) (unit : Nat),
      s.awake → s.found.fetches unit 0x2A → (s.ticked unit).anyFlag unit (slice (s.found.fetched unit) 0 16) = false → exec (.waite unit) s = .next (s.ends ((s.ticked unit).waitFor unit (.events (dOf (s.found.fetched unit)) (slice (s.found.fetched unit) 0 16)) 1))) ∧
  (∀ (s : State) (unit : Nat) (d : Nat) (m : Nat),
      s.awake → (s.found.eng unit).wait = .events d m → s.found.waitMayEnd unit = true → s.found.anyFlag unit m = true → exec (.waiteEnd unit) s = .next (s.ends ((s.found.takeFlags unit d m).waitOver unit))) ∧
  (∀ (s : State) (unit : Nat),
      s.awake → s.found.fetches unit 0x2B → exec (.cancel unit) s = .next (s.ends (((List.range 16).foldl (fun g n => if bitOf (s.found.fetched unit) n then g.freeSlot unit n else g) (s.ticked unit)).completed unit))) ∧
  (∀ (s : State) (unit : Nat),
      s.awake → s.found.fetches unit 0x2C → ((s.ticked unit).eng unit).stamp = none → exec (.tpos unit) s = .next (s.ends ((s.ticked unit).openPair unit (dOf (s.found.fetched unit)) 1))) ∧
  (∀ (s : State) (unit : Nat) (x : PrsStamp) (v : Option Nat × Nat × Nat),
      s.awake → s.found.fetches unit 0x2C → ((s.ticked unit).eng unit).stamp = some x → x.pos = some v → exec (.tpos unit) s = .next (s.ends ((s.ticked unit).answerPos unit (dOf (s.found.fetched unit)) 1 v))) ∧
  (∀ (s : State) (unit : Nat),
      s.awake → s.found.fetches unit 0x2D → (s.ticked unit).followed (slice (s.found.fetched unit) 0 4) = false → exec (.tnow unit) s = .next (s.ends ((s.ticked unit).openPair unit (dOf (s.found.fetched unit)) 3))) ∧
  (∀ (s : State) (unit : Nat),
      s.awake → s.found.fetches unit 0x2D → (s.ticked unit).followed (slice (s.found.fetched unit) 0 4) = true → exec (.tnow unit) s = .next (s.ends ((s.ticked unit).answerPos unit (dOf (s.found.fetched unit)) 3 ((s.ticked unit).captureTrack (slice (s.found.fetched unit) 0 4) ((s.ticked unit).now8 % 2 ^ 64)))))

/-- The commands of the CAN controllers complete with their own effect: under the conditions of its rule each answers the next state that the rule gives. -/
def Obligations.CanCommandsComplete : Prop :=
  (∀ (s : State) (req : Req) (unit value : Nat),
      s.awake → s.admits req (pCan unit) 0x04C → s.found.modeEff ≠ .held → s.found.goRefused unit (value % 128) = false → s.found.objType unit (value % 128) = 1 → exec (.go req unit value) s = .next (s.wrote req (((s.found.setObjWord unit (value % 128) 6 (s.found.objWord unit (value % 128) 6 / 2 ^ 16 * 2 ^ 16)).setObj unit (value % 128) true 1).setCan unit (fun c => { c with order := c.order ++ [value % 128] })))) ∧
  (∀ (s : State) (req : Req) (unit value : Nat),
      s.awake → s.admits req (pCan unit) 0x04C → s.found.modeEff ≠ .held → s.found.goRefused unit (value % 128) = false → s.found.objType unit (value % 128) ≠ 1 → exec (.go req unit value) s = .next (s.wrote req ((s.found.setObjWord unit (value % 128) 6 (s.found.objWord unit (value % 128) 6 / 2 ^ 16 * 2 ^ 16)).setObj unit (value % 128) true 0))) ∧
  (∀ (s : State) (req : Req) (unit value : Nat),
      s.awake → s.admits req (pCan unit) 0x050 → s.found.objOwned unit (value % 128) = true → (s.found.can unit).sending = some (value % 128) → exec (.canCancel req unit value) s = .next (s.wrote req (s.found.setCan unit (fun c => { c with cancelling := true })))) ∧
  (∀ (s : State) (req : Req) (unit value : Nat),
      s.awake → s.admits req (pCan unit) 0x050 → s.found.objOwned unit (value % 128) = true → (s.found.can unit).sending ≠ some (value % 128) → s.found.objType unit (value % 128) = 1 → exec (.canCancel req unit value) s = .next (s.wrote req (s.found.giveBack unit (value % 128) 6))) ∧
  (∀ (s : State) (req : Req) (unit value : Nat),
      s.awake → s.admits req (pCan unit) 0x054 → bitOf value 0 = true → s.found.canState unit = 4 → exec (.recover req unit value) s = .next (s.wrote req (s.found.setCan unit (fun c => { c with recovering := true })))) ∧
  (∀ (s : State) (unit : Nat),
      s.awake → s.found.canState unit = 1 → s.found.gated (pCan unit) = false → (s.found.can unit).settings = none → exec (.integratingEnd unit) s = .next (s.ends (((s.found.setCanState unit (s.found.byCounters unit)).canConfine unit).busFree unit))) ∧
  (∀ (s : State) (unit : Nat),
      s.awake → s.found.canState unit = 4 → (s.found.can unit).recovering = true → exec (.busOffRecovery unit) s = .next (s.ends (((((s.found.put (pCan unit) CAN.STAT_TEC 0).put (pCan unit) CAN.STAT_REC 0).setCan unit (fun c => { c with recovering := false })).setCanState unit (if ((s.found.put (pCan unit) CAN.STAT_TEC 0).put (pCan unit) CAN.STAT_REC 0).driving then 1 else 5))))) ∧
  (∀ (s : State) (unit : Nat) (idle : Bool) (i : Nat),
      s.awake → idle = false → (s.found.canState unit = 2 ∨ s.found.canState unit = 3) → s.found.canOn unit CAN.CFG_LISTEN = false → (s.found.can unit).sending = none → s.found.chooseObject unit = some i → ((s.found.put (pCan unit) CAN.STAT_TX_BUSY 1).setCan unit (fun c => { c with sending := some i, free := false })).canOn unit CAN.CFG_LOOP = false → exec (.transmitChoice unit idle) s = .next (s.ends (((s.found.put (pCan unit) CAN.STAT_TX_BUSY 1).setCan unit (fun c => { c with sending := some i, free := false })).emit (.can unit (((s.found.put (pCan unit) CAN.STAT_TX_BUSY 1).setCan unit (fun c => { c with sending := some i, free := false })).objFrame unit i (((s.found.put (pCan unit) CAN.STAT_TX_BUSY 1).setCan unit (fun c => { c with sending := some i, free := false })).canState unit == 3)))))) ∧
  (∀ (s : State) (unit ago delay : Nat) (i : Nat),
      s.awake → (s.found.can unit).sending = some i → (s.found.measures unit i && decide (127 ≤ delay)) = false → exec (.canTransmissionEnd unit ago delay) s = .next (s.ends (s.found.canSent unit i ago delay))) ∧
  (∀ (s : State) (unit : Nat) (i : Nat),
      s.awake → (s.found.can unit).sending = some i → exec (.arbitrationLost unit) s = .next (s.ends (s.found.canLost unit i))) ∧
  (∀ (s : State) (unit eights delay : Nat) (i : Nat),
      s.awake → (s.found.can unit).sending = some i → exec (.transmissionError unit eights delay) s = .next (s.ends ((s.found.measureTdc unit i delay).sendError unit i eights))) ∧
  (∀ (s : State) (unit : Nat) (frame : CanFrame) (ago : Nat) (own : Bool),
      s.awake → s.found.canReceives unit = true → own = false → frame.fdf = false → (((s.found.put (pCan unit) CAN.STAT_RX_BUSY 0).goodReception unit).canConfine unit).canOn unit CAN.CFG_ROUTE_EN = false → exec (.canFrameReceive unit frame ago own) s = .next (s.ends ((((s.found.put (pCan unit) CAN.STAT_RX_BUSY 0).goodReception unit).canConfine unit).considerFrame unit frame (s.found.inputStamp ago) s.found.onFallBack false))) ∧
  (∀ (s : State) (unit : Nat) (first : Bool) (eights : Nat) (exception : Bool),
      s.awake → s.found.canReceives unit = true → exception = false → s.found.canState unit ≠ 5 → exec (.receptionError unit first eights exception) s = .next (s.ends (s.found.canMisread unit first eights)))

/-- The commands of the Ethernet port complete with their own effect: under the conditions of its rule each answers the next state that the rule gives. -/
def Obligations.EthernetCommandsComplete : Prop :=
  (∀ (s : State) (rx : EtherRx) (c8 : Nat) (bs : List Byte),
      s.awake → s.found.on pEth ETH.STAT_LINK = true → s.found.etherRuns = true → rx = .frame bs true → exec (.ethernetFrameReceive rx c8) s = .next (s.ends (s.found.underPrior (s.found.beforeCommit c8) (fun g => g.receiveEther bs true s.found.buffersFull (g.etherStamp false c8))))) ∧
  (∀ (s : State) (rx : EtherRx) (c8 : Nat),
      s.awake → s.found.on pEth ETH.STAT_LINK = true → s.found.etherRuns = true → rx = .verify → exec (.ethernetFrameReceive rx c8) s = .next (s.ends (s.found.emit (.mpacket true)))) ∧
  (∀ (s : State) (bytes : List Byte),
      s.awake → s.found.etherRuns = true → s.found.mode ≠ .cellar → s.found.tenantOn (s.found.cfg pEth ETH.CTRL_TEN) = true → (bytes.drop 6).take 6 = macBytes (s.found.cfg pEth ETH.CTRL_MAC_HI) (s.found.cfg pEth ETH.CTRL_MAC_LO_ADDR) → s.found.controlOwnWrite bytes = true → exec (.controlRequest bytes) s = .next (s.ends (s.found.controlWrites bytes))) ∧
  (∀ (s : State) (bytes : List Byte),
      s.awake → (etherType bytes).1 ≠ 0x88B7 → exec (.ethernetServiceFrame bytes) s = .next (s.ends (s.found.inc pStw STW.ETH_DISCARD_COUNT))) ∧
  (∀ (s : State) (bytes : List Byte),
      s.awake → (etherType bytes).1 = 0x88B7 → s.found.secureServes = true → leNat (((bytes.drop (etherType bytes).2).drop 4).take 1) % 2 = 0 → ((s.found.etherCall bytes).code = 1 ∨ (s.found.etherCall bytes).code = 2) → exec (.ethernetServiceFrame bytes) s = .next (s.ends (s.found.callArrives (s.found.etherCall bytes)))) ∧
  (∀ (s : State) (word : Nat),
      s.awake → s.found.etherRuns = true → s.found.serdesReady = true → s.found.on pEth ETH.STAT_LINK = false → s.found.on pEth ETH.STAT_WAKE_TX_BUSY = false → s.found.cfg pEth ETH.CFG_MODE = 1 → exec (.ethLinkUp word) s = .next (s.ends ((((s.found.setEtherLink true).put pEth ETH.STAT_SPEED_EFF 3).put pEth ETH.STAT_AN_DONE 0).alignPreempt))) ∧
  (∀ (s : State) (word : Nat),
      s.awake → s.found.etherRuns = true → s.found.serdesReady = true → s.found.on pEth ETH.STAT_LINK = false → s.found.on pEth ETH.STAT_WAKE_TX_BUSY = false → s.found.cfg pEth ETH.CFG_MODE = 0 → s.found.cfgOn pEth ETH.CFG_AN_EN = true → exec (.ethLinkUp word) s = .next (s.ends ((((s.found.setEtherLink true).put pEth ETH.STAT_SPEED_EFF (word % 3)).put pEth ETH.STAT_AN_DONE 1).alignPreempt))) ∧
  (∀ (s : State),
      s.awake → exec .ethLinkDown s = .next (s.ends (s.found.etherDown))) ∧
  (∀ (s : State),
      s.awake → s.found.get pEth ETH.STAT_PREEMPT = 1 → s.found.ether.verifyAt + 500000 * s.found.cfg pEth ETH.PREEMPT_VERIFY_TIME ≤ s.found.clock → s.found.ether.verifies < 3 → exec .verifyTime s = .next (s.ends (s.found.sendVerify))) ∧
  (∀ (s : State),
      s.awake → s.found.get pEth ETH.STAT_PREEMPT = 1 → s.found.ether.verifyAt + 500000 * s.found.cfg pEth ETH.PREEMPT_VERIFY_TIME ≤ s.found.clock → 3 ≤ s.found.ether.verifies → exec .verifyTime s = .next (s.ends ((s.found.setPreempt 3).raise pEth 3))) ∧
  (∀ (s : State) (req : Req) (value : Nat),
      s.awake → s.admits req pEth 0x060 → s.found.on pEth ETH.MDIO_STAT_BUSY = false → exec (.mdio req value) s = .next (s.wrote req ((s.found.writeMdio value).1))) ∧
  (∀ (s : State) (data : Nat),
      s.awake → s.found.on pEth ETH.MDIO_STAT_BUSY = true → ((s.found.put pEth ETH.MDIO_STAT_BUSY 0).get pEth ETH.MDIO_OP = 1 ∨ (s.found.put pEth ETH.MDIO_STAT_BUSY 0).get pEth ETH.MDIO_OP = 3) → exec (.mdioFrameEnd data) s = .next (s.ends ((s.found.put pEth ETH.MDIO_STAT_BUSY 0).put pEth ETH.MDIO_STAT_RDATA data))) ∧
  (∀ (s : State) (req : Req) (value : Nat),
      s.awake → s.admits req pEth 0x068 → bitOf value 0 = true → s.found.on pEth ETH.STAT_WAKE_TX_BUSY = false → s.found.etherRuns = true → s.found.serdesReady = true → exec (.wakeTx req value) s = .next (s.wrote req (((s.found.etherDown.put pEth ETH.STAT_WAKE_TX_BUSY 1).setEther (fun x => { x with wakeAt := s.found.clock })).emit .wakePattern))) ∧
  (∀ (s : State),
      s.awake → s.found.on pEth ETH.STAT_WAKE_TX_BUSY = true → s.found.ether.wakeAt + 10000000 ≤ s.found.clock → exec .wakeTxEnd s = .next (s.ends ((s.found.put pEth ETH.STAT_WAKE_TX_BUSY 0).irq pEth 2)))

/-- The commands of the host port complete with their own effect: under the conditions of its rule each answers the next state that the rule gives. -/
def Obligations.HostPortCommandsComplete : Prop :=
  (∀ (s : State) (n bar off : Nat) (data : List Byte),
      s.awake → s.found.pcieServes = true → tlpFits off data.length 256 = true → exec (.pcieWriteTlp n bar off data) s = .next (s.ends (s.found.hostWrite (barTarget bar off) n (barAddr bar off) data))) ∧
  (∀ (s : State) (n bar off len : Nat),
      s.awake → s.found.pcieServes = true → tlpFits off len 4096 = true → exec (.pcieReadTlp n bar off len) s = .next (s.ends (s.found.hostRead (barTarget bar off) n (barAddr bar off) len))) ∧
  (∀ (s : State) (n addr len : Nat) (abandoned : Bool),
      s.awake → s.found.qspiServes = true → 0 < len → len ≤ 1024 → addr < 2 ^ 36 → abandoned = false → exec (.qspiRead n addr len abandoned) s = .next (s.ends ((s.found.awaits n len).hostRead (qspiTarget addr) n (addr % 2 ^ 36) len))) ∧
  (∀ (s : State) (n addr len : Nat) (abandoned : Bool),
      s.awake → s.found.qspiServes = true → 0 < len → len ≤ 1024 → addr < 2 ^ 36 → abandoned = false → exec (.qspiQuadRead n addr len abandoned) s = .next (s.ends ((s.found.awaits n len).hostRead (qspiTarget addr) n (addr % 2 ^ 36) len))) ∧
  (∀ (s : State) (n addr len : Nat) (data : List Byte),
      s.awake → s.found.qspiServes = true → 0 < len → len ≤ 1024 → addr < 2 ^ 36 → data.length = len → exec (.qspiWrite n addr len data) s = .next (s.ends (s.found.hostWrite (qspiTarget addr) n (addr % 2 ^ 36) data))) ∧
  (∀ (s : State) (n addr len : Nat) (data : List Byte),
      s.awake → s.found.qspiServes = true → 0 < len → len ≤ 1024 → addr < 2 ^ 36 → data.length = len → exec (.qspiQuadWrite n addr len data) s = .next (s.ends (s.found.hostWrite (qspiTarget addr) n (addr % 2 ^ 36) data))) ∧
  (∀ (s : State),
      s.awake → s.found.hostIf = 2 → exec .qspiBad s = .next (s.ends (s.found.inc pHost HOST.QSPI_BAD_COUNT))) ∧
  (∀ (s : State) (req : Req) (qp value : Nat),
      s.awake → s.admits req pHost (0x11C + 64 * (qp % 8)) → exec (.txProd req qp value) s = .next (s.wrote req (s.found.put pHost (HOST.QP_TX_PROD_IDX (qp % 8)) value))) ∧
  (∀ (s : State) (qp : Nat) (words : List Nat),
      s.awake → s.found.fetchTurn = some qp → 1 ≤ slice (words.getD 0 0) 28 4 → slice (words.getD 0 0) 28 4 ≤ 3 → exec (.descriptorFetch qp words) s = .next (s.ends (Hub.setQp { s.found with host := { s.found.host with turn := (qp + 1) % 8 } } qp { s.found.qp qp with next := ((s.found.qp qp).next + 1) % s.found.txEntries qp, descs := (s.found.qp qp).descs ++ [{ idx := (s.found.qp qp).next, words := words, stamp := s.found.now8 % 2 ^ 64, issued := false, status := none }] }))) ∧
  (∀ (s : State) (qp : Nat) (buffer : List Byte) (d : Desc),
      s.awake → s.found.pendingDesc qp 1 = some d → descOk ((s.found.markIssued qp d.idx).descAccess qp d) (d.word 0 % 65536) = true → exec (.descriptorWrite qp buffer) s = .next (s.ends ((s.found.markIssued qp d.idx).accessWrite ((s.found.markIssued qp d.idx).descAccess qp d) ((buffer ++ List.replicate (d.word 0 % 65536) 0).take (d.word 0 % 65536))))) ∧
  (∀ (s : State) (qp : Nat) (d : Desc),
      s.awake → s.found.pendingDesc qp 2 = some d → descOk ((s.found.markIssued qp d.idx).descAccess qp d) (d.word 0 % 65536) = true → exec (.descriptorRead qp) s = .next (s.ends ((s.found.markIssued qp d.idx).accessRead ((s.found.markIssued qp d.idx).descAccess qp d) (d.word 0 % 65536)))) ∧
  (∀ (s : State) (qp : Nat) (buffer : List Byte) (d : Desc),
      s.awake → s.found.pendingDesc qp 3 = some d → 60 ≤ d.word 0 % 65536 → d.word 0 % 65536 ≤ 9212 → (s.found.markIssued qp d.idx).tenantOn ((s.found.markIssued qp d.idx).cfg pBrg BRG.ISSUE_HOST_TEN) = true → (s.found.markIssued qp d.idx).fenced pBrg = false → exec (.descriptorTunnel qp buffer) s = .next (s.ends (s.found.tunnelQueued qp d buffer))) ∧
  (∀ (s : State) (qp : Nat) (d : Desc) (l : List Desc) (st : Nat),
      s.awake → (s.found.qp qp).descs = d :: l → d.status = some st → s.found.qpState qp = 1 → bitOf (d.word 0) 26 = false → exec (.descriptorComplete qp) s = .next (s.ends (s.found.descriptorClosed qp d l st))) ∧
  (∀ (s : State) (req : Req) (qp value : Nat),
      s.awake → s.admits req pHost (0x120 + 64 * (qp % 8)) → exec (.rxTail req qp value) s = .next (s.wrote req (s.found.writeRxTail (qp % 8) value))) ∧
  (∀ (s : State) (qp err : Nat),
      s.awake → qp < 8 → err ≠ 0 → err ≤ 2 → s.found.qpState qp = 1 → exec (.qpStop qp err) s = .next (s.ends ((((s.found.stopQp qp).put pHost (HOST.QP_STAT_STATE qp) 2).put pHost (HOST.QP_STAT_ERR qp) err).raise pHost 1))) ∧
  (∀ (s : State) (qp err : Nat),
      s.awake → qp < 8 → err = 0 → exec (.qpStop qp err) s = .next (s.ends (s.found.disableQp qp))) ∧
  (∀ (s : State) (qp : Nat),
      s.awake → s.found.qpState qp = 3 → (s.found.qp qp).descs.all (fun d => d.status.isSome) = true → exec (.drainEnd qp) s = .next (s.ends (((s.found.setQp qp { s.found.qp qp with descs := [] }).put pHost (HOST.QP_STAT_STATE qp) 0).startQp qp))) ∧
  (∀ (s : State) (req : Req) (high : Bool) (bits : Nat),
      s.awake → s.admits req pHost (HOST.VPEND_LO_PEND).off → high = false → exec (.vpend req high bits) s = .next (s.wrote req (s.found.put pHost HOST.VPEND_LO_PEND (s.found.get pHost HOST.VPEND_LO_PEND - (s.found.get pHost HOST.VPEND_LO_PEND &&& bits))))) ∧
  (∀ (s : State) (req : Req) (high : Bool) (bits : Nat),
      s.awake → s.admits req pHost (HOST.VPEND_HI_PEND).off → high = true → exec (.vpend req high bits) s = .next (s.wrote req (s.found.put pHost HOST.VPEND_HI_PEND (s.found.get pHost HOST.VPEND_HI_PEND - (s.found.get pHost HOST.VPEND_HI_PEND &&& bits))))) ∧
  (∀ (s : State) (vector : Nat),
      s.awake → vector < 64 → s.found.vectorPending vector = true → s.found.pcieUp = true → s.found.vectorMasked vector = false → exec (.msiXSend vector) s = .next (s.ends ((s.found.setPending vector false).emit (.msix vector)))) ∧
  (∀ (s : State) (change : PcieChange) (b : Bool),
      s.awake → s.found.hostIf = 1 → s.found.on pHost HOST.STAT_LINK_UP = true → change = .busMaster b → exec (.pcieConfigurationRequest change) s = .next (s.ends (s.found.setBusMaster b))) ∧
  (∀ (s : State) (change : PcieChange) (off : Nat) (v : Nat),
      s.awake → s.found.hostIf = 1 → s.found.on pHost HOST.STAT_LINK_UP = true → change = .byte off v → s.found.configFixed off = none → off ≠ 4 → off ≠ 0x44 → exec (.pcieConfigurationRequest change) s = .next (s.ends ({ s.found with host := { s.found.host with config := Map.put s.found.host.config off none (some (v % 256)) } }))) ∧
  (∀ (s : State) (rate width : Nat),
      s.awake → s.found.hostIf = 1 → s.found.mode ≠ .waking → s.found.serdesReady = true → s.found.gated pHost = false → 1 ≤ rate → rate ≤ 3 → 1 ≤ width → width ≤ 2 → exec (.pcieLinkUp rate width) s = .next (s.ends ((((s.found.putIrq pHost HOST.STAT_LINK_UP 1 0).put pHost HOST.STAT_RATE rate).put pHost HOST.STAT_WIDTH width).alignHost))) ∧
  (∀ (s : State),
      s.awake → exec .pcieLinkDown s = .next (s.ends (s.found.pcieLost)))

/-- The commands of the mailboxes and doorbells complete with their own effect: under the conditions of its rule each answers the next state that the rule gives. -/
def Obligations.MailboxCommandsComplete : Prop :=
  (∀ (s : State) (req : Req) (mailbox len : Nat),
      s.awake → s.admits req pMbx 0x0C0 → (s.found.mailCommand req (sendWord mailbox len)).2 = true → exec (.send req mailbox len) s = .next (s.wrote req ((s.found.mailCommand req (sendWord mailbox len)).1))) ∧
  (∀ (s : State) (req : Req) (mailbox rc : Nat),
      s.awake → s.admits req pMbx 0x0C0 → (s.found.mailCommand req (ackWord mailbox rc)).2 = true → exec (.ack req mailbox rc) s = .next (s.wrote req ((s.found.mailCommand req (ackWord mailbox rc)).1))) ∧
  (∀ (s : State) (req : Req) (mailbox : Nat),
      s.awake → s.admits req pMbx 0x0C0 → (s.found.mailCommand req (recallWord mailbox)).2 = true → exec (.recall req mailbox) s = .next (s.wrote req ((s.found.mailCommand req (recallWord mailbox)).1))) ∧
  (∀ (s : State) (req : Req) (off size value : Nat),
      s.awake → 0xC00 ≤ off → off < 0x1000 → s.found.turnedAway req pMbx off size = none → s.found.mailDataCause req ((off - 0xC00) / 64) = none → exec (.mailboxDataWrite req off size value) s = .next (s.ends (({ s.found with host := { s.found.host with mail := Mem.setWord s.found.host.mail (off - 0xC00) size value } }).emit (.resp req true)))) ∧
  (∀ (s : State) (req : Req) (side bits : Nat),
      s.awake → s.admits req pMbx (0x10C + 16 * (side % 4)) → sideOf req.code ≠ side % 4 → exec (.ring req side bits) s = .next (s.wrote req (s.found.ring (side % 4) (bits % 2 ^ 32)))) ∧
  (∀ (s : State) (req : Req) (side bits : Nat),
      s.awake → s.admits req pMbx (0x100 + 16 * (side % 4)) → sideOf req.code = side % 4 → s.found.fenced pMbx = false → exec (.dbRawClear req side bits) s = .next (s.wrote req (s.found.put pMbx (MBX.DB_RAW_BITS (side % 4)) (s.found.get pMbx (MBX.DB_RAW_BITS (side % 4)) - (s.found.get pMbx (MBX.DB_RAW_BITS (side % 4)) &&& bits)))))

/-- The commands of the power zones complete with their own effect: under the conditions of its rule each answers the next state that the rule gives. -/
def Obligations.ZoneCommandsComplete : Prop :=
  (∀ (s : State) (req : Req) (unit value : Nat),
      s.awake → s.admits req (pZone unit) 0x040 → exec (.on req unit value) s = .next (s.wrote req (s.found.writeZoneCmd unit value))) ∧
  (∀ (s : State) (req : Req) (unit : Nat),
      s.awake → s.admits req (pZone unit) 0x044 → s.found.zoneIs unit = 5 → exec (.unlatch req unit) s = .next (s.wrote req (s.found.zoneRecover unit))) ∧
  (∀ (s : State) (req : Req) (unit : Nat),
      s.awake → s.admits req (pZone unit) 0x044 → exec (.enClr req unit) s = .next (s.wrote req (s.found.setZone unit (fun x => { x with energy := 0, energyFrac := 0 })))) ∧
  (∀ (s : State) (unit : Nat) (vsh : Int) (edge : ZoneEdge),
      s.awake → s.found.slotIs unit [0, 2] = true → (s.found.shuntTaken unit vsh).zoneSampleTrip unit = none → exec (.shuntSample unit vsh edge) s = .next (s.ends (s.found.shuntTaken unit vsh))) ∧
  (∀ (s : State) (unit : Nat) (vsh : Int) (edge : ZoneEdge) (c : Nat),
      s.awake → s.found.slotIs unit [0, 2] = true → (s.found.shuntTaken unit vsh).zoneSampleTrip unit = some c → exec (.shuntSample unit vsh edge) s = .next (s.ends ((s.found.shuntTaken unit vsh).zoneTrip unit c ((s.found.shuntTaken unit vsh).zone unit).iMa edge))) ∧
  (∀ (s : State) (unit : Nat) (drain : Bool) (millivolts : Int) (vgs : Nat),
      s.awake → s.found.slotIs unit [1] = true → drain = false → exec (.voltageSample unit drain millivolts vgs) s = .next (s.ends (((((((s.found.nextSlot unit).zoneVoltage unit millivolts).2.setZone unit (fun x => { x with voutMv := ((s.found.nextSlot unit).zoneVoltage unit millivolts).1 })).zoneRampEnd unit vgs).zoneWatch unit).zonePgood unit)))) ∧
  (∀ (s : State) (unit : Nat) (drain : Bool) (millivolts : Int) (vgs : Nat),
      s.awake → s.found.slotIs unit [3] = true → drain = true → exec (.voltageSample unit drain millivolts vgs) s = .next (s.ends ((((((((s.found.nextSlot unit).zoneVoltage unit millivolts).2.setZone unit (fun x => { x with vinMv := ((s.found.nextSlot unit).zoneVoltage unit millivolts).1 })).zoneDrain unit).zoneRampEnd unit vgs).zoneWatch unit).zonePgood unit)))) ∧
  (∀ (s : State) (unit : Nat) (vsh : Int) (edge : ZoneEdge),
      s.awake → s.found.zoneConducts unit = true → (s.found.ifastNv unit : Int) < 100 * vsh → (s.found.ilimEff unit : Int) ≤ 2 * (s.found.zoneCurrent unit vsh).1 → ((s.found.zoneCurrent unit vsh).2.zoneTrip unit 1 (s.found.zoneCurrent unit vsh).1 edge).zoneConducts unit = false → exec (.fastTrip unit vsh edge) s = .next (s.ends (((s.found.zoneCurrent unit vsh).2.zoneTrip unit 1 (s.found.zoneCurrent unit vsh).1 edge).setZone unit (fun x => { x with hotPending := true })))) ∧
  (∀ (s : State) (unit : Nat) (edge : ZoneEdge),
      s.awake → s.found.zoneIs unit = 2 → (s.found.zone unit).rampAt + 10 ^ 6 * s.found.cfg (pZone unit) ZONE.RAMP_MAX_MS ≤ s.found.ns → exec (.rampTime unit edge) s = .next (s.ends (s.found.zoneTrip unit 3 (s.found.zone unit).iMa edge))) ∧
  (∀ (s : State) (unit : Nat),
      s.awake → s.found.zoneIs unit = 1 → [0, 1, 2, 3].all (fun z => s.found.zoneIs z != 2 && (decide (unit ≤ z) || s.found.zoneIs z != 1)) = true → exec (.rampTurn unit) s = .next (s.ends (s.found.zoneTo unit 2))) ∧
  (∀ (s : State) (unit : Nat),
      s.awake → s.found.zoneIs unit = 4 → (s.found.zone unit).backAt + (s.found.zone unit).backNs ≤ s.found.ns → exec (.backoffEnd unit) s = .next (s.ends (s.found.zoneTo unit 1))) ∧
  (∀ (s : State) (unit : Nat) (t : Nat),
      s.awake → (s.found.zone unit).inAt = some t → s.found.zoneMeasures = true → t + 10 ^ 8 ≤ s.found.ns → exec (.vinInRange unit) s = .next (s.ends (((s.found.setZone unit (fun x => { x with vinOk := true, outSeen := false })).zoneWatch unit).alignZone unit))) ∧
  (∀ (s : State) (unit : Nat),
      s.awake → s.found.zoneIs unit = 3 → (s.found.zone unit).onAt + 10 ^ 9 * s.found.cfg (pZone unit) ZONE.RETRY_CLR ≤ s.found.ns → exec (.retryClr unit) s = .next (s.ends (((s.found.put (pZone unit) ZONE.STAT_RETRY_CNT 0).put (pZone unit) ZONE.STAT_RECOVERY 0).zonePolicy unit))) ∧
  (∀ (s : State) (unit : Nat),
      s.awake → s.found.zoneQuiet unit (20 * 10 ^ 6) = true → (s.found.zone unit).voutMv < 1000 → (s.found.zone unit).rise < 10 ^ 13 → exec (.zeroCold unit) s = .next (s.ends ((s.found.put (pZone unit) ZONE.ZERO_COLD (s.found.zone unit).zero).zoneDrift unit))) ∧
  (∀ (s : State) (unit : Nat),
      s.awake → s.found.zoneQuiet unit (2 * 10 ^ 6) = true → (s.found.zone unit).hotPending = true → exec (.zeroHot unit) s = .next (s.ends (((s.found.put (pZone unit) ZONE.ZERO_HOT (s.found.zone unit).zero).setZone unit (fun x => { x with hotPending := false, hotTaken := true })).zoneDrift unit))) ∧
  (∀ (s : State) (unit vgs : Nat) (full : Bool),
      s.awake → s.found.zoneIs unit = 2 → bitOf (s.found.cfg (pZone unit) ZONE.CFG_DMG_CHK) 0 = true → (s.found.zone unit).probing = false → s.found.gateMissed unit vgs full = true → exec (.gateT unit vgs full) s = .next (s.ends ((((s.found.zoneRecord unit 5 (s.found.zone unit).iMa).put (pZone unit) ZONE.STAT_DMG_GATE 1).zoneTo unit 5).raise (pZone unit) 3))) ∧
  (∀ (s : State) (unit : Nat) (t : Nat),
      s.awake → s.found.zoneMeasures = true → (s.found.zone unit).overAt = some t → t + 10 ^ 6 * s.found.cfg (pZone unit) ZONE.DAMAGE_OFF_T ≤ s.found.ns → bitOf (s.found.cfg (pZone unit) ZONE.CFG_DMG_CHK) 1 = true → s.found.zoneIs unit ≠ 6 → exec (.offT unit) s = .next (s.ends ((s.found.put (pZone unit) ZONE.STAT_DMG_OUT 1).raise (pZone unit) 3))) ∧
  (∀ (s : State) (unit : Nat) (offset : Int),
      s.awake → s.found.zoneMeasures = true → (s.found.zone unit).chopDue ≤ s.found.ns → offset ≤ 50 → -50 ≤ offset → exec (.chopCycle unit offset) s = .next (s.ends ((s.found.setZone unit (fun x => { x with chopDue := s.found.ns + 10 ^ 6 })).zoneWarm unit))) ∧
  (∀ (s : State) (unit : Nat) (offset : Int),
      s.awake → s.found.zoneMeasures = true → (s.found.zone unit).chopDue ≤ s.found.ns → (50 < offset ∨ offset < -50) → exec (.chopCycle unit offset) s = .next (s.ends (((s.found.setZone unit (fun x => { x with chopDue := s.found.ns + 10 ^ 6 })).zoneWarm unit).raise (pZone unit) 5))) ∧
  (∀ (s : State) (req : Req) (unit : Nat),
      s.awake → s.admitsRead req (pZone unit) 0x084 → exec (.imeas req unit) s = .next (s.told req (s.found.readImeas unit))) ∧
  (∀ (s : State) (req : Req) (unit : Nat),
      s.awake → s.admitsRead req (pZone unit) 0x094 → exec (.energyLo req unit) s = .next (s.told req (s.found.readEnergy unit)))

/-- The commands of the fault collector and the temperature unit complete with their own effect: under the conditions of its rule each answers the next state that the rule gives. -/
def Obligations.FaultCommandsComplete : Prop :=
  (∀ (s : State) (sources : List (Nat × Nat)),
      s.awake → exec (.faultTransition sources) s = .next (s.ends ((((sources.filter arises).foldr insertSource []).foldl (fun g e => g.sourceEffect e.1 e.2) s.found).raiseAll ((sources.filter arises).foldr insertSource [])))) ∧
  (∀ (s : State) (e : Nat × Nat) (q : List (Nat × Nat)),
      s.awake → s.found.flt.queue = e :: q → exec .fence s = .next (s.ends ((((((({ s.found with flt := { s.found.flt with queue := q } }).put pFlt FLT.LAST_FENCE_SRC e.2).put pFlt FLT.LAST_FENCE_PAGE e.1).inc pFlt FLT.CNT_FENCE_COUNT).irq pFlt 0).fenceUnit (unitOf e.1))))) ∧
  (∀ (s : State) (req : Req) (key page : Nat),
      s.awake → s.admits req pFlt 0x048 → key = 0x7E1A → s.found.fenced (unitOf page) = true → s.found.fenceQueued (unitOf page) = false → (unitPages (unitOf page)).any (fun p => s.found.holdingFaults p) = false → s.found.bist.unit ≠ unitOf page → exec (.release req key page) s = .next (s.wrote req ((((s.found.put pFlt FLT.REL_STAT_RESULT 0).put pFlt FLT.REL_STAT_PAGE page).releaseUnit (unitOf page))))) ∧
  (∀ (s : State) (page : Nat),
      s.awake → s.found.fenced (unitOf page) = false → s.found.fenceCount (unitOf page) ≠ 0 → Map.getD s.found.flt.released (unitOf page) 0 + 500000000 * s.found.cfg pFlt FLT.CFG_REPEAT_CLR ≤ s.found.clock → exec (.repeatClr page) s = .next (s.ends ({ s.found with flt := { s.found.flt with counts := Map.erase s.found.flt.counts (unitOf page), released := Map.erase s.found.flt.released (unitOf page) } }))) ∧
  (∀ (s : State) (t0 t1 t2 t3 : Int),
      s.awake → s.found.underTest pTherm = false → s.found.therm.readDue ≤ s.found.clock → exec (.thermalReading t0 t1 t2 t3) s = .next (s.ends ((((((((s.found.sensorsRead t0 t1 t2 t3).tj.2.thermTimes (s.found.sensorsRead t0 t1 t2 t3).tj.1).thermShow (s.found.sensorsRead t0 t1 t2 t3).tj.1).thermBulk (s.found.sensorsRead t0 t1 t2 t3).tj.1).thermBank (s.found.sensorsRead t0 t1 t2 t3).tj.1).thermTime).thermStop (s.found.sensorsRead t0 t1 t2 t3).tj.1)))) ∧
  (∀ (s : State) (t : Nat),
      s.awake → s.found.get pTherm THERM.STAT_LEVEL ≠ 0 → s.found.get pTherm THERM.STAT_LEVEL < 15 → s.found.therm.stepAt = some t → t + 500000 * s.found.cfg pTherm THERM.CFG_STEP_MS ≤ s.found.clock → exec .stepMs s = .next (s.ends ({ s.found with therm := { s.found.therm with stepAt := some s.found.clock } }.setShedLevel (s.found.get pTherm THERM.STAT_LEVEL + 1)))) ∧
  (∀ (s : State) (sensor : Nat) (t : Nat),
      s.awake → Map.getD s.found.therm.diffAt sensor none = some t → sensor < 4 → s.found.sensorInUse sensor = true → t + 5000000 ≤ s.found.clock → exec (.sensorDiff sensor) s = .next (s.ends ((s.found.put pTherm THERM.STAT_IN_USE (withoutBit (s.found.get pTherm THERM.STAT_IN_USE) sensor)).raise pTherm 0)))

/-- The commands of the Steward, its coprocessor and its watchdogs complete with their own effect: under the conditions of its rule each answers the next state that the rule gives. -/
def Obligations.StewardCommandsComplete : Prop :=
  (∀ (s : State) (code ptr len : Nat),
      s.awake → s.found.annexState = 2 → len ≤ 1024 → inSram ptr len = true → s.found.annexHolds ptr len = true → exec (.ecall code ptr len) s = .next (s.ends (s.found.callArrives { path := .ecall ptr, code := code, req := 0xA, args := s.found.sramRead ptr len, good := true }))) ∧
  (∀ (s : State) (addr : Nat) (kind : Nat),
      s.awake → s.found.annexState = 2 → s.found.annexReaches addr kind = false → exec (.annexAccessFault addr kind) s = .next (s.ends (s.found.annexFault))) ∧
  (∀ (s : State) (annex : Bool) (rd : Nat) (op : CopOp),
      s.awake → s.found.worldRuns annex = true → annex = false → s.found.gateState 11 = 0 → s.found.sys.ungating.contains 11 = false → s.found.coprocessorIdle = true → exec (.copStart annex rd op) s = .next (s.ends ((s.found.copBegin annex op).emit (.core annex rd (s.found.copBegin annex op).copStatus)))) ∧
  (∀ (s : State) (annex : Bool) (rd : Nat),
      s.awake → s.found.worldRuns annex = true → s.found.coprocessorIdle = true → exec (.copWait annex rd) s = .next (s.ends (s.found.emit (.core annex rd s.found.copStatus)))) ∧
  (∀ (s : State) (annex : Bool) (rd : Nat),
      s.awake → s.found.worldRuns annex = true → s.found.coprocessorIdle = false → exec (.copWait annex rd) s = .next (s.ends ({ s.found with stw := { s.found.stw with copWait := some (annex, rd) } }))) ∧
  (∀ (s : State) (annex : Bool) (rd : Nat),
      s.awake → s.found.worldRuns annex = true → exec (.copPoll annex rd) s = .next (s.ends (s.found.emit (.core annex rd s.found.copStatus)))) ∧
  (∀ (s : State) (annex : Bool) (rd : Nat) (j : CopJob),
      s.awake → s.found.worldRuns annex = true → s.found.stw.cop = some j → exec (.copAbort annex rd) s = .next (s.ends ((s.found.copEnd (CopOp_unit j.op) 6).emit (.core annex rd (s.found.copEnd (CopOp_unit j.op) 6).copStatus)))) ∧
  (∀ (s : State) (j : CopJob) (a b c : Nat),
      s.awake → s.found.stw.cop = some j → j.outcome = none → j.op = .sha a b c → exec .sha256 s = .next (s.ends ({ (s.found.copOutcome j).2 with stw := { (s.found.copOutcome j).2.stw with cop := some { j with outcome := some (s.found.copOutcome j).1 } } }))) ∧
  (∀ (s : State) (j : CopJob) (a b c : Nat),
      s.awake → s.found.stw.cop = some j → j.outcome = none → j.op = .ecdsa a b c → exec .ecdsaP256 s = .next (s.ends ({ (s.found.copOutcome j).2 with stw := { (s.found.copOutcome j).2.stw with cop := some { j with outcome := some (s.found.copOutcome j).1 } } }))) ∧
  (∀ (s : State) (j : CopJob),
      s.awake → s.found.stw.cop = some j → j.outcome = none → CopOp_unit j.op = 2 → exec .aes256Gcm s = .next (s.ends ({ (s.found.copOutcome j).2 with stw := { (s.found.copOutcome j).2.stw with cop := some { j with outcome := some (s.found.copOutcome j).1 } } }))) ∧
  (∀ (s : State) (j : CopJob) (a b c : Nat),
      s.awake → s.found.stw.cop = some j → j.outcome = none → j.op = .crc a b c → exec .crc32c s = .next (s.ends ({ (s.found.copOutcome j).2 with stw := { (s.found.copOutcome j).2.stw with cop := some { j with outcome := some (s.found.copOutcome j).1 } } }))) ∧
  (∀ (s : State) (j : CopJob),
      s.awake → s.found.stw.cop = some j → j.outcome = none → CopOp_unit j.op = 4 → exec .trackArithmetic s = .next (s.ends ({ (s.found.copOutcome j).2 with stw := { (s.found.copOutcome j).2.stw with cop := some { j with outcome := some (s.found.copOutcome j).1 } } }))) ∧
  (∀ (s : State) (j : CopJob),
      s.awake → s.found.stw.cop = some j → j.outcome = none → j.op = .keyLoad → exec .keyLoad s = .next (s.ends ({ (s.found.copOutcome j).2 with stw := { (s.found.copOutcome j).2.stw with cop := some { j with outcome := some (s.found.copOutcome j).1 } } }))) ∧
  (∀ (s : State) (j : CopJob) (a b : Nat),
      s.awake → s.found.stw.cop = some j → j.outcome = none → j.op = .keyWrite a b → exec .keyWrite s = .next (s.ends ({ (s.found.copOutcome j).2 with stw := { (s.found.copOutcome j).2.stw with cop := some { j with outcome := some (s.found.copOutcome j).1 } } }))) ∧
  (∀ (s : State) (j : CopJob) (a : Nat),
      s.awake → s.found.stw.cop = some j → j.outcome = none → j.op = .keyClear a → exec .keyClear s = .next (s.ends ({ (s.found.copOutcome j).2 with stw := { (s.found.copOutcome j).2.stw with cop := some { j with outcome := some (s.found.copOutcome j).1 } } }))) ∧
  (∀ (s : State) (j : CopJob) (o : CopOutcome),
      s.awake → s.found.stw.cop = some j → j.outcome = some o → (j.start + (if o.result = 2 ∨ o.result = 8 then 0 else CopOp_cycles j.op) ≤ s.found.clock) → o.slot = none → exec .coprocessorComplete s = .next (s.ends (((o.writes.foldl (fun (g : Hub) w => g.sramWrite w.1 w.2) s.found).copEnd (CopOp_unit j.op) o.result).coreInput 37))) ∧
  (∀ (s : State) (req : Req) (key : Nat),
      s.awake → s.admits req pStw 0x050 → req = .secure → key % 65536 = 0x5EC0 → exec (.wdogKick req key) s = .next (s.wrote req (({ s.found with stw := { s.found.stw with kickS := s.found.ns } }).dropInput 40))) ∧
  (∀ (s : State) (req : Req) (key : Nat),
      s.awake → s.admits req pStw 0x050 → req = .annex → key % 65536 = 0x0A4E → exec (.wdogKick req key) s = .next (s.wrote req ({ s.found with stw := { s.found.stw with kickA := s.found.ns } }))) ∧
  (∀ (s : State),
      s.awake → s.found.secureWatched = true → s.found.stw.kickS + s.found.get pStw STW.WDOG_S_MS * 1000000 ≤ s.found.ns → exec .wdogS s = .next (s.ends (s.found.raise pStw 0))) ∧
  (∀ (s : State),
      s.awake → s.found.annexState = 2 → s.found.get pStw STW.WDOG_A_MS ≠ 0 → s.found.stw.kickA + s.found.get pStw STW.WDOG_A_MS * 1000000 ≤ s.found.ns → exec .wdogA s = .next (s.ends ((s.found.annexExit 3 2).raise pStw 1))) ∧
  (∀ (s : State),
      s.awake → s.found.secureWatched = true → s.found.stw.kickS + s.found.get pStw STW.WDOG_S_MS * 500000 ≤ s.found.ns → exec .secureWatchdogHalf s = .next (s.ends (s.found.coreInput 40))) ∧
  (∀ (s : State) (req : Req) (key : Nat),
      s.awake → s.admits req pStw 0x044 → req = .secure → key % 65536 = 0x3EAD → s.found.get pStw STW.STAT_CORE = 2 → s.found.on pStw STW.STAT_READY = false → s.found.loadAnnex.mode ≠ .waking → exec (.stewardReady req key) s = .next (s.wrote req ((s.found.loadAnnex.setReady true).raiseRollback.mailCalls))) ∧
  (∀ (s : State) (req : Req),
      s.awake → s.admits req pStw 0x054 → req = .secure → exec (.anxCtlStart req) s = .next (s.wrote req (s.found.startAnnex))) ∧
  (∀ (s : State) (req : Req),
      s.awake → s.admits req pStw 0x054 → req = .secure → exec (.anxCtlStop req) s = .next (s.wrote req (s.found.annexExit 3 1))) ∧
  (∀ (s : State) (req : Req),
      s.awake → s.admits req pStw 0x054 → req = .secure → exec (.unload req) s = .next (s.wrote req (s.found.unloadAnnex))) ∧
  (∀ (s : State) (annex : Bool) (value : Nat),
      s.awake → value ≤ s.found.now → annex = false → exec (.timerComparator annex value) s = .next (s.ends ({ s.found with stw := { s.found.stw with cmpS := some value, timerIrq := true } }))) ∧
  (∀ (s : State) (annex : Bool) (value : Nat),
      s.awake → value ≤ s.found.now → annex = true → s.found.annexState = 2 → exec (.timerComparator annex value) s = .next (s.ends (({ s.found with stw := { s.found.stw with cmpA := some value } }).coreInput 45))) ∧
  (∀ (s : State) (req : Req) (key : Nat),
      s.awake → s.admits req pLc 0x074 → req = .secure → key % 65536 = 0xB10E → s.found.on pLc LC.OTP_STAT_BUSY = false → s.found.otpRefused (s.found.get pLc LC.OTP_SEL_WORD) (s.found.get pLc LC.OTP_WDATA_DATA) = false → exec (.otpProg req key) s = .next (s.wrote req (({ s.found with stw := { s.found.stw with otp := some (s.found.get pLc LC.OTP_SEL_WORD, s.found.get pLc LC.OTP_WDATA_DATA) } }).put pLc LC.OTP_STAT_BUSY 1))) ∧
  (∀ (s : State) (blown : Nat) (word : Nat) (bits : Nat),
      s.awake → s.found.stw.otp = some (word, bits) → exec (.otpProgDone blown) s = .next (s.ends (((((({ s.found with stw := { s.found.stw with otp := none } }).blow word (bits &&& blown)).put pLc LC.OTP_STAT_BUSY 0).put pLc LC.OTP_STAT_RESULT (if bits &&& blown = bits then 0 else 3))).irq pLc 0))) ∧
  (∀ (s : State) (req : Req) (key target : Nat),
      s.awake → s.admits req pLc 0x044 → req = .secure → key % 65536 = 0x1C5E → s.found.stw.trans = none → (s.found.put pLc LC.TRANS_STAT_TARGET (target % 16)).transResult (target % 16) = 5 → exec (.trans req key target) s = .next (s.wrote req (s.found.transBegun (target % 16)))) ∧
  (∀ (s : State) (copies : Nat) (b : Nat),
      s.awake → s.found.stw.trans = some b → 3 ≤ copies → exec (.lcTransitionDone copies) s = .next (s.ends ((s.found.transBlown b copies).fresh.2.systemReset 0x03 ((s.found.transBlown b copies).fresh.1 % 7))))

/-- The services of the Steward complete with their own effect: under the conditions of its rule each answers the next state that the rule gives. -/
def Obligations.StewardServicesComplete : Prop :=
  (∀ (s : State) (cls : SvcClass) (c : SvcCall),
      s.awake → s.found.servesCall cls 0x0001 c → exec (.version cls) s = .next (s.ends ((s.found.dropCall c).answer c 0 (leBytes 4 ((s.found.dropCall c).get pStw STW.FW_VER_VER) ++ leBytes 4 Config.romVersion.toNat)))) ∧
  (∀ (s : State) (cls : SvcClass) (c : SvcCall),
      s.awake → s.found.servesCall cls 0x0002 c → exec (.status cls) s = .next (s.ends (((s.found.dropCall c).fresh.2.nonceIssued (s.found.dropCall c).fresh.1).answer c 0 (((s.found.dropCall c).fresh.2.nonceIssued (s.found.dropCall c).fresh.1).statusReply (s.found.dropCall c).fresh.1)))) ∧
  (∀ (s : State) (cls : SvcClass) (c : SvcCall),
      s.awake → s.found.servesCall cls 0x0010 c → exec (.lcAdvance cls) s = .next (s.ends ((s.found.dropCall c).lcAdvanced c))) ∧
  (∀ (s : State) (cls : SvcClass) (c : SvcCall),
      s.awake → s.found.servesCall cls 0x0011 c → leNat (c.args.take 4) ≤ 3 → exec (.keyRevoke cls) s = .next (s.ends ((s.found.dropCall c).keyRevoked c))) ∧
  (∀ (s : State) (cls : SvcClass) (c : SvcCall),
      s.awake → s.found.servesCall cls 0x0020 c → ((s.found.dropCall c).codeOwns c.req pStw = true ∨ c.req = 0x8) → exec (.anxStart cls) s = .next (s.ends ((s.found.dropCall c).startAnnex.answer c (if (s.found.dropCall c).startAnnex.annexState = 2 then 0 else 0x0005) (leBytes 1 (s.found.dropCall c).startAnnex.annexState)))) ∧
  (∀ (s : State) (cls : SvcClass) (c : SvcCall),
      s.awake → s.found.servesCall cls 0x0021 c → ((s.found.dropCall c).codeOwns c.req pStw = true ∨ c.req = 0x8 ∨ c.req = 0xA) → exec (.anxStop cls) s = .next (s.ends (((s.found.dropCall c).annexExit 3 1).answer c 0 (leBytes 1 ((s.found.dropCall c).annexExit 3 1).annexState)))) ∧
  (∀ (s : State) (cls : SvcClass) (c : SvcCall),
      s.awake → s.found.servesCall cls 0x0022 c → (s.found.dropCall c).codeOwns c.req pStw = true → c.args.length = 48 → exec (.anxPages cls) s = .next (s.ends (((List.range 12).foldl (fun q i => q.put pStw (STW.ANX_PAGES_PAGES i) (leNat ((c.args.drop (4 * i)).take 4))) (s.found.dropCall c)).answer c 0 []))) ∧
  (∀ (s : State) (cls : SvcClass) (c : SvcCall),
      s.awake → s.found.servesCall cls 0x0030 c → (s.found.dropCall c).codeOwns c.req pSys = true → exec (.gateRelease cls) s = .next (s.ends (((s.found.dropCall c).put pSys SYS.GATE_HOLD_HOLD ((s.found.dropCall c).holdAfter c)).answer c 0 (leBytes 2 ((s.found.dropCall c).holdAfter c))))) ∧
  (∀ (s : State) (frame : Frame),
      s.awake → frame.hdr.type = 0x19 → frame.field 4 1 % 2 = 1 → exec (.stewardMessage frame) s = .next (s.ends ((s.found.coreInput 38).emit (.deliver 6 frame)))) ∧
  (∀ (s : State) (frame : Frame),
      s.awake → frame.hdr.type = 0x19 → frame.field 4 1 % 2 = 0 → s.found.tenantOn frame.hdr.ten = true → s.found.secureServes = true → 16 + frame.field 2 2 = frame.hdr.len → (s.found.stw.calls.filter (fun c => SvcPath_cls c.path == .ring)).length < 4 → exec (.stewardMessage frame) s = .next (s.ends ((s.found.coreInput 38).callArrives (callOf (.ring frame.hdr.src frame.hdr.ten (frame.field 10 2)) frame.hdr.ten frame.payload))))

/-- The commands of the field update complete with their own effect: under the conditions of its rule each answers the next state that the rule gives. -/
def Obligations.UpdateCommandsComplete : Prop :=
  (∀ (s : State) (flashOk : Bool) (pot : List (Nat × Nat × Nat)) (potUs : Nat),
      s.awake → s.found.get pStw STW.STAT_CORE = 1 → s.found.mode = .waking → s.found.completeTorn.lifecycle ≠ 0 → s.found.completeTorn.lifecycle ≠ 5 → s.found.completeTorn.on pBist BIST.SEL_BOOT = false → (s.found.completeTorn.put pBist BIST.SEL_BOOT 0).powerOnTests = false → exec (.bootRomStart flashOk pot potUs) s = .next (s.ends (((s.found.completeTorn.put pBist BIST.SEL_BOOT 0).put pBist BIST.POT_RAN 0).bootFromFlash flashOk))) ∧
  (∀ (s : State) (cls : SvcClass) (c : SvcCall),
      s.awake → s.found.updatesCall cls 0x0100 c → exec (.updInfo cls) s = .next (s.ends ((s.found.dropCall c).answer c 0 ((s.found.dropCall c).regBytes pUpd 0x044 8)))) ∧
  (∀ (s : State) (cls : SvcClass) (flashOk : Bool) (c : SvcCall),
      s.awake → s.found.updatesCall cls 0x0101 c → (s.found.dropCall c).landing = 0 → 1 ≤ leNat (c.args.take 2) → leNat (c.args.take 2) ≤ (s.found.dropCall c).slotBlocks → flashOk = true → exec (.updBegin cls flashOk) s = .next (s.ends (((s.found.dropCall c).landingBegun c).answer c 0 []))) ∧
  (∀ (s : State) (cls : SvcClass) (flashOk : Bool) (c : SvcCall),
      s.awake → s.found.updatesCall cls 0x0102 c → (s.found.dropCall c).dataFits c → (leNat (c.args.take 4)) + (leNat ((c.args.drop 4).take 2)) ≤ (s.found.dropCall c).get pUpd UPD.LAND_RX_BYTES → exec (.updData cls flashOk) s = .next (s.ends ((s.found.dropCall c).answer c 0 (leBytes 4 ((s.found.dropCall c).get pUpd UPD.LAND_RX_BYTES))))) ∧
  (∀ (s : State) (cls : SvcClass) (flashOk : Bool) (c : SvcCall),
      s.awake → s.found.updatesCall cls 0x0102 c → (s.found.dropCall c).dataFits c → leNat (c.args.take 4) = (s.found.dropCall c).get pUpd UPD.LAND_RX_BYTES → (((s.found.dropCall c).dataTaken c).storeBlocks flashOk 2).1 = 0 → (((s.found.dropCall c).dataTaken c).storeBlocks flashOk 2).2.get pUpd UPD.LAND_RX_BYTES ≠ 65536 * (s.found.dropCall c).get pUpd UPD.LAND_LEN_BLOCKS → exec (.updData cls flashOk) s = .next (s.ends ((((s.found.dropCall c).dataTaken c).storeBlocks flashOk 2).2.answer c 0 (leBytes 4 ((((s.found.dropCall c).dataTaken c).storeBlocks flashOk 2).2.get pUpd UPD.LAND_RX_BYTES))))) ∧
  (∀ (s : State) (cls : SvcClass) (c : SvcCall),
      s.awake → s.found.updatesCall cls 0x0103 c → (s.found.dropCall c).landing = 2 → exec (.updVerify cls) s = .next (s.ends (((s.found.dropCall c).setLanding 3).keepRunning c))) ∧
  (∀ (s : State) (flashOk : Bool) (c : SvcCall),
      s.awake → s.found.upd.running = some c → s.found.landing = 3 → exec (.verificationEnd flashOk) s = .next (s.ends (s.found.verified c flashOk))) ∧
  (∀ (s : State) (cls : SvcClass) (flashOk : Bool) (c : SvcCall),
      s.awake → s.found.updatesCall cls 0x0104 c → (s.found.dropCall c).landing = 4 → (s.found.dropCall c).record.slot (s.found.dropCall c).record.active ≠ 2 → flashOk = true → exec (.updActivate cls flashOk) s = .next (s.ends (((s.found.dropCall c).activationBegun).keepRunning c))) ∧
  (∀ (s : State) (flashOk : Bool) (c : SvcCall),
      s.awake → s.found.upd.running = some c → s.found.landing = 5 → flashOk = true → (s.found.updIdle.setLanding 2).badBlocks ((s.found.updIdle.setLanding 2).area 2) ((s.found.updIdle.setLanding 2).get pUpd UPD.LAND_LEN_BLOCKS) = 0 → exec (.activationEnd flashOk) s = .next (s.ends ((s.found.activated c).answer c 0 (leBytes 1 s.found.upd.target)))) ∧
  (∀ (s : State) (cls : SvcClass) (flashOk : Bool) (c : SvcCall) (i : Nat),
      s.awake → s.found.updatesCall cls 0x0105 c → (s.found.dropCall c).trialSlot = some i → flashOk = true → exec (.updConfirm cls flashOk) s = .next (s.ends (((s.found.dropCall c).confirm i).answer c 0 []))) ∧
  (∀ (s : State) (flashOk : Bool) (i : Nat) (t : Nat),
      s.awake → s.found.trialSlot = some i → s.found.cfgOn pUpd UPD.CFG_AUTO_CONFIRM = true → (s.found.mode = .running ∨ s.found.mode = .degraded) → s.found.upd.runSince = some t → t + s.found.cfg pUpd UPD.CFG_CONFIRM_S * 1000000000 ≤ s.found.ns → s.found.upd.running = none → s.found.fenced pUpd = false → s.found.on pStw STW.STAT_READY = true → flashOk = true → exec (.autoConfirm flashOk) s = .next (s.ends (s.found.confirm i))) ∧
  (∀ (s : State) (cls : SvcClass) (flashOk : Bool) (c : SvcCall),
      s.awake → s.found.updatesCall cls 0x0106 c → (s.found.dropCall c).record.slot ((s.found.dropCall c).record.active % 2) = 2 → flashOk = true → exec (.updRevert cls flashOk) s = .next (s.ends ((((s.found.dropCall c).writeRecord (fun r => { r.setSlot ((s.found.dropCall c).record.active % 2) 3 with active := 1 - (s.found.dropCall c).record.active % 2 })).noteReboot (leNat (c.args.take 1) % 2 == 1)).answer c 0 (leBytes 1 (1 - (s.found.dropCall c).record.active % 2))))) ∧
  (∀ (s : State) (cls : SvcClass) (flashOk : Bool) (c : SvcCall),
      s.awake → s.found.updatesCall cls 0x0107 c → (s.found.dropCall c).landing ≠ 3 → (s.found.dropCall c).landing ≠ 5 → flashOk = true → exec (.updAbort cls flashOk) s = .next (s.ends ((s.found.dropCall c).landingAborted.answer c 0 []))) ∧
  (∀ (s : State) (cls : SvcClass) (flashOk : Bool) (c : SvcCall),
      s.awake → s.found.updatesCall cls 0x0108 c → flashOk = true → exec (.updCellar cls flashOk) s = .next (s.ends ((((s.found.dropCall c).writeRecord (fun r => { r with cellar := true })).noteReboot (leNat (c.args.take 1) % 2 == 1)).answer c 0 []))) ∧
  (∀ (s : State) (t : Nat),
      s.awake → s.found.upd.reboot = some t → t ≤ s.found.ns → s.found.mode = .cellar → exec .reboot s = .next (s.ends (({ s.found with upd := { s.found.upd with reboot := none } }).systemReset 0x03 6))) ∧
  (∀ (s : State) (t : Nat),
      s.awake → s.found.upd.reboot = some t → t ≤ s.found.ns → s.found.mode ≠ .cellar → exec .reboot s = .next (s.ends (({ s.found with upd := { s.found.upd with reboot := none } }).modeRequest .secure 0x6D0E0007)))

/-- The commands of the self-test complete with their own effect: under the conditions of its rule each answers the next state that the rule gives. -/
def Obligations.SelfTestCommandsComplete : Prop :=
  (∀ (s : State) (failed page detail : Nat),
      s.awake → 1 ≤ s.found.bist.phase → s.found.bist.phase ≤ 4 → exec (.bistPhaseEnd failed page detail) s = .next (s.ends (s.found.phaseClosed failed page detail))) ∧
  (∀ (s : State),
      s.awake → s.found.bist.phase = 6 → s.found.bist.failed = 0 → exec .selfTestEnd s = .next (s.ends (s.found.testClosed.systemReset 0x03 5))) ∧
  (∀ (s : State) (cls : SvcClass) (c : SvcCall),
      s.awake → s.found.servesCall cls 0x0200 c → (s.found.dropCall c).bistCaller c.req = true → exec (.bistInfo cls) s = .next (s.ends ((s.found.dropCall c).answer c 0 (((s.found.dropCall c).put pBist BIST.STAT_ELAPSED (s.found.dropCall c).bistElapsed).regBytes pBist 0x044 9)))) ∧
  (∀ (s : State) (cls : SvcClass) (c : SvcCall),
      s.awake → s.found.servesCall cls 0x0201 c → (s.found.dropCall c).bistCaller c.req = true → (s.found.dropCall c).unitRefused (unitOf (testPage c)) (testItems c) = none → exec (.unitTest cls) s = .next (s.ends (((s.found.dropCall c).startUnitTest (testPage c) (unitOf (testPage c)) (testItems c) (leNat ((c.args.drop 3).take 1) % 2 == 1)).answer c 0 (leBytes 1 (testItems c))))) ∧
  (∀ (s : State) (cls : SvcClass) (c : SvcCall),
      s.awake → s.found.servesCall cls 0x0202 c → (s.found.dropCall c).bistCaller c.req = true → exec (.unitAbort cls) s = .next (s.ends ((s.found.dropCall c).abortUnitTest.answer c 0 []))) ∧
  (∀ (s : State) (failed page detail : Nat),
      s.awake → s.found.on pBist BIST.UNIT_BUSY = true → s.found.bist.found = none → s.found.bist.load = false → exec (.unitTestEnd failed page detail) s = .next (s.ends (s.found.endUnitTest failed page detail))) ∧
  (∀ (s : State) (failed page detail : Nat),
      s.awake → s.found.on pBist BIST.UNIT_BUSY = true → s.found.bist.found = none → s.found.bist.load = true → exec (.unitTestEnd failed page detail) s = .next (s.ends (({ s.found with bist := { s.found.bist with load := false, found := some (failed, page, detail) } }.setZone (instOf s.found.bist.unit) (fun x => { x with probing := true })).zoneTo (instOf s.found.bist.unit) 1))) ∧
  (∀ (s : State) (failed page detail : Nat) (f : Nat) (q : Nat) (d : Nat),
      s.awake → s.found.on pBist BIST.UNIT_BUSY = true → s.found.bist.found = some (f, q, d) → (s.found.zone (instOf s.found.bist.unit)).probing = false → exec (.unitTestEnd failed page detail) s = .next (s.ends (s.found.endUnitTest f q d)))

/-- A step takes the command at the front of the queue and runs it with the queue's rest. -/
def Obligations.StepRunsTheFrontCommand : Prop :=
  ∀ (s : State) (c : Instr) (q : List Instr), step { s with pending := c :: q } = exec c { s with pending := q }

/-- On an empty queue one edge of the 500 MHz clock passes (R169, R172). While the core does not run nothing moves but what was sent out, which
ends. While it runs, with nothing due on the edge (no Prism engine with state, no cell, request or posted write that waits, no frame leaving the
Ethernet port), the counter C and the count of the edges count one, the fall-back count counts FB_INC, Tj is sampled, and nothing else happens but
what the end of every command adds. That the clock runs on an empty queue only is the model's choice (log entry 5). -/
def Obligations.IdleStepIsAClockEdge : Prop :=
  ∀ s : State, s.pending = [] → ∃ t, step s = .next t ∧ t.pending = [] ∧
    (s.hub.coreRuns = false → t.hub = s.hub.begin) ∧
    (s.awake → s.hub.prismUnits = [] → s.hub.cellsWait = false →
      s.hub.brg.express = [] → s.hub.brg.bulk = [] → s.hub.brg.own = [] → s.hub.ether.ends = [] →
      t = s.ends { s.found with
        clock := s.hub.clock + 1
        time := { s.hub.time with
          tj := s.hub.sampledTj
          c := (s.hub.time.c + 1) % 2 ^ 64
          fb := (s.hub.time.fb + s.hub.get pTime TIME.FB_INC_INC) % 2 ^ 88 } })

/-- Commands that fall on one edge of the clock join the queue behind those that wait, all of them and no other, by the places that the rules
give them (R37, R42, R43, R69, R208, R221, R231, R234, R315, R364, R405, R412, R438, R482, R503, R525, R551); commands of one place keep their order,
and the queue notes how many belong to the edge; nothing else changes. The places are the model's reading of those rules (log entry 54). -/
def Obligations.CommandsOfOneEdgeJoinInOrder : Prop :=
  ∀ (s : State) (cs : List Instr), ∃ l : List Instr, (s.arrive cs).pending = s.pending ++ l ∧ l.Perm cs ∧
    l.Pairwise (fun a b => s.hub.edgeRank a ≤ s.hub.edgeRank b) ∧
    (∀ n, l.filter (fun c => s.hub.edgeRank c == n) = cs.filter (fun c => s.hub.edgeRank c == n)) ∧
    (s.arrive cs).hub.edge.groups =
      s.hub.edge.groups ++ List.replicate (s.pending.length - s.hub.edge.groups.sum) 1 ++ [l.length] ∧
    { (s.arrive cs).hub with edge := s.hub.edge } = s.hub

/-- In Shelf the hub's core is not powered: every command but a power-on, a supply that comes or goes, a wake event and RST_N has no effect, and
answers nothing (R101). Outside Shelf too, while the core lacks a supply or a clock, every command has none but these and the references, the PLLs
and the waits of start-up (R96, R103). -/
def Obligations.OnlyKeepAliveActsInShelf : Prop :=
  ∀ (c : Instr) (s : State),
    (∀ b, c ≠ .powerOn b) → (∀ d mv, c ≠ .supplyPresent d mv) → (∀ d, c ≠ .supplyLost d) → (∀ e, c ≠ .wakeEvent e) → c ≠ .rstN → c ≠ .rstNRelease →
    (s.hub.mode = .shelf → exec c s = .next { s with hub := s.hub.begin }) ∧
    (s.hub.coreRuns = false → c ≠ .powerOnHoldEnd → (∀ b, c ≠ .referenceValid b) → c ≠ .referenceWaitLimit →
      (∀ a b i n, c ≠ .corePllLock a b i n) → c ≠ .ref25Lost → c ≠ .corePllSwitchover → c ≠ .ref156Lost → c ≠ .clockLoss →
      exec c s = .next { s with hub := s.hub.begin })

/-- After a power-on reset no command waits, and every field of every page has its reset value, staged and committed alike (R8). -/
def Obligations.ResetGivesResetValues : Prop :=
  State.reset.pending = [] ∧
  ∀ (p : Nat) (f : Fld), State.reset.hub.get p f = resetOf p f ∧ State.reset.hub.cfg p f = resetOf p f

/-- The machine after reset is in Waking for the reason power-on, in its canonical form, with no mailbox WAITING for a reader. -/
def Obligations.ResetIsCanonical : Prop :=
  State.reset.hub.mode = .waking ∧ State.reset.hub.get pSys SYS.MODE_REASON = 1 ∧ State.reset.hub.get pSys SYS.RST_CAUSE_CAUSE = 1 ∧
  State.reset.hub.ordered ∧ State.reset.hub.memoriesWf ∧ State.reset.hub.readersServed

/-- Every command in every state answers a next state, and leaves the commands that wait as they are. -/
def Obligations.EveryCommandAnswers : Prop :=
  ∀ (c : Instr) (s : State), ∃ t, exec c s = .next t ∧ t.pending = s.pending

/-- As many steps as commands wait run them all. -/
def Obligations.QueueDrains : Prop :=
  ∀ s : State, ∃ t : State, Host.Core.run Sys2Proof.core s.pending.length s = .next t ∧ t.pending = []

/-- A mailbox shows WAITING only while its reader is absent: every step keeps that (R483). -/
def Obligations.WaitingOnlyWhileReaderAbsent : Prop :=
  ∀ s t : State, s.hub.readersServed → step s = .next t → t.hub.readersServed

/-- The 20 bytes of every header that fits carry that header and its check, and nothing of it is lost (R120, R121). -/
def Obligations.HeaderRoundTrip : Prop :=
  ∀ x : Header, x.wf = true → x.encode.length = 20 ∧ headerCheck x.encode = true ∧ Header.decode x.encode = x

/-- A valid frame of its class's length that is sent with its check is judged whole by the port that receives it, with every field and byte;
sent with the complement of its check it is judged stomped, with them too (R120, R121, R123, R126). -/
def Obligations.FrameArrivesWhole : Prop :=
  ∀ f : Frame, f.wf = true → f.hdr.valid f.cls = true → f.hdr.len ≤ f.cls.maxLen →
    judge f.cls (f.bytes ++ f.check) = .whole f ∧
    judge f.cls (f.bytes ++ leBytes 4 (crc32 f.bytes ^^^ 0xFFFFFFFF)) = .stomped f

/-- A write to an unused page completes with an error response and changes nothing but SYS.ACC_ERR, which records its requester, page and
offset; a read of one answers zero with an error status and is recorded likewise (R32). It holds of every access that reaches the hub's
pages: what the Annex's own checks stop (R538), and a host that is not served (R463) or whose port is fenced (R487), never do. A host's error
response is recorded in HOST.WERR as well (R468). -/
def Obligations.UnusedPageIsRefused : Prop :=
  (∀ (s : State) (req : Req) (page off size value : Nat), usedPage page = false → s.awake → s.settled → s.found.hostTurned req page = false →
    s.found.annexTurned req page off true = none →
    ∃ t, exec (.registerWrite req page off size value) s = .next t ∧ .resp req false ∈ t.hub.out ∧
      t.hub.get pSys SYS.ACC_ERR_REQ = req.code ∧ t.hub.get pSys SYS.ACC_ERR_PAGE = page % 2 ^ 12 ∧
      t.hub.get pSys SYS.ACC_ERR_OFFSET = off % 2 ^ 12 ∧
      t.hub.keeps s.hub ([SYS.ACC_ERR_REQ.on pSys, SYS.ACC_ERR_PAGE.on pSys, SYS.ACC_ERR_OFFSET.on pSys] ++ responsePlaces req ++ endPlaces)) ∧
  (∀ (h : Hub) (req : Req) (page off size : Nat), usedPage page = false → h.hostTurned req page = false → h.annexTurned req page off false = none →
    (h.regRead req page off size).1 ≠ 0 ∧ (h.regRead req page off size).2.1 = 0 ∧
    (h.regRead req page off size).2.2.get pSys SYS.ACC_ERR_REQ = req.code ∧
    (h.regRead req page off size).2.2.get pSys SYS.ACC_ERR_PAGE = page % 2 ^ 12 ∧
    (h.regRead req page off size).2.2.get pSys SYS.ACC_ERR_OFFSET = off % 2 ^ 12 ∧
    (h.regRead req page off size).2.2.keeps h [SYS.ACC_ERR_REQ.on pSys, SYS.ACC_ERR_PAGE.on pSys, SYS.ACC_ERR_OFFSET.on pSys])

/-- A write from a requester that may not write a used page completes with an error response and changes nothing but SYS.OWN_ERR, which
records its requester, page and offset, SYS.OWN_ERR_CNT, which counts it (R41), and for a host HOST.WERR (R468). -/
def Obligations.OwnershipRefusal : Prop :=
  ∀ (s : State) (req : Req) (page off value : Nat), s.awake → s.settled → ¬ (page = pSys ∧ off = 0x084) → s.found.hostTurned req page = false →
    s.found.annexTurned req page off true = none → usedPage page = true → badForm off 4 = false → s.found.underTest page = false →
    s.found.mayWrite req page = false → openTo req page off = false →
    ∃ t, exec (.registerWrite req page off 4 value) s = .next t ∧ .resp req false ∈ t.hub.out ∧
      t.hub.get pSys SYS.OWN_ERR_REQ = req.code ∧ t.hub.get pSys SYS.OWN_ERR_PAGE = page % 2 ^ 12 ∧
      t.hub.get pSys SYS.OWN_ERR_OFFSET = off % 2 ^ 12 ∧
      t.hub.get pSys SYS.OWN_ERR_CNT_COUNT = satAdd SYS.OWN_ERR_CNT_COUNT.w (s.hub.get pSys SYS.OWN_ERR_CNT_COUNT) 1 % 2 ^ SYS.OWN_ERR_CNT_COUNT.w ∧
      t.hub.keeps s.hub ([SYS.OWN_ERR_REQ.on pSys, SYS.OWN_ERR_PAGE.on pSys, SYS.OWN_ERR_OFFSET.on pSys, SYS.OWN_ERR_CNT_COUNT.on pSys]
        ++ responsePlaces req ++ endPlaces)

/-- A register write of any requester but the Annex that is turned away completes with an error response and changes nothing but the records
of refused accesses (R32, R33, R41, R92, R113, R468, R487). A host that is not served has no access: its write changes nothing at all and is not
answered (R463). -/
def Obligations.TurnedAwayWritesChangeNothing : Prop :=
  ∀ (s : State) (req : Req) (page size off value mask now_ active : Nat), s.awake → s.settled → req ≠ .annex →
    (¬ (page = pSys ∧ off = 0x084) → (s.found.turnedAway req page off size).isSome = true →
      ∃ t, exec (.registerWrite req page off size value) s = .next t ∧ ((req = .host → s.found.hostServed = true) → .resp req false ∈ t.hub.out) ∧
        t.hub.keeps s.hub (errorPlaces ++ responsePlaces req ++ endPlaces)) ∧
    (∀ e ∈ ([(.xkeyOpen req page, 0x008), (.xkeyClose req page value, 0x008), (.srst req page, 0x008), (.pgIrqRawClear req page mask now_, 0x010),
        (.pgFltClear req page mask active, 0x01C), (.discard req page, 0x024)] : List (Instr × Nat)),
      (s.found.turnedAway req page e.2 4).isSome = true →
      ∃ t, exec e.1 s = .next t ∧ ((req = .host → s.found.hostServed = true) → .resp req false ∈ t.hub.out) ∧
        t.hub.keeps s.hub (errorPlaces ++ responsePlaces req ++ endPlaces)) ∧
    (s.found.hostServed = false → exec (.registerWrite .host page off size value) s = .next (s.ends s.found))

/-- In Safe-stop a write to a page other than FLT, UPD, MBX, SYS and LC completes with an error response and changes nothing but the records
of refused accesses (R92). -/
def Obligations.SafeStopRefusesWrites : Prop :=
  ∀ (s : State) (req : Req) (page off size value : Nat), s.awake → s.settled → s.hub.mode = .safeStop → req ≠ .annex →
    page ≠ pFlt → page ≠ pUpd → page ≠ pMbx → page ≠ pSys → page ≠ pLc →
    ∃ t, exec (.registerWrite req page off size value) s = .next t ∧ ((req = .host → s.found.hostServed = true) → .resp req false ∈ t.hub.out) ∧
      t.hub.keeps s.hub (errorPlaces ++ responsePlaces req ++ endPlaces)

/-- Commands that store one field of one page change that field alone when they are admitted. -/
def Obligations.SingleFieldFrame : Prop :=
  ∀ (s : State) (req : Req) (page value mask now_ qp channel : Nat), s.awake → s.settled → s.found.chMode channel ≠ 3 →
    ∀ e ∈ ([(.xkeyOpen req page, page, 0x008, PG.STAT_XOPEN.on page), (.xkeyClose req page value, page, 0x008, PG.STAT_XOPEN.on page),
        (.pgIrqRawClear req page mask now_, page, 0x010, PG.IRQ_RAW.on page),
        (.txProd req qp value, pHost, 0x11C + 64 * (qp % 8), (HOST.QP_TX_PROD_IDX (qp % 8)).on pHost),
        (.cnt req channel value, pCh channel, 0x058, CH.CNT_COUNT.on (pCh channel))] : List (Instr × Nat × Nat × Key)),
      s.admits req e.2.1 e.2.2.1 →
      ∃ t, exec e.1 s = .next t ∧ .resp req true ∈ t.hub.out ∧ t.hub.keeps s.hub (e.2.2.2 :: endPlaces)

/-- A W1C write to PG_IRQ_RAW leaves set every flag that the hardware sets on the same cycle: those that the command brings with it, and those that
the commands of its edge have set before it (R37). -/
def Obligations.IrqFlagSurvivesItsClearing : Prop :=
  ∀ (s : State) (req : Req) (page mask setNow i : Nat), s.awake → s.settled → s.admits req page 0x010 → i < 32 →
    bitOf (pageFlags page setNow) i = true ∨ bitOf (Map.getD s.found.edge.risen page 0) i = true →
    ∃ t, exec (.pgIrqRawClear req page mask setNow) s = .next t ∧ bitOf (t.hub.get page PG.IRQ_RAW) i = true

/-- If the instant of COMMIT_AT arrives before validation has ended, the commit is refused with code 0x0A02: the attempt ends REFUSED, no
staged and no committed value changes, and a hub in Transparent goes on as after every refused commit (R53). -/
def Obligations.LateCommitIsRefused : Prop :=
  ∀ s : State, s.awake → s.hub.get pSys SYS.COMMIT_STATE_STATE = 1 → s.hub.sys.commitCmd = 3 →
    ∃ g : Hub, exec .commitRefusedLate s = .next (s.ends g.refusedMode) ∧
      g.get pSys SYS.REFUSE_CODE_CODE = 0x0A02 ∧ g.get pSys SYS.COMMIT_STATE_LAST_RESULT = 4 ∧ g.get pSys SYS.COMMIT_STATE_STATE = 0 ∧
      g.staged = s.hub.staged ∧ g.committed = s.hub.committed

/-- Commit commands that start an attempt are refused with code 0x0A04 in Waking, Cellar, Test and Safe-stop, and recorded in SYS.REFUSE_CODE;
no staged and no committed value changes (R50). In Shelf the refusal stands in the operation, but no such write reaches it (R101). -/
def Obligations.NoCommitInTheseModes : Prop :=
  (∀ (s : State) (req : Req), s.awake → s.settled → s.admits req pSys 0x040 → s.hub.commitBusy = false → s.hub.mode ∈ [Mode.waking, .cellar, .test, .safeStop] →
    ∀ c ∈ [Instr.validate req, .commitNow req, .commitAt req, .commitEpoch req],
      ∃ t, exec c s = .next t ∧ t.hub.get pSys SYS.REFUSE_CODE_CODE = 0x0A04 ∧ t.hub.get pSys SYS.COMMIT_STATE_STATE = 0 ∧
        t.hub.staged = s.hub.staged ∧ t.hub.committed = s.hub.committed) ∧
  (∀ (s : State) (req : Req) (cmd : Nat), s.hub.mode = .shelf → s.hub.commitBusy = false →
    (s.hub.commitCommand cmd).get pSys SYS.REFUSE_CODE_CODE = 0x0A04 ∧ (s.hub.commitCommand cmd).staged = s.hub.staged ∧
    (s.hub.commitCommand cmd).committed = s.hub.committed ∧
    ∀ c ∈ [Instr.validate req, .commitNow req, .commitAt req, .commitEpoch req], exec c s = .next { s with hub := s.hub.begin })

/-- A write of 1 to PG_SEAL.DISCARD while a commit runs completes with an error response and changes nothing but BLOCKED, which counts it
(R54), and for a host HOST.WERR (R468). -/
def Obligations.DiscardIsRefusedWhileACommitRuns : Prop :=
  ∀ (s : State) (req : Req) (page : Nat), s.awake → s.settled → s.admits req page 0x024 → s.hub.commitBusy = true →
    ∃ t, exec (.discard req page) s = .next t ∧ .resp req false ∈ t.hub.out ∧
      t.hub.get pSys SYS.COMMIT_STATE_BLOCKED = satAdd SYS.COMMIT_STATE_BLOCKED.w (s.hub.get pSys SYS.COMMIT_STATE_BLOCKED) 1 % 2 ^ SYS.COMMIT_STATE_BLOCKED.w ∧
      t.hub.keeps s.hub (SYS.COMMIT_STATE_BLOCKED.on pSys :: responsePlaces req ++ endPlaces)

/-- A read of TIME.NOW_LO answers the low half of ring time and latches NOW_HI and NOW_SUB from the same value, with NOW_SUB.FB showing the
fall-back path; nothing else changes (R171). -/
def Obligations.NowLatchesOneValue : Prop :=
  ∀ (s : State) (req : Req), s.awake → s.settled → s.admitsRead req pTime 0x048 →
    ∃ t, exec (.nowLo req) s = .next t ∧ .data req (s.hub.now % 2 ^ 32) ∈ t.hub.out ∧
      t.hub.get pTime TIME.NOW_HI_THI = s.hub.now / 2 ^ 32 % 2 ^ 32 ∧ t.hub.get pTime TIME.NOW_SUB_SUB = s.hub.nowSub ∧
      t.hub.get pTime TIME.NOW_SUB_FB = flag (!s.hub.mainInUse) ∧
      t.hub.keeps s.hub ([TIME.NOW_HI_THI.on pTime, TIME.NOW_SUB_FB.on pTime, TIME.NOW_SUB_SUB.on pTime] ++ endPlaces)

/-- A write to TIME.FB_INC outside 1.9 to 2.1 ns completes with an error response and changes nothing but SYS.ACC_ERR (R172), and for a
host HOST.WERR (R468). -/
def Obligations.FbIncOutOfRangeIsRefused : Prop :=
  ∀ (s : State) (req : Req) (value : Nat), s.awake → s.settled → s.admits req pTime 0x064 → 10 * value < 19 * 2 ^ 24 ∨ 21 * 2 ^ 24 < 10 * value →
    ∃ t, exec (.fbInc req value) s = .next t ∧ .resp req false ∈ t.hub.out ∧ t.hub.get pTime TIME.FB_INC_INC = s.hub.get pTime TIME.FB_INC_INC ∧
      t.hub.keeps s.hub ([SYS.ACC_ERR_REQ.on pSys, SYS.ACC_ERR_PAGE.on pSys, SYS.ACC_ERR_OFFSET.on pSys] ++ responsePlaces req ++ endPlaces)

/-- A write to the CNT of a pair that is the encoder of a Track source completes with an error response and changes nothing (R340) but,
for a host, HOST.WERR (R468). -/
def Obligations.SourceCountIsNotWritten : Prop :=
  ∀ (s : State) (req : Req) (channel value : Nat), s.awake → s.settled → s.admits req (pCh channel) 0x058 → s.found.chMode channel = 3 →
    s.found.sourcePair channel = true →
    ∃ t, exec (.cnt req channel value) s = .next t ∧ .resp req false ∈ t.hub.out ∧ t.hub.keeps s.hub (responsePlaces req ++ endPlaces)

/-- A SEND to a mailbox that is FULL fails with cause 2, which MBX.ERR records with its requester and mailbox and ERR_CNT counts; the message
stays as it is (R481); for a host HOST.WERR records the error response too (R468). -/
def Obligations.SendToAFullMailboxFails : Prop :=
  ∀ (s : State) (req : Req) (mailbox len : Nat), s.awake → s.settled → s.admits req pMbx 0x0C0 → mailbox < 16 → s.found.mailboxOn mailbox = true →
    req.code = s.found.mailCfg mailbox (MBX.CFG_WRITER mailbox) → s.found.full mailbox = true →
    ∃ t, exec (.send req mailbox len) s = .next t ∧ .resp req false ∈ t.hub.out ∧ t.hub.get pMbx MBX.ERR_CAUSE = 2 ∧
      t.hub.get pMbx MBX.ERR_MBX = mailbox ∧ t.hub.get pMbx MBX.ERR_REQ = req.code ∧
      t.hub.keeps s.hub ([MBX.ERR_REQ.on pMbx, MBX.ERR_MBX.on pMbx, MBX.ERR_CAUSE.on pMbx, MBX.ERR_CNT_COUNT.on pMbx] ++ responsePlaces req ++ endPlaces)

/-- The bits that a fuse programming operation finds blown stay blown: no fuse bit goes back to 0 (R552). -/
def Obligations.FusesStayBlown : Prop :=
  ∀ (s t : State) (blown k i : Nat), s.settled → exec (.otpProgDone blown) s = .next t → i < 32 → bitOf (s.hub.fuse k) i = true → bitOf (t.hub.fuse k) i = true

/-- HOST_IRQ_N is low in QSPI operation while some vector is pending and not masked, and is released with PCI Express in effect or no host;
a host clears pending vectors by writing 1 to their bits, and clears no others (R471). The two words of VPEND hold 32 bits each. -/
def Obligations.HostInterruptLine : Prop :=
  (∀ h : Hub, h.hostIf ≠ 2 → h.hostIrqLow = false) ∧
  (∀ h : Hub, h.hostIf = 2 → h.get pHost HOST.VPEND_LO_PEND < 2 ^ 32 → h.get pHost HOST.VPEND_HI_PEND < 2 ^ 32 →
    (h.hostIrqLow = true ↔ ∃ v, v < 64 ∧ h.vectorPending v = true ∧
      bitOf (h.get pHost (if v < 32 then HOST.VMASK_LO_MASK else HOST.VMASK_HI_MASK)) (v % 32) = false)) ∧
  (∀ (s : State) (req : Req) (high : Bool) (bits v : Nat), v < 64 → s.awake → s.settled → s.admits req pHost (if high then 0x064 else 0x060) →
    ∃ t, exec (.vpend req high bits) s = .next t ∧
      t.hub.vectorPending v = (s.hub.vectorPending v && !(high == decide (32 ≤ v) && bitOf bits (v % 32))))

/-- An instruction of a Prism engine that computes a result or loads a word changes no register but its destination and INSTR_COUNT, of its
engine only PC, where the manual says so Z, N and C, and the ticks that it takes, and no memory (R407, R408). -/
def Obligations.PrismResultFrame : Prop :=
  ∀ (s t : State) (unit : Nat), s.settled →
    (∀ c ∈ [Instr.add unit, .sub unit, .and unit, .or unit, .xor unit, .shl unit, .shr unit, .sar unit, .addi unit, .mul unit],
      exec c s = .next t →
        t.hub.registersBut s.hub ([(PRS.W_VALUE (dOf (s.found.fetched unit) % 8)).on (pPrs unit), PRS.INSTR_COUNT.on (pPrs unit)] ++ endPlaces) ∧
        { t.hub.rest with prs := [] } = { s.hub.rest with prs := [] } ∧
        (∀ e, e ≠ unit → t.hub.eng e = s.hub.eng e) ∧
        { (t.hub.eng unit).still with z := false, n := false, c := false } = { (s.hub.eng unit).still with z := false, n := false, c := false }) ∧
    (∀ c ∈ [Instr.ldi unit, .lui unit, .mov unit, .ld unit, .djnz unit, .pin unit],
      exec c s = .next t →
        t.hub.registersBut s.hub ([(PRS.W_VALUE (dOf (s.found.fetched unit) % 8)).on (pPrs unit), PRS.INSTR_COUNT.on (pPrs unit)] ++ endPlaces) ∧
        { t.hub.rest with prs := [] } = { s.hub.rest with prs := [] } ∧
        (∀ e, e ≠ unit → t.hub.eng e = s.hub.eng e) ∧
        (t.hub.eng unit).still = (s.hub.eng unit).still) ∧
    (∀ c ∈ [Instr.nop unit, .jmp unit, .jcc unit],
      exec c s = .next t →
        t.hub.registersBut s.hub (PRS.INSTR_COUNT.on (pPrs unit) :: endPlaces) ∧
        { t.hub.rest with prs := [] } = { s.hub.rest with prs := [] } ∧
        (∀ e, e ≠ unit → t.hub.eng e = s.hub.eng e) ∧
        (t.hub.eng unit).still = (s.hub.eng unit).still)

/-- ST stores one word of data memory: every byte of the Prism memories outside the word at the address the instruction computes reads as
before, no register but INSTR_COUNT changes, and of its engine only PC and the ticks that it takes (R407). -/
def Obligations.PrismStoreFrame : Prop :=
  ∀ (s t : State) (unit : Nat), s.settled → exec (.st unit) s = .next t →
    (∀ a, a < 0x10000 * unit + 0x1000 + 4 * s.found.dataAddr unit (s.found.fetched unit) ∨
        0x10000 * unit + 0x1000 + 4 * s.found.dataAddr unit (s.found.fetched unit) + 4 ≤ a →
      Mem.read t.hub.prsMem a = Mem.read s.hub.prsMem a) ∧
    t.hub.registersBut s.hub (PRS.INSTR_COUNT.on (pPrs unit) :: endPlaces) ∧
    { t.hub.rest with prs := [], prsMem := [] } = { s.hub.rest with prs := [], prsMem := [] } ∧
    (∀ e, e ≠ unit → t.hub.eng e = s.hub.eng e) ∧ (t.hub.eng unit).still = (s.hub.eng unit).still

/-- A write to program memory, to a mailbox's data or to the publish buffer changes no byte of that memory outside those it stores to, at the
address it names, and nothing at all of the other two (R234, R396, R480). -/
def Obligations.BufferWriteFrame : Prop :=
  (∀ (s t : State) (req : Req) (unit i value : Nat), s.settled → exec (.programMemoryWrite req unit (some i) value) s = .next t →
    (∀ a, a < 0x10000 * unit + 4 * i ∨ 0x10000 * unit + 4 * i + 4 ≤ a → Mem.read t.hub.prsMem a = Mem.read s.hub.prsMem a) ∧
    t.hub.host = s.hub.host ∧ t.hub.atr = s.hub.atr) ∧
  (∀ (s t : State) (req : Req) (off size value : Nat), s.settled → exec (.mailboxDataWrite req off size value) s = .next t →
    (∀ a, a < off - 0xC00 ∨ off - 0xC00 + size ≤ a → Mem.read t.hub.host.mail a = Mem.read s.hub.host.mail a) ∧
    t.hub.prsMem = s.hub.prsMem ∧ t.hub.atr = s.hub.atr) ∧
  (∀ (s t : State) (req : Req) (offset size value : Nat), s.settled → exec (.publishBufferWrite req offset size value) s = .next t →
    (∀ a, a < offset ∨ offset + size ≤ a → Mem.read t.hub.atr.shadow a = Mem.read s.hub.atr.shadow a) ∧
    t.hub.prsMem = s.hub.prsMem ∧ t.hub.host = s.hub.host)

/-- A soft reset empties the transmit, receive and stamp FIFOs of a serial controller; while it is fenced a push completes with an error
response and changes nothing (for a host, but HOST.WERR), and the oldest received entry can still be popped (R365). -/
def Obligations.SerialFifosAcrossResetAndFence : Prop :=
  (∀ (s : State) (req : Req) (page : Nat), kindOf page ∈ [some Kind.uart, some Kind.spi, some Kind.i2c] → s.awake → s.admits req page 0x008 →
    ∃ g : Hub, exec (.srst req page) s = .next (s.ends g) ∧ (g.ser page).tx = [] ∧ (g.ser page).rx = [] ∧ (g.ser page).stamps = []) ∧
  (∀ (s : State) (req : Req) (page off value : Nat), s.awake → s.settled → s.admits req page off → pushPlace page off = true → s.hub.modeEff ≠ .held →
    s.hub.fenced page = true →
    ∃ t, exec (.txd req page off value) s = .next t ∧ .resp req false ∈ t.hub.out ∧ t.hub.keeps s.hub (responsePlaces req ++ endPlaces)) ∧
  (∀ (s : State) (req : Req) (page off e : Nat) (l : List Nat), s.awake → s.settled → s.admitsRead req page off → popPlace page off = true →
    (s.hub.ser page).rx = e :: l → (s.hub.ser page).i2c.due = [] →
    ∃ t, exec (.rxd req page off) s = .next t ∧ .data req e ∈ t.hub.out ∧ (t.hub.ser page).rx = l)

/-- A commit that a check of its validation refuses, or that is refused because its instant came first, leaves every committed value, the
seal state and the mode as they were; in Transparent the hub then moves to Held (R53, R59). -/
def Obligations.RefusedCommitKeepsTheConfiguration : Prop :=
  ∀ s : State, s.awake → s.hub.get pSys SYS.COMMIT_STATE_STATE = 1 →
    ∀ c : Instr, (c = .validationEnd false ∧
        (s.found.sealCheck (s.found.sealMatches s.found.sealOf)).foldl (fun a x => insertFailure x a) s.found.failing ≠ [] ∨
        c = .commitRefusedLate ∧ s.hub.sys.commitCmd = 3) →
      ∃ g : Hub, exec c s = .next (s.ends (if s.hub.mode = .transparent then g.enterMode .held 0x22 else g)) ∧
        g.get pSys SYS.COMMIT_STATE_LAST_RESULT = 4 ∧ g.get pSys SYS.COMMIT_STATE_STATE = 0 ∧
        g.staged = s.hub.staged ∧ g.committed = s.hub.committed ∧ g.get pSys SYS.SEAL_STATE_STATE = s.hub.get pSys SYS.SEAL_STATE_STATE ∧
        g.mode = s.hub.mode ∧ g.rest = { s.hub.rest with sys := { s.hub.sys with commitCmd := 0, due := [] } }
end

