-- ==== Sys2Proof/Laws/State.lean ====
section
/-!
SUPPORT. Laws of the state: register files, and one lemma for each part of the hub and each of the updates that every command is made of.
-/
namespace Sys2Proof.Machine

/-! ### Order of places -/

theorem Key.lt_iff (a b : Key) :
    a.lt b = true ↔ a.page < b.page ∨ (a.page = b.page ∧ (a.off < b.off ∨ (a.off = b.off ∧ a.lo < b.lo))) := by
  simp [Key.lt]

theorem Key.eq_of_not_lt (a b : Key) (h1 : ¬ a.lt b = true) (h2 : ¬ b.lt a = true) : a = b := by
  rw [Key.lt_iff] at h1 h2
  cases a; cases b
  simp only [Key.mk.injEq]
  simp only at h1 h2
  omega

theorem Key.lt_trans (a b c : Key) (h1 : a.lt b = true) (h2 : b.lt c = true) : a.lt c = true := by
  rw [Key.lt_iff] at *
  omega

theorem Key.lt_irrefl (a : Key) : ¬ a.lt a = true := by
  rw [Key.lt_iff]
  omega

/-! ### Register files -/

theorem RegFile.find_insert_other (r : RegFile) (k j : Key) (v : Nat) (h : k ≠ j) :
    RegFile.find (RegFile.insert r k v) j = RegFile.find r j := by
  induction r with
  | nil => simp [RegFile.insert, RegFile.find, h]
  | cons e r ih =>
    by_cases hl : k.lt e.1 = true <;> simp [RegFile.insert, RegFile.find, hl, h, ih]

theorem RegFile.find_erase_other (r : RegFile) (k j : Key) (h : k ≠ j) : RegFile.find (RegFile.erase r k) j = RegFile.find r j := by
  induction r with
  | nil => rfl
  | cons e r ih =>
    simp only [RegFile.erase, ne_eq, decide_not] at ih
    by_cases he : e.1 = k
    · have hj : ¬ e.1 = j := fun x => h (he ▸ x)
      simp [RegFile.erase, RegFile.find, he, h, ih]
    · simp [RegFile.erase, RegFile.find, he, ih]

theorem RegFile.find_erase_same (r : RegFile) (k : Key) : RegFile.find (RegFile.erase r k) k = none := by
  induction r with
  | nil => rfl
  | cons e r ih =>
    simp only [RegFile.erase, ne_eq, decide_not] at ih
    by_cases he : e.1 = k <;> simp [RegFile.erase, RegFile.find, he, ih]

theorem RegFile.find_insert_same (r : RegFile) (k : Key) (v : Nat) (h : RegFile.find r k = none) :
    RegFile.find (RegFile.insert r k v) k = some v := by
  induction r with
  | nil => simp [RegFile.insert, RegFile.find]
  | cons e r ih =>
    by_cases he : e.1 = k
    · simp [RegFile.find, he] at h
    · simp only [RegFile.find, he, if_false] at h
      by_cases hl : k.lt e.1 = true <;> simp [RegFile.insert, RegFile.find, hl, he, ih h]

/-- A place that is set reads as the value set. -/
theorem RegFile.find_set_same (r : RegFile) (k : Key) (rst v : Nat) : (RegFile.find (RegFile.set r k rst v) k).getD rst = v := by
  unfold RegFile.set
  split
  · simp [RegFile.find_erase_same, *]
  · simp [RegFile.find_insert_same _ _ _ (RegFile.find_erase_same r k)]

/-- Setting a place leaves every other place as it was. -/
theorem RegFile.find_set_other (r : RegFile) (k j : Key) (rst v : Nat) (h : k ≠ j) :
    RegFile.find (RegFile.set r k rst v) j = RegFile.find r j := by
  unfold RegFile.set
  split
  · exact RegFile.find_erase_other r k j h
  · rw [RegFile.find_insert_other _ _ _ _ h, RegFile.find_erase_other _ _ _ h]

theorem RegFile.sorted_iff (r : RegFile) : RegFile.sorted r = true ↔ r.Pairwise (fun a b => a.1.lt b.1 = true) := by
  induction r with
  | nil => simp [RegFile.sorted]
  | cons a r ih =>
    cases r with
    | nil => simp [RegFile.sorted]
    | cons b r =>
      simp only [RegFile.sorted, Bool.and_eq_true, ih]
      constructor
      · rintro ⟨hab, hr⟩
        refine List.pairwise_cons.2 ⟨?_, hr⟩
        intro x hx
        rcases List.mem_cons.1 hx with rfl | hx
        · exact hab
        · exact Key.lt_trans _ _ _ hab ((List.pairwise_cons.1 hr).1 x hx)
      · intro h
        exact ⟨(List.pairwise_cons.1 h).1 b (by simp), (List.pairwise_cons.1 h).2⟩

/-- Leaving places out keeps a register file in its canonical order. -/
theorem RegFile.sorted_filter (r : RegFile) (q : Key × Nat → Bool) (h : RegFile.sorted r = true) : RegFile.sorted (r.filter q) = true := by
  rw [RegFile.sorted_iff] at *
  exact h.filter q

theorem RegFile.mem_insert (r : RegFile) (k : Key) (v : Nat) (x : Key × Nat) (h : x ∈ RegFile.insert r k v) : x = (k, v) ∨ x ∈ r := by
  induction r with
  | nil => simpa [RegFile.insert] using h
  | cons e r ih =>
    by_cases hl : k.lt e.1 = true
    · simpa [RegFile.insert, hl] using h
    · simp only [RegFile.insert, hl, Bool.false_eq_true, if_false, List.mem_cons] at h
      rcases h with h | h
      · exact .inr (by simp [h])
      · rcases ih h with h | h
        · exact .inl h
        · exact .inr (by simp [h])

theorem RegFile.sorted_insert (r : RegFile) (k : Key) (v : Nat) (h : RegFile.sorted r = true) (hk : ∀ x ∈ r, x.1 ≠ k) :
    RegFile.sorted (RegFile.insert r k v) = true := by
  rw [RegFile.sorted_iff] at *
  induction r with
  | nil => simp [RegFile.insert]
  | cons e r ih =>
    have hr := List.pairwise_cons.1 h
    by_cases hl : k.lt e.1 = true
    · simp only [RegFile.insert, hl, if_true]
      refine List.pairwise_cons.2 ⟨?_, h⟩
      intro x hx
      rcases List.mem_cons.1 hx with rfl | hx
      · exact hl
      · exact Key.lt_trans _ _ _ hl (hr.1 x hx)
    · simp only [RegFile.insert, hl, Bool.false_eq_true, if_false]
      refine List.pairwise_cons.2 ⟨?_, ih hr.2 (fun x hx => hk x (by simp [hx]))⟩
      intro x hx
      rcases RegFile.mem_insert _ _ _ _ hx with rfl | hx
      · by_cases he : e.1.lt k = true
        · exact he
        · exact absurd (Key.eq_of_not_lt _ _ he hl) (hk e (by simp))
      · exact hr.1 x hx

/-- Setting a place keeps a register file in its canonical order. -/
theorem RegFile.sorted_set (r : RegFile) (k : Key) (rst v : Nat) (h : RegFile.sorted r = true) :
    RegFile.sorted (RegFile.set r k rst v) = true := by
  unfold RegFile.set
  split
  · exact RegFile.sorted_filter r _ h
  · refine RegFile.sorted_insert _ _ _ (RegFile.sorted_filter r _ h) ?_
    intro x hx
    have hx' := List.mem_filter.1 hx
    simpa using hx'.2

/-! ### One field -/

/-- A field that is set reads as the value set, cut to its width. -/
theorem Hub.get_put_same (h : Hub) (p : Nat) (f : Fld) (v : Nat) : (h.put p f v).get p f = v % 2 ^ f.w := by
  unfold Hub.get Hub.put
  by_cases hs : f.acc = .stg <;> simp [hs, RegFile.find_set_same]

/-- Setting a field leaves every field at another place as it was. -/
theorem Hub.get_put_other (h : Hub) (p q : Nat) (f g : Fld) (v : Nat) (hk : (⟨p, f.off, f.lo⟩ : Key) ≠ ⟨q, g.off, g.lo⟩) :
    (h.put p f v).get q g = h.get q g := by
  unfold Hub.get Hub.put
  by_cases hf : f.acc = .stg <;> by_cases hg : g.acc = .stg <;> simp [hf, hg, RegFile.find_set_other _ _ _ _ _ hk]

/-- Setting a present or staged value leaves every committed value as it was. -/
@[simp] theorem Hub.cfg_put (h : Hub) (p q : Nat) (f g : Fld) (v : Nat) : (h.put p f v).cfg q g = h.cfg q g := rfl

@[simp] theorem Hub.cfgOn_put (h : Hub) (p q : Nat) (f g : Fld) (v : Nat) : (h.put p f v).cfgOn q g = h.cfgOn q g := rfl

/-- Setting a committed value leaves every present and staged value as it was. -/
@[simp] theorem Hub.get_putCfg (h : Hub) (p q : Nat) (f g : Fld) (v : Nat) : (h.putCfg p f v).get q g = h.get q g := rfl

/-- A committed value that is set is in effect, cut to its width. -/
theorem Hub.cfg_putCfg_same (h : Hub) (p : Nat) (f : Fld) (v : Nat) : (h.putCfg p f v).cfg p f = v % 2 ^ f.w := by
  unfold Hub.cfg Hub.putCfg
  simp [RegFile.find_set_same]

@[simp] theorem Hub.get_emit (h : Hub) (o : Out) (p : Nat) (f : Fld) : (h.emit o).get p f = h.get p f := rfl
@[simp] theorem Hub.cfg_emit (h : Hub) (o : Out) (p : Nat) (f : Fld) : (h.emit o).cfg p f = h.cfg p f := rfl
@[simp] theorem Hub.get_emits (h : Hub) (o : List Out) (p : Nat) (f : Fld) : (h.emits o).get p f = h.get p f := rfl
@[simp] theorem Hub.get_begin (h : Hub) (p : Nat) (f : Fld) : h.begin.get p f = h.get p f := rfl
@[simp] theorem Hub.cfg_begin (h : Hub) (p : Nat) (f : Fld) : h.begin.cfg p f = h.cfg p f := rfl
@[simp] theorem Hub.emit_out (h : Hub) (o : Out) : (h.emit o).out = h.out ++ [o] := rfl
@[simp] theorem Hub.put_out (h : Hub) (p : Nat) (f : Fld) (v : Nat) : (h.put p f v).out = h.out := rfl
@[simp] theorem Hub.begin_out (h : Hub) : h.begin.out = [] := rfl

/-! ### The other parts of the hub -/

@[simp] theorem Hub.put_free (h : Hub) (p : Nat) (f : Fld) (v : Nat) : (h.put p f v).free = h.free := rfl
@[simp] theorem Hub.putCfg_free (h : Hub) (p : Nat) (f : Fld) (v : Nat) : (h.putCfg p f v).free = h.free := rfl
@[simp] theorem Hub.emit_free (h : Hub) (o : Out) : (h.emit o).free = h.free := rfl
@[simp] theorem Hub.begin_free (h : Hub) : h.begin.free = h.free := rfl
@[simp] theorem Hub.put_prior (h : Hub) (p : Nat) (f : Fld) (v : Nat) : (h.put p f v).prior = h.prior := rfl
@[simp] theorem Hub.putCfg_prior (h : Hub) (p : Nat) (f : Fld) (v : Nat) : (h.putCfg p f v).prior = h.prior := rfl
@[simp] theorem Hub.emit_prior (h : Hub) (o : Out) : (h.emit o).prior = h.prior := rfl
@[simp] theorem Hub.begin_prior (h : Hub) : h.begin.prior = h.prior := rfl
@[simp] theorem Hub.put_sys (h : Hub) (p : Nat) (f : Fld) (v : Nat) : (h.put p f v).sys = h.sys := rfl
@[simp] theorem Hub.putCfg_sys (h : Hub) (p : Nat) (f : Fld) (v : Nat) : (h.putCfg p f v).sys = h.sys := rfl
@[simp] theorem Hub.emit_sys (h : Hub) (o : Out) : (h.emit o).sys = h.sys := rfl
@[simp] theorem Hub.begin_sys (h : Hub) : h.begin.sys = { h.sys with due := [] } := rfl
@[simp] theorem Hub.put_flt (h : Hub) (p : Nat) (f : Fld) (v : Nat) : (h.put p f v).flt = h.flt := rfl
@[simp] theorem Hub.putCfg_flt (h : Hub) (p : Nat) (f : Fld) (v : Nat) : (h.putCfg p f v).flt = h.flt := rfl
@[simp] theorem Hub.emit_flt (h : Hub) (o : Out) : (h.emit o).flt = h.flt := rfl
@[simp] theorem Hub.begin_flt (h : Hub) : h.begin.flt = h.flt := rfl
@[simp] theorem Hub.put_ports (h : Hub) (p : Nat) (f : Fld) (v : Nat) : (h.put p f v).ports = h.ports := rfl
@[simp] theorem Hub.putCfg_ports (h : Hub) (p : Nat) (f : Fld) (v : Nat) : (h.putCfg p f v).ports = h.ports := rfl
@[simp] theorem Hub.emit_ports (h : Hub) (o : Out) : (h.emit o).ports = h.ports := rfl
@[simp] theorem Hub.begin_ports (h : Hub) : h.begin.ports = h.ports := rfl
@[simp] theorem Hub.put_topo (h : Hub) (p : Nat) (f : Fld) (v : Nat) : (h.put p f v).topo = h.topo := rfl
@[simp] theorem Hub.putCfg_topo (h : Hub) (p : Nat) (f : Fld) (v : Nat) : (h.putCfg p f v).topo = h.topo := rfl
@[simp] theorem Hub.emit_topo (h : Hub) (o : Out) : (h.emit o).topo = h.topo := rfl
@[simp] theorem Hub.begin_topo (h : Hub) : h.begin.topo = h.topo := rfl
@[simp] theorem Hub.put_fuses (h : Hub) (p : Nat) (f : Fld) (v : Nat) : (h.put p f v).fuses = h.fuses := rfl
@[simp] theorem Hub.putCfg_fuses (h : Hub) (p : Nat) (f : Fld) (v : Nat) : (h.putCfg p f v).fuses = h.fuses := rfl
@[simp] theorem Hub.emit_fuses (h : Hub) (o : Out) : (h.emit o).fuses = h.fuses := rfl
@[simp] theorem Hub.begin_fuses (h : Hub) : h.begin.fuses = h.fuses := rfl
@[simp] theorem Hub.put_time (h : Hub) (p : Nat) (f : Fld) (v : Nat) : (h.put p f v).time = h.time := rfl
@[simp] theorem Hub.putCfg_time (h : Hub) (p : Nat) (f : Fld) (v : Nat) : (h.putCfg p f v).time = h.time := rfl
@[simp] theorem Hub.emit_time (h : Hub) (o : Out) : (h.emit o).time = h.time := rfl
@[simp] theorem Hub.begin_time (h : Hub) : h.begin.time = h.time := rfl
@[simp] theorem Hub.put_tracks (h : Hub) (p : Nat) (f : Fld) (v : Nat) : (h.put p f v).tracks = h.tracks := rfl
@[simp] theorem Hub.putCfg_tracks (h : Hub) (p : Nat) (f : Fld) (v : Nat) : (h.putCfg p f v).tracks = h.tracks := rfl
@[simp] theorem Hub.emit_tracks (h : Hub) (o : Out) : (h.emit o).tracks = h.tracks := rfl
@[simp] theorem Hub.begin_tracks (h : Hub) : h.begin.tracks = h.tracks := rfl
@[simp] theorem Hub.put_chans (h : Hub) (p : Nat) (f : Fld) (v : Nat) : (h.put p f v).chans = h.chans := rfl
@[simp] theorem Hub.putCfg_chans (h : Hub) (p : Nat) (f : Fld) (v : Nat) : (h.putCfg p f v).chans = h.chans := rfl
@[simp] theorem Hub.emit_chans (h : Hub) (o : Out) : (h.emit o).chans = h.chans := rfl
@[simp] theorem Hub.begin_chans (h : Hub) : h.begin.chans = h.chans := rfl
@[simp] theorem Hub.put_slots (h : Hub) (p : Nat) (f : Fld) (v : Nat) : (h.put p f v).slots = h.slots := rfl
@[simp] theorem Hub.putCfg_slots (h : Hub) (p : Nat) (f : Fld) (v : Nat) : (h.putCfg p f v).slots = h.slots := rfl
@[simp] theorem Hub.emit_slots (h : Hub) (o : Out) : (h.emit o).slots = h.slots := rfl
@[simp] theorem Hub.begin_slots (h : Hub) : h.begin.slots = h.slots := rfl
@[simp] theorem Hub.put_slotFlags (h : Hub) (p : Nat) (f : Fld) (v : Nat) : (h.put p f v).slotFlags = h.slotFlags := rfl
@[simp] theorem Hub.putCfg_slotFlags (h : Hub) (p : Nat) (f : Fld) (v : Nat) : (h.putCfg p f v).slotFlags = h.slotFlags := rfl
@[simp] theorem Hub.emit_slotFlags (h : Hub) (o : Out) : (h.emit o).slotFlags = h.slotFlags := rfl
@[simp] theorem Hub.begin_slotFlags (h : Hub) : h.begin.slotFlags = h.slotFlags := rfl
@[simp] theorem Hub.put_atr (h : Hub) (p : Nat) (f : Fld) (v : Nat) : (h.put p f v).atr = h.atr := rfl
@[simp] theorem Hub.putCfg_atr (h : Hub) (p : Nat) (f : Fld) (v : Nat) : (h.putCfg p f v).atr = h.atr := rfl
@[simp] theorem Hub.emit_atr (h : Hub) (o : Out) : (h.emit o).atr = h.atr := rfl
@[simp] theorem Hub.begin_atr (h : Hub) : h.begin.atr = h.atr := rfl
@[simp] theorem Hub.put_brg (h : Hub) (p : Nat) (f : Fld) (v : Nat) : (h.put p f v).brg = h.brg := rfl
@[simp] theorem Hub.putCfg_brg (h : Hub) (p : Nat) (f : Fld) (v : Nat) : (h.putCfg p f v).brg = h.brg := rfl
@[simp] theorem Hub.emit_brg (h : Hub) (o : Out) : (h.emit o).brg = h.brg := rfl
@[simp] theorem Hub.begin_brg (h : Hub) : h.begin.brg = h.brg := rfl
@[simp] theorem Hub.put_sw (h : Hub) (p : Nat) (f : Fld) (v : Nat) : (h.put p f v).sw = h.sw := rfl
@[simp] theorem Hub.putCfg_sw (h : Hub) (p : Nat) (f : Fld) (v : Nat) : (h.putCfg p f v).sw = h.sw := rfl
@[simp] theorem Hub.emit_sw (h : Hub) (o : Out) : (h.emit o).sw = h.sw := rfl
@[simp] theorem Hub.begin_sw (h : Hub) : h.begin.sw = h.sw := rfl
@[simp] theorem Hub.put_dram (h : Hub) (p : Nat) (f : Fld) (v : Nat) : (h.put p f v).dram = h.dram := rfl
@[simp] theorem Hub.putCfg_dram (h : Hub) (p : Nat) (f : Fld) (v : Nat) : (h.putCfg p f v).dram = h.dram := rfl
@[simp] theorem Hub.emit_dram (h : Hub) (o : Out) : (h.emit o).dram = h.dram := rfl
@[simp] theorem Hub.begin_dram (h : Hub) : h.begin.dram = h.dram := rfl
@[simp] theorem Hub.put_sers (h : Hub) (p : Nat) (f : Fld) (v : Nat) : (h.put p f v).sers = h.sers := rfl
@[simp] theorem Hub.putCfg_sers (h : Hub) (p : Nat) (f : Fld) (v : Nat) : (h.putCfg p f v).sers = h.sers := rfl
@[simp] theorem Hub.emit_sers (h : Hub) (o : Out) : (h.emit o).sers = h.sers := rfl
@[simp] theorem Hub.begin_sers (h : Hub) : h.begin.sers = h.sers := rfl
@[simp] theorem Hub.put_prs (h : Hub) (p : Nat) (f : Fld) (v : Nat) : (h.put p f v).prs = h.prs := rfl
@[simp] theorem Hub.putCfg_prs (h : Hub) (p : Nat) (f : Fld) (v : Nat) : (h.putCfg p f v).prs = h.prs := rfl
@[simp] theorem Hub.emit_prs (h : Hub) (o : Out) : (h.emit o).prs = h.prs := rfl
@[simp] theorem Hub.begin_prs (h : Hub) : h.begin.prs = h.prs := rfl
@[simp] theorem Hub.put_prsMem (h : Hub) (p : Nat) (f : Fld) (v : Nat) : (h.put p f v).prsMem = h.prsMem := rfl
@[simp] theorem Hub.putCfg_prsMem (h : Hub) (p : Nat) (f : Fld) (v : Nat) : (h.putCfg p f v).prsMem = h.prsMem := rfl
@[simp] theorem Hub.emit_prsMem (h : Hub) (o : Out) : (h.emit o).prsMem = h.prsMem := rfl
@[simp] theorem Hub.begin_prsMem (h : Hub) : h.begin.prsMem = h.prsMem := rfl
@[simp] theorem Hub.put_cans (h : Hub) (p : Nat) (f : Fld) (v : Nat) : (h.put p f v).cans = h.cans := rfl
@[simp] theorem Hub.putCfg_cans (h : Hub) (p : Nat) (f : Fld) (v : Nat) : (h.putCfg p f v).cans = h.cans := rfl
@[simp] theorem Hub.emit_cans (h : Hub) (o : Out) : (h.emit o).cans = h.cans := rfl
@[simp] theorem Hub.begin_cans (h : Hub) : h.begin.cans = h.cans := rfl
@[simp] theorem Hub.put_ether (h : Hub) (p : Nat) (f : Fld) (v : Nat) : (h.put p f v).ether = h.ether := rfl
@[simp] theorem Hub.putCfg_ether (h : Hub) (p : Nat) (f : Fld) (v : Nat) : (h.putCfg p f v).ether = h.ether := rfl
@[simp] theorem Hub.emit_ether (h : Hub) (o : Out) : (h.emit o).ether = h.ether := rfl
@[simp] theorem Hub.begin_ether (h : Hub) : h.begin.ether = h.ether := rfl
@[simp] theorem Hub.put_host (h : Hub) (p : Nat) (f : Fld) (v : Nat) : (h.put p f v).host = h.host := rfl
@[simp] theorem Hub.putCfg_host (h : Hub) (p : Nat) (f : Fld) (v : Nat) : (h.putCfg p f v).host = h.host := rfl
@[simp] theorem Hub.emit_host (h : Hub) (o : Out) : (h.emit o).host = h.host := rfl
@[simp] theorem Hub.begin_host (h : Hub) : h.begin.host = h.host := rfl
@[simp] theorem Hub.put_zones (h : Hub) (p : Nat) (f : Fld) (v : Nat) : (h.put p f v).zones = h.zones := rfl
@[simp] theorem Hub.putCfg_zones (h : Hub) (p : Nat) (f : Fld) (v : Nat) : (h.putCfg p f v).zones = h.zones := rfl
@[simp] theorem Hub.emit_zones (h : Hub) (o : Out) : (h.emit o).zones = h.zones := rfl
@[simp] theorem Hub.begin_zones (h : Hub) : h.begin.zones = h.zones := rfl
@[simp] theorem Hub.put_therm (h : Hub) (p : Nat) (f : Fld) (v : Nat) : (h.put p f v).therm = h.therm := rfl
@[simp] theorem Hub.putCfg_therm (h : Hub) (p : Nat) (f : Fld) (v : Nat) : (h.putCfg p f v).therm = h.therm := rfl
@[simp] theorem Hub.emit_therm (h : Hub) (o : Out) : (h.emit o).therm = h.therm := rfl
@[simp] theorem Hub.begin_therm (h : Hub) : h.begin.therm = h.therm := rfl
@[simp] theorem Hub.put_stw (h : Hub) (p : Nat) (f : Fld) (v : Nat) : (h.put p f v).stw = h.stw := rfl
@[simp] theorem Hub.putCfg_stw (h : Hub) (p : Nat) (f : Fld) (v : Nat) : (h.putCfg p f v).stw = h.stw := rfl
@[simp] theorem Hub.emit_stw (h : Hub) (o : Out) : (h.emit o).stw = h.stw := rfl
@[simp] theorem Hub.begin_stw (h : Hub) : h.begin.stw = h.stw := rfl
@[simp] theorem Hub.put_upd (h : Hub) (p : Nat) (f : Fld) (v : Nat) : (h.put p f v).upd = h.upd := rfl
@[simp] theorem Hub.putCfg_upd (h : Hub) (p : Nat) (f : Fld) (v : Nat) : (h.putCfg p f v).upd = h.upd := rfl
@[simp] theorem Hub.emit_upd (h : Hub) (o : Out) : (h.emit o).upd = h.upd := rfl
@[simp] theorem Hub.begin_upd (h : Hub) : h.begin.upd = h.upd := rfl
@[simp] theorem Hub.put_flash (h : Hub) (p : Nat) (f : Fld) (v : Nat) : (h.put p f v).flash = h.flash := rfl
@[simp] theorem Hub.putCfg_flash (h : Hub) (p : Nat) (f : Fld) (v : Nat) : (h.putCfg p f v).flash = h.flash := rfl
@[simp] theorem Hub.emit_flash (h : Hub) (o : Out) : (h.emit o).flash = h.flash := rfl
@[simp] theorem Hub.begin_flash (h : Hub) : h.begin.flash = h.flash := rfl
@[simp] theorem Hub.put_flashLog2 (h : Hub) (p : Nat) (f : Fld) (v : Nat) : (h.put p f v).flashLog2 = h.flashLog2 := rfl
@[simp] theorem Hub.putCfg_flashLog2 (h : Hub) (p : Nat) (f : Fld) (v : Nat) : (h.putCfg p f v).flashLog2 = h.flashLog2 := rfl
@[simp] theorem Hub.emit_flashLog2 (h : Hub) (o : Out) : (h.emit o).flashLog2 = h.flashLog2 := rfl
@[simp] theorem Hub.begin_flashLog2 (h : Hub) : h.begin.flashLog2 = h.flashLog2 := rfl
@[simp] theorem Hub.put_bist (h : Hub) (p : Nat) (f : Fld) (v : Nat) : (h.put p f v).bist = h.bist := rfl
@[simp] theorem Hub.putCfg_bist (h : Hub) (p : Nat) (f : Fld) (v : Nat) : (h.putCfg p f v).bist = h.bist := rfl
@[simp] theorem Hub.emit_bist (h : Hub) (o : Out) : (h.emit o).bist = h.bist := rfl
@[simp] theorem Hub.begin_bist (h : Hub) : h.begin.bist = h.bist := rfl

@[simp] theorem Hub.put_edge (h : Hub) (p : Nat) (f : Fld) (v : Nat) : (h.put p f v).edge = h.edge := rfl
@[simp] theorem Hub.putCfg_edge (h : Hub) (p : Nat) (f : Fld) (v : Nat) : (h.putCfg p f v).edge = h.edge := rfl
@[simp] theorem Hub.emit_edge (h : Hub) (o : Out) : (h.emit o).edge = h.edge := rfl
@[simp] theorem Hub.put_clock (h : Hub) (p : Nat) (f : Fld) (v : Nat) : (h.put p f v).clock = h.clock := rfl
@[simp] theorem Hub.putCfg_clock (h : Hub) (p : Nat) (f : Fld) (v : Nat) : (h.putCfg p f v).clock = h.clock := rfl
@[simp] theorem Hub.emit_clock (h : Hub) (o : Out) : (h.emit o).clock = h.clock := rfl
@[simp] theorem Hub.put_passes (h : Hub) (p : Nat) (f : Fld) (v : Nat) : (h.put p f v).passes = h.passes := rfl
@[simp] theorem Hub.putCfg_passes (h : Hub) (p : Nat) (f : Fld) (v : Nat) : (h.putCfg p f v).passes = h.passes := rfl
@[simp] theorem Hub.emit_passes (h : Hub) (o : Out) : (h.emit o).passes = h.passes := rfl
@[simp] theorem Hub.begin_edge (h : Hub) : h.begin.edge = h.edge.next := rfl
@[simp] theorem Hub.begin_clock (h : Hub) : h.begin.clock = h.clock := rfl
@[simp] theorem Hub.begin_passes (h : Hub) : h.begin.passes = h.passes := rfl

/-! ### Flags noted as risen on this edge (R37) -/

/-- Noting a flag as risen changes the bookkeeping of the edge at most. -/
theorem Hub.noteRisen_eq (h : Hub) (place bit : Nat) : ∃ e, h.noteRisen place bit = { h with edge := e } ∧ e.more = h.edge.more ∧
    e.want = h.edge.want ∧ e.groups = h.edge.groups := by
  unfold Hub.noteRisen
  split
  · exact ⟨_, rfl, rfl, rfl, rfl⟩
  · exact ⟨h.edge, rfl, rfl, rfl, rfl⟩

@[simp] theorem Hub.get_noteRisen (h : Hub) (place bit p : Nat) (f : Fld) : (h.noteRisen place bit).get p f = h.get p f := by
  obtain ⟨e, he, -⟩ := h.noteRisen_eq place bit
  rw [he]; rfl

@[simp] theorem Hub.cfg_noteRisen (h : Hub) (place bit p : Nat) (f : Fld) : (h.noteRisen place bit).cfg p f = h.cfg p f := by
  obtain ⟨e, he, -⟩ := h.noteRisen_eq place bit
  rw [he]; rfl

@[simp] theorem Hub.noteRisen_out (h : Hub) (place bit : Nat) : (h.noteRisen place bit).out = h.out := by
  obtain ⟨e, he, -⟩ := h.noteRisen_eq place bit
  rw [he]

@[simp] theorem Hub.noteRisen_sys (h : Hub) (place bit : Nat) : (h.noteRisen place bit).sys = h.sys := by
  obtain ⟨e, he, -⟩ := h.noteRisen_eq place bit
  rw [he]

@[simp] theorem Hub.noteRisen_more (h : Hub) (place bit : Nat) : (h.noteRisen place bit).edge.more = h.edge.more := by
  obtain ⟨e, he, hm, -⟩ := h.noteRisen_eq place bit
  rw [he]; exact hm

@[simp] theorem Hub.noteRisen_want (h : Hub) (place bit : Nat) : (h.noteRisen place bit).edge.want = h.edge.want := by
  obtain ⟨e, he, -, hw, -⟩ := h.noteRisen_eq place bit
  rw [he]; exact hw

@[simp] theorem Hub.irq_out (h : Hub) (p bit : Nat) : (h.irq p bit).out = h.out := by simp [Hub.irq]

@[simp] theorem Hub.irq_sys (h : Hub) (p bit : Nat) : (h.irq p bit).sys = h.sys := by simp [Hub.irq]

/-- A completion without an error reaches its requester, whoever that is. -/
@[simp] theorem Hub.hear_ok (h : Hub) (req : Req) (addr : Nat) : h.hear req addr 0 = h.emit (.resp req true) := by
  simp [Hub.hear]

/-! ### The canonical order of the register files -/

theorem Hub.sorted_put (h : Hub) (p : Nat) (f : Fld) (v : Nat) (h1 : RegFile.sorted h.live = true) (h2 : RegFile.sorted h.staged = true) :
    RegFile.sorted (h.put p f v).live = true ∧ RegFile.sorted (h.put p f v).staged = true := by
  unfold Hub.put
  by_cases hs : f.acc = .stg <;> simp [hs, h1, h2, RegFile.sorted_set]

theorem Hub.sorted_putCfg (h : Hub) (p : Nat) (f : Fld) (v : Nat) (h1 : RegFile.sorted h.committed = true) :
    RegFile.sorted (h.putCfg p f v).committed = true := RegFile.sorted_set _ _ _ _ h1

end Sys2Proof.Machine
end

