-- ==== Sys2Proof/Laws/Finish.lean ====
section
/-!
SUPPORT. Laws of the end of a command: everything that it can change by itself.
-/
namespace Sys2Proof.Machine

open Reg

theorem Hub.registersBut_refl (h : Hub) (l : List Key) : h.registersBut h l := ⟨rfl, rfl, fun _ _ => rfl⟩

theorem Hub.registersBut_trans (a b c : Hub) (l : List Key) (h1 : a.registersBut b l) (h2 : b.registersBut c l) : a.registersBut c l :=
  ⟨h1.1.trans h2.1, h1.2.1.trans h2.2.1, fun k hk => (h1.2.2 k hk).trans (h2.2.2 k hk)⟩

theorem Hub.registersBut_mono (a b : Hub) (l m : List Key) (h : a.registersBut b l) (hs : ∀ k ∈ l, k ∈ m) : a.registersBut b m :=
  ⟨h.1, h.2.1, fun k hk => h.2.2 k (fun x => hk (hs k x))⟩

/-- A field that is no staged one is put: only its place changes. -/
theorem Hub.registersBut_put (h : Hub) (p : Nat) (f : Fld) (v : Nat) (l : List Key) (hs : f.acc ≠ .stg) (hl : f.on p ∈ l) :
    (h.put p f v).registersBut h l := by
  refine ⟨by simp [Hub.put, hs], rfl, fun k hk => ?_⟩
  have hne : (⟨p, f.off, f.lo⟩ : Key) ≠ k := fun x => hk (x ▸ hl)
  simp [Hub.put, hs, RegFile.find_set_other _ _ _ _ _ hne]

@[simp] theorem Hub.rest_put (h : Hub) (p : Nat) (f : Fld) (v : Nat) : (h.put p f v).rest = h.rest := rfl
@[simp] theorem Hub.rest_emit (h : Hub) (o : Out) : (h.emit o).rest = h.rest := rfl
@[simp] theorem Hub.rest_begin (h : Hub) : h.begin.rest = h.rest := rfl

theorem Hub.keeps_refl (h : Hub) (l : List Key) : h.keeps h l := ⟨h.registersBut_refl l, rfl⟩

theorem Hub.keeps_trans (a b c : Hub) (l : List Key) (h1 : a.keeps b l) (h2 : b.keeps c l) : a.keeps c l :=
  ⟨Hub.registersBut_trans _ _ _ _ h1.1 h2.1, h1.2.trans h2.2⟩

theorem Hub.keeps_put (h : Hub) (p : Nat) (f : Fld) (v : Nat) (l : List Key) (hs : f.acc ≠ .stg) (hl : f.on p ∈ l) :
    (h.put p f v).keeps h l := ⟨Hub.registersBut_put h p f v l hs hl, rfl⟩

theorem Hub.keeps_emit (h : Hub) (o : Out) (l : List Key) : (h.emit o).keeps h l := ⟨⟨rfl, rfl, fun _ _ => rfl⟩, rfl⟩

theorem Hub.keeps_foldl {α : Type} (xs : List α) (f : Hub → α → Hub) (h : Hub) (l : List Key) (hf : ∀ g, ∀ x ∈ xs, (f g x).keeps g l) :
    (xs.foldl f h).keeps h l := by
  induction xs generalizing h with
  | nil => exact h.keeps_refl l
  | cons x xs ih =>
    exact Hub.keeps_trans _ _ _ _ (ih _ (fun g y hy => hf g y (by simp [hy]))) (hf h x (by simp))

theorem Hub.keeps_noteRisen (h : Hub) (place bit : Nat) (l : List Key) : (h.noteRisen place bit).keeps h l := by
  obtain ⟨e, he, -⟩ := h.noteRisen_eq place bit
  rw [he]
  exact ⟨⟨rfl, rfl, fun _ _ => rfl⟩, rfl⟩

/-- An interrupt flag set changes PG_IRQ_RAW of its page at most. -/
theorem Hub.keeps_irq (h : Hub) (p bit : Nat) (l : List Key) (hl : PG.IRQ_RAW.on p ∈ l) : (h.irq p bit).keeps h l :=
  Hub.keeps_trans _ _ _ _ (Hub.keeps_noteRisen _ _ _ _) (h.keeps_put _ _ _ _ (by decide) hl)

/-- A vector signalled changes VPEND at most. -/
theorem Hub.keeps_signal (h : Hub) (v : Nat) : (h.signal v).keeps h endPlaces := by
  unfold Hub.signal
  split
  · exact h.keeps_emit _ _
  · split
    · exact h.keeps_refl _
    · unfold Hub.setPending
      split
      · exact h.keeps_put _ _ _ _ (by decide) (by decide)
      · exact h.keeps_put _ _ _ _ (by decide) (by decide)

/-- Interrupt lines that rise change interrupt flags and vectors at most. -/
theorem Hub.keeps_edges (h old : Hub) : (h.edges old).keeps h endPlaces := by
  unfold Hub.edges
  have key : ((List.range 4).foldl (fun g s =>
      if old.doorbells s = 0 ∧ g.doorbells s ≠ 0 then
        (let g := g.irq pMbx s
         if s = 0 then g.signal (g.cfg pHost HOST.VEC_DB) else g)
      else g) h).keeps h endPlaces := by
    refine Hub.keeps_foldl _ _ _ _ (fun g s _ => ?_)
    dsimp only
    have hi : (g.irq pMbx s).keeps g endPlaces := g.keeps_irq _ _ _ (by decide)
    split
    · split
      · exact Hub.keeps_trans _ _ _ _ (Hub.keeps_signal _ _) hi
      · exact hi
    · exact g.keeps_refl _
  dsimp only
  split
  · exact Hub.keeps_trans _ _ _ _ (Hub.keeps_signal _ _) key
  · exact key

/-- Mailboxes whose readers have come change their WAITING at most. -/
theorem Hub.keeps_noteReaders (h : Hub) : h.noteReaders.keeps h endPlaces := by
  unfold Hub.noteReaders
  refine Hub.keeps_foldl _ _ _ _ (fun g m hm => ?_)
  split
  · refine g.keeps_put _ _ _ _ (show Access.ro ≠ Access.stg by decide) ?_
    exact List.mem_append.2 (.inr (List.mem_map.2 ⟨m, hm, rfl⟩))
  · exact g.keeps_refl _

/-- Holds that follow their causes change GATE_HOLD at most. -/
theorem Hub.keeps_followHolds (h old : Hub) : (h.followHolds old).keeps h endPlaces := by
  unfold Hub.followHolds
  split
  · exact h.keeps_refl _
  · refine Hub.keeps_foldl _ _ _ _ (fun g i _ => ?_)
    split
    · exact g.keeps_refl _
    · exact g.keeps_put _ _ _ _ (by decide) (by decide)

/-- Nothing to be judged and no change of mode due: the end of a command settles nothing. -/
theorem Hub.settled_eq (h : Hub) (hd : h.sys.due = []) (hw : h.edge.more = true ∨ h.edge.want = none) :
    ((h.settleDue 8).endEdge).settleDue 8 = h := by
  have hs : h.settleDue 8 = h := by simp [Hub.settleDue, hd]
  have he : h.endEdge = h := by
    unfold Hub.endEdge
    rcases hw with hw | hw <;> simp [hw]
  rw [hs, he, hs]

/-- The end of a command that leaves no fault source to be judged and no change of mode due changes the places of `endPlaces` at most. -/
theorem Hub.keeps_finish (h old : Hub) (hd : h.sys.due = []) (hw : h.edge.more = true ∨ h.edge.want = none) :
    (h.finish old).keeps h endPlaces := by
  unfold Hub.finish
  rw [h.settled_eq hd hw]
  exact Hub.keeps_trans _ _ _ _ (Hub.keeps_followHolds _ _)
    (Hub.keeps_trans _ _ _ _ (Hub.keeps_noteReaders _) (Hub.keeps_edges _ _))

/-! ### What running a command comes to -/

/-- While the core runs a command ends in the state that its own effect gives. -/
theorem run_awake (s : State) (f : Hub → Hub) (h : s.awake) : run s f = .next (s.ends (f s.found)) := if_pos h

/-- A command of start-up ends in the state that its own effect gives, outside Shelf. -/
theorem runPowered_ends (s : State) (f : Hub → Hub) (h : s.powered) : runPowered s f = .next (s.ends (f s.found)) := if_neg h

/-- Without its supplies and clocks, or in Shelf, the core takes no command. -/
theorem run_asleep (s : State) (f : Hub → Hub) (h : s.hub.coreRuns = false) : run s f = .next { s with hub := s.hub.begin } := by
  unfold run
  rw [h]
  rfl

/-- A command answers a next state and leaves the commands that wait as they are. -/
theorem run_next (s : State) (f : Hub → Hub) : ∃ t, run s f = .next t ∧ t.pending = s.pending := by
  unfold run
  split
  · exact ⟨_, rfl, rfl⟩
  · exact ⟨_, rfl, rfl⟩

/-- A command of start-up answers a next state and leaves the commands that wait as they are. -/
theorem runPowered_next (s : State) (f : Hub → Hub) : ∃ t, runPowered s f = .next t ∧ t.pending = s.pending := by
  unfold runPowered
  split
  · exact ⟨_, rfl, rfl⟩
  · exact ⟨_, rfl, rfl⟩

/-- A command of the keep-alive domain ends in the state that its own effect gives, in every mode. -/
theorem runAlways_ends (s : State) (f : Hub → Hub) : runAlways s f = .next (s.ends (f s.found)) := rfl

/-! ### What a command has sent out stays sent -/

theorem Hub.out_signal (g : Hub) (v : Nat) (o : Out) (h : o ∈ g.out) : o ∈ (g.signal v).out := by
  unfold Hub.signal
  split
  · simp [h]
  · split
    · exact h
    · unfold Hub.setPending
      simpa only [Hub.put_out] using h

theorem Hub.out_foldl {α : Type} (xs : List α) (f : Hub → α → Hub) (g : Hub) (o : Out)
    (hf : ∀ g, ∀ x ∈ xs, o ∈ g.out → o ∈ (f g x).out) (h : o ∈ g.out) : o ∈ (xs.foldl f g).out := by
  induction xs generalizing g with
  | nil => exact h
  | cons x xs ih => exact ih _ (fun g y hy => hf g y (by simp [hy])) (hf g x (by simp) h)

theorem Hub.out_edges (g old : Hub) (o : Out) (h : o ∈ g.out) : o ∈ (g.edges old).out := by
  unfold Hub.edges
  have key : o ∈ ((List.range 4).foldl (fun g s =>
      if old.doorbells s = 0 ∧ g.doorbells s ≠ 0 then
        (let g := g.irq pMbx s
         if s = 0 then g.signal (g.cfg pHost HOST.VEC_DB) else g)
      else g) g).out := by
    refine Hub.out_foldl _ _ _ _ (fun g s _ hg => ?_) h
    dsimp only
    split
    · split
      · exact Hub.out_signal _ _ _ (by simpa only [Hub.irq_out] using hg)
      · simpa only [Hub.irq_out] using hg
    · exact hg
  dsimp only
  split
  · exact Hub.out_signal _ _ _ key
  · exact key

theorem Hub.out_noteReaders (g : Hub) (o : Out) (h : o ∈ g.out) : o ∈ g.noteReaders.out := by
  unfold Hub.noteReaders
  refine Hub.out_foldl _ _ _ _ (fun g s _ hg => ?_) h
  split
  · simpa only [Hub.put_out] using hg
  · exact hg

theorem Hub.out_followHolds (g old : Hub) (o : Out) (h : o ∈ g.out) : o ∈ (g.followHolds old).out := by
  unfold Hub.followHolds
  split
  · exact h
  · refine Hub.out_foldl _ _ _ _ (fun g i _ hg => ?_) h
    split
    · exact hg
    · simpa only [Hub.put_out] using hg

/-- What a command has sent out, the end of the command leaves sent. -/
theorem Hub.out_finish (g old : Hub) (o : Out) (hd : g.sys.due = []) (hw : g.edge.more = true ∨ g.edge.want = none) (h : o ∈ g.out) :
    o ∈ (g.finish old).out := by
  unfold Hub.finish
  rw [g.settled_eq hd hw]
  exact Hub.out_followHolds _ _ _ (Hub.out_noteReaders _ _ (Hub.out_edges _ _ _ h))

end Sys2Proof.Machine
end

