-- ==== Sys2Proof/Laws/Access.lean ====
section
/-!
SUPPORT. Laws of register accesses: everything that turning one away can do.
-/
namespace Sys2Proof.Machine

open Reg

theorem Hub.keeps_mono (a b : Hub) (l m : List Key) (h : a.keeps b l) (hs : ∀ k ∈ l, k ∈ m) : a.keeps b m :=
  ⟨Hub.registersBut_mono a b l m h.1 hs, h.2⟩

/-- A write of a listed place keeps what was kept before it. -/
theorem Hub.keeps_then_put (g h : Hub) (p : Nat) (f : Fld) (v : Nat) (l : List Key) (hs : f.acc ≠ .stg) (hl : f.on p ∈ l) (hk : g.keeps h l) :
    (g.put p f v).keeps h l := Hub.keeps_trans _ _ _ _ (Hub.keeps_put _ _ _ _ _ hs hl) hk

/-- An access recorded in ACC_ERR changes ACC_ERR. -/
theorem Hub.keeps_accErr (h : Hub) (req : Req) (p off : Nat) :
    (h.accErr req p off).keeps h [SYS.ACC_ERR_REQ.on pSys, SYS.ACC_ERR_PAGE.on pSys, SYS.ACC_ERR_OFFSET.on pSys] := by
  unfold Hub.accErr
  iterate 3 refine Hub.keeps_then_put _ _ _ _ _ _ (by decide) (by decide) ?_
  exact h.keeps_refl _

/-- A write refused under R41 changes OWN_ERR and OWN_ERR_CNT. -/
theorem Hub.keeps_ownErr (h : Hub) (req : Req) (p off : Nat) :
    (h.ownErr req p off).keeps h
      [SYS.OWN_ERR_REQ.on pSys, SYS.OWN_ERR_PAGE.on pSys, SYS.OWN_ERR_OFFSET.on pSys, SYS.OWN_ERR_CNT_COUNT.on pSys] := by
  unfold Hub.ownErr Hub.inc Hub.addTo
  iterate 4 refine Hub.keeps_then_put _ _ _ _ _ _ (by decide) (by decide) ?_
  exact h.keeps_refl _

/-- An access refused because of a gate changes GATE_ERR. -/
theorem Hub.keeps_gateErr (h : Hub) (req : Req) (p off : Nat) :
    (h.gateErr req p off).keeps h [SYS.GATE_ERR_REQ.on pSys, SYS.GATE_ERR_PAGE.on pSys, SYS.GATE_ERR_OFFSET.on pSys] := by
  unfold Hub.gateErr
  iterate 3 refine Hub.keeps_then_put _ _ _ _ _ _ (by decide) (by decide) ?_
  exact h.keeps_refl _

/-- A write turned away from a requester whose accesses no check of the Annex stops changes the records of refused accesses at most. -/
theorem Hub.turnedAway_keeps (h g : Hub) (req : Req) (p off size : Nat) (hr : h.annexTurned req p off true = none)
    (ht : h.turnedAway req p off size = some g) : g.keeps h errorPlaces ∧ g.sys = h.sys ∧ g.edge = h.edge := by
  unfold Hub.turnedAway at ht
  rw [hr] at ht
  simp only [Option.isSome_none, Bool.false_eq_true, if_false] at ht
  split_ifs at ht <;> cases ht
  · exact ⟨h.keeps_refl _, rfl, rfl⟩
  · exact ⟨Hub.keeps_mono _ _ _ _ (h.keeps_accErr req p off) (by decide), rfl, rfl⟩
  · exact ⟨Hub.keeps_mono _ _ _ _ (h.keeps_accErr req p off) (by decide), rfl, rfl⟩
  · exact ⟨h.keeps_refl _, rfl, rfl⟩
  · exact ⟨Hub.keeps_mono _ _ _ _ (h.keeps_ownErr req p off) (by decide), rfl, rfl⟩
  · exact ⟨Hub.keeps_mono _ _ _ _ (h.keeps_gateErr req p off) (by decide), rfl, rfl⟩
  · exact ⟨h.keeps_refl _, rfl, rfl⟩

theorem Hub.annexTurned_other (h : Hub) (req : Req) (p off : Nat) (w : Bool) (hr : req ≠ .annex) : h.annexTurned req p off w = none := by
  unfold Hub.annexTurned
  rw [if_pos hr]

@[simp] theorem State.ends_hub (s : State) (g : Hub) : (s.ends g).hub = g.finish s.hub := by
  simp only [State.ends]

@[simp] theorem State.ends_pending (s : State) (g : Hub) : (s.ends g).pending = s.pending := by
  simp only [State.ends]

theorem State.keeps_found (s : State) (l : List Key) : s.found.keeps s.hub l := ⟨⟨rfl, rfl, fun _ _ => rfl⟩, rfl⟩

/-- A state that a command ends in: where nothing is to be judged and no change of mode falls due, what its own effect kept stays kept, the places of `endPlaces` apart. -/
theorem State.keeps_ends (s : State) (g : Hub) (l : List Key) (h : g.keeps s.found l) (hd : g.sys.due = [])
    (hw : g.edge.more = true ∨ g.edge.want = none) : (s.ends g).hub.keeps s.hub (l ++ endPlaces) := by
  rw [State.ends_hub]
  have h1 : (g.finish s.hub).keeps g (l ++ endPlaces) :=
    Hub.keeps_mono _ g endPlaces _ (g.keeps_finish s.hub hd hw) (fun k hk => List.mem_append_right l hk)
  have h2 : g.keeps s.found (l ++ endPlaces) := Hub.keeps_mono _ s.found l _ h (fun k hk => List.mem_append_left endPlaces hk)
  exact Hub.keeps_trans _ g _ _ h1 (Hub.keeps_trans _ s.found _ _ h2 (s.keeps_found _))

/-- A present value that no listed place holds is kept. -/
theorem Hub.get_of_keeps (g h : Hub) (l : List Key) (hk : g.keeps h l) (p : Nat) (f : Fld) (hl : f.on p ∉ l) : g.get p f = h.get p f := by
  unfold Hub.get
  rw [hk.1.1]
  split
  · rfl
  · rw [show (⟨p, f.off, f.lo⟩ : Key) = f.on p from rfl, hk.1.2.2 _ hl]

/-- An error response of a host changes WERR, WERR_CNT and an interrupt flag (R468). -/
theorem Hub.keeps_hostError (h : Hub) (read : Bool) (node addr st : Nat) : (h.hostError read node addr st).keeps h (responsePlaces .host) := by
  have h1 : ((((((h.put pHost HOST.WERR_READ (flag read)).put pHost HOST.WERR_NODE node).put pHost HOST.WERR_STATUS st).put
      pHost HOST.WERR_ADDR_HI (addr / 2 ^ 32))).put pHost (latched HOST.WERR_LO_ADDR) addr).keeps h (responsePlaces .host) := by
    iterate 5 refine Hub.keeps_then_put _ _ _ _ _ _ (by decide) (by decide) ?_
    exact h.keeps_refl _
  unfold Hub.hostError
  dsimp only
  split
  · exact h1
  · unfold Hub.inc Hub.addTo
    exact Hub.keeps_trans _ _ _ _ (Hub.keeps_irq _ _ _ _ (by decide)) (Hub.keeps_then_put _ _ _ _ _ _ (by decide) (by decide) h1)

/-- An answer changes nothing but, where it is an error response to a host, what records that. -/
theorem Hub.keeps_hear (h : Hub) (req : Req) (addr st : Nat) : (h.hear req addr st).keeps h (responsePlaces req) := by
  unfold Hub.hear
  split
  · rename_i hc
    split
    · rw [hc.1]
      exact Hub.keeps_trans _ _ _ _ (Hub.keeps_emit _ _ _) (h.keeps_hostError _ _ _ _)
    · exact h.keeps_refl _
  · exact Hub.keeps_emit _ _ _

@[simp] theorem Hub.hostError_sys (h : Hub) (read : Bool) (node addr st : Nat) : (h.hostError read node addr st).sys = h.sys := by
  unfold Hub.hostError
  dsimp only
  split
  · rfl
  · rw [Hub.irq_sys]; rfl

theorem Hub.hostError_due (h : Hub) (read : Bool) (node addr st : Nat) :
    (h.hostError read node addr st).edge.more = h.edge.more ∧ (h.hostError read node addr st).edge.want = h.edge.want := by
  unfold Hub.hostError
  dsimp only
  split
  · exact ⟨rfl, rfl⟩
  · unfold Hub.irq
    exact ⟨Hub.noteRisen_more _ _ _, Hub.noteRisen_want _ _ _⟩

@[simp] theorem Hub.hear_sys (h : Hub) (req : Req) (addr st : Nat) : (h.hear req addr st).sys = h.sys := by
  unfold Hub.hear
  split
  · split
    · rw [Hub.emit_sys, Hub.hostError_sys]
    · rfl
  · rfl

/-- An answer asks for no change of mode. -/
theorem Hub.hear_due (h : Hub) (req : Req) (addr st : Nat) :
    (h.hear req addr st).edge.more = h.edge.more ∧ (h.hear req addr st).edge.want = h.edge.want := by
  unfold Hub.hear
  split
  · split
    · exact h.hostError_due _ _ _ _
    · exact ⟨rfl, rfl⟩
  · exact ⟨rfl, rfl⟩

/-- Every requester hears an error response, a host while it is served. -/
theorem Hub.hear_error (h : Hub) (req : Req) (addr st : Nat) (hs : st ≠ 0) (hh : req = .host → h.hostServed = true) :
    .resp req false ∈ (h.hear req addr st).out := by
  unfold Hub.hear
  split
  · rename_i hc
    rw [if_pos (hh hc.1)]
    simp
  · simp [hs]

theorem Hub.stopStatus_ne (h : Hub) (req : Req) (p off size : Nat) (w : Bool) : h.stopStatus req p off size w ≠ 0 := by
  unfold Hub.stopStatus
  repeat' split
  all_goals decide

end Sys2Proof.Machine
end

