-- ==== Sys2Proof/Laws/Edge.lean ====
section
/-!
SUPPORT. Laws of the commands of one clock edge: what has fallen on the edge joins the queue whole, in the order of its places.
-/
namespace Sys2Proof.Machine

theorem Hub.edgeOrder_perm (h : Hub) (cs : List Instr) : (h.edgeOrder cs).Perm cs := List.perm_insertionSort _ cs

theorem Hub.edgeOrder_sorted (h : Hub) (cs : List Instr) : (h.edgeOrder cs).Pairwise (fun a b => h.edgeRank a ≤ h.edgeRank b) :=
  List.pairwise_insertionSort (r := fun a b => h.edgeRank a ≤ h.edgeRank b) cs

end Sys2Proof.Machine
end

