-- ==== Sys2Proof/Laws/Memory.lean ====
section
/-!
SUPPORT. Laws of sparse tables and memories: reading after writing, and that every operation keeps the canonical form.
-/
namespace Sys2Proof

/-! ### Tables -/

theorem Map.find_insert_other {α : Type} (m : Map α) (k j : Nat) (v : α) (h : k ≠ j) : Map.find (Map.insert m k v) j = Map.find m j := by
  induction m with
  | nil => simp [Map.insert, Map.find, h]
  | cons e m ih => by_cases hl : k < e.1 <;> simp [Map.insert, Map.find, hl, h, ih]

theorem Map.find_erase_other {α : Type} (m : Map α) (k j : Nat) (h : k ≠ j) : Map.find (Map.erase m k) j = Map.find m j := by
  induction m with
  | nil => rfl
  | cons e m ih =>
    simp only [Map.erase] at ih
    by_cases he : e.1 = k
    · have hj : ¬ e.1 = j := fun x => h (he ▸ x)
      simp [Map.erase, Map.find, he, h, ih]
    · simp [Map.erase, Map.find, he, ih]

theorem Map.find_erase_same {α : Type} (m : Map α) (k : Nat) : Map.find (Map.erase m k) k = none := by
  induction m with
  | nil => rfl
  | cons e m ih =>
    simp only [Map.erase] at ih
    by_cases he : e.1 = k <;> simp [Map.erase, Map.find, he, ih]

theorem Map.find_insert_same {α : Type} (m : Map α) (k : Nat) (v : α) (h : Map.find m k = none) : Map.find (Map.insert m k v) k = some v := by
  induction m with
  | nil => simp [Map.insert, Map.find]
  | cons e m ih =>
    by_cases he : e.1 = k
    · simp [Map.find, he] at h
    · simp only [Map.find, he, if_false] at h
      by_cases hl : k < e.1 <;> simp [Map.insert, Map.find, hl, he, ih h]

/-- An entry that is set is found. -/
theorem Map.find_set_same {α : Type} (m : Map α) (k : Nat) (v : α) : Map.find (Map.set m k v) k = some v :=
  Map.find_insert_same _ _ _ (Map.find_erase_same m k)

/-- Setting an entry leaves the others as they were. -/
theorem Map.find_set_other {α : Type} (m : Map α) (k j : Nat) (v : α) (h : k ≠ j) : Map.find (Map.set m k v) j = Map.find m j := by
  rw [Map.set, Map.find_insert_other _ _ _ _ h, Map.find_erase_other _ _ _ h]

/-- A put entry reads as the value put. -/
theorem Map.getD_put_same {α : Type} [DecidableEq α] (m : Map α) (k : Nat) (d v : α) : Map.getD (Map.put m k d v) k d = v := by
  unfold Map.getD Map.put
  split
  · simp [Map.find_erase_same, *]
  · simp [Map.find_set_same]

/-- Putting an entry leaves the others as they were. -/
theorem Map.getD_put_other {α : Type} [DecidableEq α] (m : Map α) (k j : Nat) (d v : α) (h : k ≠ j) :
    Map.getD (Map.put m k d v) j d = Map.getD m j d := by
  unfold Map.getD Map.put
  split
  · rw [Map.find_erase_other _ _ _ h]
  · rw [Map.find_set_other _ _ _ _ h]

theorem Map.sorted_iff {α : Type} (m : Map α) : Map.sorted m = true ↔ m.Pairwise (fun a b => a.1 < b.1) := by
  induction m with
  | nil => simp [Map.sorted]
  | cons a m ih =>
    cases m with
    | nil => simp [Map.sorted]
    | cons b m =>
      simp only [Map.sorted, Bool.and_eq_true, decide_eq_true_eq, ih]
      constructor
      · rintro ⟨hab, hm⟩
        refine List.pairwise_cons.2 ⟨?_, hm⟩
        intro x hx
        rcases List.mem_cons.1 hx with rfl | hx
        · exact hab
        · exact Nat.lt_trans hab ((List.pairwise_cons.1 hm).1 x hx)
      · intro h
        exact ⟨(List.pairwise_cons.1 h).1 b (by simp), (List.pairwise_cons.1 h).2⟩

/-- Leaving entries out keeps a table in rising order. -/
theorem Map.sorted_filter {α : Type} (m : Map α) (q : Nat × α → Bool) (h : Map.sorted m = true) : Map.sorted (m.filter q) = true := by
  rw [Map.sorted_iff] at *
  exact h.filter q

theorem Map.mem_insert {α : Type} (m : Map α) (k : Nat) (v : α) (x : Nat × α) (h : x ∈ Map.insert m k v) : x = (k, v) ∨ x ∈ m := by
  induction m with
  | nil => simpa [Map.insert] using h
  | cons e m ih =>
    by_cases hl : k < e.1
    · simpa [Map.insert, hl] using h
    · simp only [Map.insert, hl, if_false, List.mem_cons] at h
      rcases h with h | h
      · exact .inr (by simp [h])
      · rcases ih h with h | h
        · exact .inl h
        · exact .inr (by simp [h])

theorem Map.sorted_insert {α : Type} (m : Map α) (k : Nat) (v : α) (h : Map.sorted m = true) (hk : ∀ x ∈ m, x.1 ≠ k) :
    Map.sorted (Map.insert m k v) = true := by
  rw [Map.sorted_iff] at *
  induction m with
  | nil => simp [Map.insert]
  | cons e m ih =>
    have hm := List.pairwise_cons.1 h
    by_cases hl : k < e.1
    · simp only [Map.insert, hl, if_true]
      refine List.pairwise_cons.2 ⟨?_, h⟩
      intro x hx
      rcases List.mem_cons.1 hx with rfl | hx
      · exact hl
      · exact Nat.lt_trans hl (hm.1 x hx)
    · simp only [Map.insert, hl, if_false]
      refine List.pairwise_cons.2 ⟨?_, ih hm.2 (fun x hx => hk x (by simp [hx]))⟩
      intro x hx
      rcases Map.mem_insert _ _ _ _ hx with rfl | hx
      · have := hk e (by simp)
        simp only
        omega
      · exact hm.1 x hx

/-- Setting an entry keeps a table in rising order. -/
theorem Map.sorted_set {α : Type} (m : Map α) (k : Nat) (v : α) (h : Map.sorted m = true) : Map.sorted (Map.set m k v) = true := by
  refine Map.sorted_insert _ _ _ (Map.sorted_filter m _ h) ?_
  intro x hx
  simpa using (List.mem_filter.1 hx).2

/-! ### Memories -/

/-- A byte reads as it was written. -/
theorem Mem.read_write_same (m : Map Byte) (a : Nat) (b : Byte) : Mem.read (Mem.write m a b) a = b := Map.getD_put_same m a 0 b

/-- Writing a byte leaves every other byte as it was. -/
theorem Mem.read_write_other (m : Map Byte) (a c : Nat) (b : Byte) (h : a ≠ c) : Mem.read (Mem.write m a b) c = Mem.read m c :=
  Map.getD_put_other m a c 0 b h

/-- Writing bytes leaves every byte outside them as it was. -/
theorem Mem.read_writeN_other (m : Map Byte) (a c : Nat) (bs : List Byte) (h : c < a ∨ a + bs.length ≤ c) :
    Mem.read (Mem.writeN m a bs) c = Mem.read m c := by
  induction bs generalizing m a with
  | nil => rfl
  | cons b bs ih =>
    simp only [List.length_cons] at h
    rw [Mem.writeN, ih _ _ (by omega), Mem.read_write_other _ _ _ _ (by omega)]

/-- A word that is set leaves every byte outside it as it was. -/
theorem Mem.read_setWord_other (m : Map Byte) (a c n v : Nat) (h : c < a ∨ a + (leBytes n v).length ≤ c) :
    Mem.read (Mem.setWord m a n v) c = Mem.read m c := Mem.read_writeN_other m a c _ h

theorem leBytes_length (n v : Nat) : (leBytes n v).length = n := by
  induction n generalizing v with
  | zero => rfl
  | succ n ih => simp [leBytes, ih]

theorem Memory.wf_filter (d : Byte) (m : Map Byte) (q : Nat × Byte → Bool) (h : Memory.wf d m = true) : Memory.wf d (m.filter q) = true := by
  simp only [Memory.wf, Bool.and_eq_true, List.all_eq_true] at *
  exact ⟨Map.sorted_filter m q h.1, fun x hx => h.2 x (List.mem_filter.1 hx).1⟩

/-- Putting a byte keeps the canonical form. -/
theorem Memory.wf_put (d : Byte) (m : Map Byte) (a : Nat) (b : Byte) (h : Memory.wf d m = true) : Memory.wf d (Map.put m a d b) = true := by
  unfold Map.put
  split
  · exact Memory.wf_filter d m _ h
  · rename_i hb
    simp only [Memory.wf, Bool.and_eq_true, List.all_eq_true] at *
    refine ⟨Map.sorted_set m a b h.1, fun x hx => ?_⟩
    rcases Map.mem_insert _ _ _ _ hx with rfl | hx
    · simpa using hb
    · exact h.2 x (List.mem_filter.1 hx).1

/-- Writing keeps the canonical form. -/
theorem Memory.wf_write (m : Map Byte) (a : Nat) (b : Byte) (h : Memory.wf 0 m = true) : Memory.wf 0 (Mem.write m a b) = true :=
  Memory.wf_put 0 m a b h

theorem Memory.wf_writeN (m : Map Byte) (a : Nat) (bs : List Byte) (h : Memory.wf 0 m = true) : Memory.wf 0 (Mem.writeN m a bs) = true := by
  induction bs generalizing m a with
  | nil => exact h
  | cons b bs ih => exact ih _ _ (Memory.wf_write m a b h)

theorem Memory.wf_setWord (m : Map Byte) (a n v : Nat) (h : Memory.wf 0 m = true) : Memory.wf 0 (Mem.setWord m a n v) = true :=
  Memory.wf_writeN m a _ h

/-- Clearing a range keeps the canonical form. -/
theorem Memory.wf_clear (m : Map Byte) (lo hi : Nat) (h : Memory.wf 0 m = true) : Memory.wf 0 (Mem.clear m lo hi) = true :=
  Memory.wf_filter 0 m _ h

end Sys2Proof

namespace Sys2Proof.Machine

/-- Programming the flash keeps the canonical form, with erased bytes unlisted. -/
theorem programBytes_wf (m : Map Byte) (a : Nat) (bs : List Byte) (h : Memory.wf 0xFF m = true) : Memory.wf 0xFF (programBytes m a bs) = true := by
  induction bs generalizing m a with
  | nil => exact h
  | cons b bs ih => exact ih _ _ (Memory.wf_put 0xFF m a b h)

/-- Erasing blocks of the flash keeps the canonical form. -/
theorem Hub.flashErase_wf (h : Hub) (a n : Nat) (hw : Memory.wf 0xFF h.flash = true) : Memory.wf 0xFF (h.flashErase a n).flash = true :=
  Memory.wf_filter 0xFF h.flash _ hw

end Sys2Proof.Machine
end

