-- ==== Sys2Proof/Laws/Parts.lean ====
section
/-!
SUPPORT. Laws of the blocks' own updates: an update of one block's state is seen in that block, and leaves the registers, the outputs, the system
state and the count of free values as they were.
-/
namespace Sys2Proof.Machine

@[simp] theorem Hub.setAtr_atr (h : Hub) (f : AtrState → AtrState) : (h.setAtr f).atr = f h.atr := rfl
@[simp] theorem Hub.get_setAtr (h : Hub) (f : AtrState → AtrState) (p : Nat) (x : Fld) : (h.setAtr f).get p x = h.get p x := rfl
@[simp] theorem Hub.cfg_setAtr (h : Hub) (f : AtrState → AtrState) (p : Nat) (x : Fld) : (h.setAtr f).cfg p x = h.cfg p x := rfl
@[simp] theorem Hub.setAtr_out (h : Hub) (f : AtrState → AtrState) : (h.setAtr f).out = h.out := rfl
@[simp] theorem Hub.setAtr_sys (h : Hub) (f : AtrState → AtrState) : (h.setAtr f).sys = h.sys := rfl
@[simp] theorem Hub.setAtr_free (h : Hub) (f : AtrState → AtrState) : (h.setAtr f).free = h.free := rfl
@[simp] theorem Hub.setAtr_committed (h : Hub) (f : AtrState → AtrState) : (h.setAtr f).committed = h.committed := rfl
@[simp] theorem Hub.setBrg_brg (h : Hub) (f : BrgState → BrgState) : (h.setBrg f).brg = f h.brg := rfl
@[simp] theorem Hub.get_setBrg (h : Hub) (f : BrgState → BrgState) (p : Nat) (x : Fld) : (h.setBrg f).get p x = h.get p x := rfl
@[simp] theorem Hub.cfg_setBrg (h : Hub) (f : BrgState → BrgState) (p : Nat) (x : Fld) : (h.setBrg f).cfg p x = h.cfg p x := rfl
@[simp] theorem Hub.setBrg_out (h : Hub) (f : BrgState → BrgState) : (h.setBrg f).out = h.out := rfl
@[simp] theorem Hub.setBrg_sys (h : Hub) (f : BrgState → BrgState) : (h.setBrg f).sys = h.sys := rfl
@[simp] theorem Hub.setBrg_free (h : Hub) (f : BrgState → BrgState) : (h.setBrg f).free = h.free := rfl
@[simp] theorem Hub.setBrg_committed (h : Hub) (f : BrgState → BrgState) : (h.setBrg f).committed = h.committed := rfl
@[simp] theorem Hub.setCan_cans (h : Hub) (i : Nat) (f : CanState → CanState) : (h.setCan i f).cans = Map.put h.cans i {} (f (h.can i)) := rfl
@[simp] theorem Hub.get_setCan (h : Hub) (i : Nat) (f : CanState → CanState) (p : Nat) (x : Fld) : (h.setCan i f).get p x = h.get p x := rfl
@[simp] theorem Hub.cfg_setCan (h : Hub) (i : Nat) (f : CanState → CanState) (p : Nat) (x : Fld) : (h.setCan i f).cfg p x = h.cfg p x := rfl
@[simp] theorem Hub.setCan_out (h : Hub) (i : Nat) (f : CanState → CanState) : (h.setCan i f).out = h.out := rfl
@[simp] theorem Hub.setCan_sys (h : Hub) (i : Nat) (f : CanState → CanState) : (h.setCan i f).sys = h.sys := rfl
@[simp] theorem Hub.setCan_free (h : Hub) (i : Nat) (f : CanState → CanState) : (h.setCan i f).free = h.free := rfl
@[simp] theorem Hub.setCan_committed (h : Hub) (i : Nat) (f : CanState → CanState) : (h.setCan i f).committed = h.committed := rfl
@[simp] theorem Hub.setCh_chans (h : Hub) (i : Nat) (f : ChState → ChState) : (h.setCh i f).chans = Map.put h.chans i {} (f (h.ch i)) := rfl
@[simp] theorem Hub.get_setCh (h : Hub) (i : Nat) (f : ChState → ChState) (p : Nat) (x : Fld) : (h.setCh i f).get p x = h.get p x := rfl
@[simp] theorem Hub.cfg_setCh (h : Hub) (i : Nat) (f : ChState → ChState) (p : Nat) (x : Fld) : (h.setCh i f).cfg p x = h.cfg p x := rfl
@[simp] theorem Hub.setCh_out (h : Hub) (i : Nat) (f : ChState → ChState) : (h.setCh i f).out = h.out := rfl
@[simp] theorem Hub.setCh_sys (h : Hub) (i : Nat) (f : ChState → ChState) : (h.setCh i f).sys = h.sys := rfl
@[simp] theorem Hub.setCh_free (h : Hub) (i : Nat) (f : ChState → ChState) : (h.setCh i f).free = h.free := rfl
@[simp] theorem Hub.setCh_committed (h : Hub) (i : Nat) (f : ChState → ChState) : (h.setCh i f).committed = h.committed := rfl
@[simp] theorem Hub.setEther_ether (h : Hub) (f : EtherState → EtherState) : (h.setEther f).ether = f h.ether := rfl
@[simp] theorem Hub.get_setEther (h : Hub) (f : EtherState → EtherState) (p : Nat) (x : Fld) : (h.setEther f).get p x = h.get p x := rfl
@[simp] theorem Hub.cfg_setEther (h : Hub) (f : EtherState → EtherState) (p : Nat) (x : Fld) : (h.setEther f).cfg p x = h.cfg p x := rfl
@[simp] theorem Hub.setEther_out (h : Hub) (f : EtherState → EtherState) : (h.setEther f).out = h.out := rfl
@[simp] theorem Hub.setEther_sys (h : Hub) (f : EtherState → EtherState) : (h.setEther f).sys = h.sys := rfl
@[simp] theorem Hub.setEther_free (h : Hub) (f : EtherState → EtherState) : (h.setEther f).free = h.free := rfl
@[simp] theorem Hub.setEther_committed (h : Hub) (f : EtherState → EtherState) : (h.setEther f).committed = h.committed := rfl
@[simp] theorem Hub.setEng_prs (h : Hub) (i : Nat) (f : PrsState → PrsState) : (h.setEng i f).prs = Map.put h.prs i {} (f (h.eng i)) := rfl
@[simp] theorem Hub.get_setEng (h : Hub) (i : Nat) (f : PrsState → PrsState) (p : Nat) (x : Fld) : (h.setEng i f).get p x = h.get p x := rfl
@[simp] theorem Hub.cfg_setEng (h : Hub) (i : Nat) (f : PrsState → PrsState) (p : Nat) (x : Fld) : (h.setEng i f).cfg p x = h.cfg p x := rfl
@[simp] theorem Hub.setEng_out (h : Hub) (i : Nat) (f : PrsState → PrsState) : (h.setEng i f).out = h.out := rfl
@[simp] theorem Hub.setEng_sys (h : Hub) (i : Nat) (f : PrsState → PrsState) : (h.setEng i f).sys = h.sys := rfl
@[simp] theorem Hub.setEng_free (h : Hub) (i : Nat) (f : PrsState → PrsState) : (h.setEng i f).free = h.free := rfl
@[simp] theorem Hub.setEng_committed (h : Hub) (i : Nat) (f : PrsState → PrsState) : (h.setEng i f).committed = h.committed := rfl
@[simp] theorem Hub.setPort_ports (h : Hub) (i : Nat) (f : PortState → PortState) : (h.setPort i f).ports = Map.put h.ports i {} (f (h.port i)) := rfl
@[simp] theorem Hub.get_setPort (h : Hub) (i : Nat) (f : PortState → PortState) (p : Nat) (x : Fld) : (h.setPort i f).get p x = h.get p x := rfl
@[simp] theorem Hub.cfg_setPort (h : Hub) (i : Nat) (f : PortState → PortState) (p : Nat) (x : Fld) : (h.setPort i f).cfg p x = h.cfg p x := rfl
@[simp] theorem Hub.setPort_out (h : Hub) (i : Nat) (f : PortState → PortState) : (h.setPort i f).out = h.out := rfl
@[simp] theorem Hub.setPort_sys (h : Hub) (i : Nat) (f : PortState → PortState) : (h.setPort i f).sys = h.sys := rfl
@[simp] theorem Hub.setPort_free (h : Hub) (i : Nat) (f : PortState → PortState) : (h.setPort i f).free = h.free := rfl
@[simp] theorem Hub.setPort_committed (h : Hub) (i : Nat) (f : PortState → PortState) : (h.setPort i f).committed = h.committed := rfl
@[simp] theorem Hub.setTopo_topo (h : Hub) (f : TopoState → TopoState) : (h.setTopo f).topo = f h.topo := rfl
@[simp] theorem Hub.get_setTopo (h : Hub) (f : TopoState → TopoState) (p : Nat) (x : Fld) : (h.setTopo f).get p x = h.get p x := rfl
@[simp] theorem Hub.cfg_setTopo (h : Hub) (f : TopoState → TopoState) (p : Nat) (x : Fld) : (h.setTopo f).cfg p x = h.cfg p x := rfl
@[simp] theorem Hub.setTopo_out (h : Hub) (f : TopoState → TopoState) : (h.setTopo f).out = h.out := rfl
@[simp] theorem Hub.setTopo_sys (h : Hub) (f : TopoState → TopoState) : (h.setTopo f).sys = h.sys := rfl
@[simp] theorem Hub.setTopo_free (h : Hub) (f : TopoState → TopoState) : (h.setTopo f).free = h.free := rfl
@[simp] theorem Hub.setTopo_committed (h : Hub) (f : TopoState → TopoState) : (h.setTopo f).committed = h.committed := rfl
@[simp] theorem Hub.setSer_sers (h : Hub) (i : Nat) (f : SerState → SerState) : (h.setSer i f).sers = Map.put h.sers i {} (f (h.ser i)) := rfl
@[simp] theorem Hub.get_setSer (h : Hub) (i : Nat) (f : SerState → SerState) (p : Nat) (x : Fld) : (h.setSer i f).get p x = h.get p x := rfl
@[simp] theorem Hub.cfg_setSer (h : Hub) (i : Nat) (f : SerState → SerState) (p : Nat) (x : Fld) : (h.setSer i f).cfg p x = h.cfg p x := rfl
@[simp] theorem Hub.setSer_out (h : Hub) (i : Nat) (f : SerState → SerState) : (h.setSer i f).out = h.out := rfl
@[simp] theorem Hub.setSer_sys (h : Hub) (i : Nat) (f : SerState → SerState) : (h.setSer i f).sys = h.sys := rfl
@[simp] theorem Hub.setSer_free (h : Hub) (i : Nat) (f : SerState → SerState) : (h.setSer i f).free = h.free := rfl
@[simp] theorem Hub.setSer_committed (h : Hub) (i : Nat) (f : SerState → SerState) : (h.setSer i f).committed = h.committed := rfl
@[simp] theorem Hub.setSw_sw (h : Hub) (f : SwState → SwState) : (h.setSw f).sw = f h.sw := rfl
@[simp] theorem Hub.get_setSw (h : Hub) (f : SwState → SwState) (p : Nat) (x : Fld) : (h.setSw f).get p x = h.get p x := rfl
@[simp] theorem Hub.cfg_setSw (h : Hub) (f : SwState → SwState) (p : Nat) (x : Fld) : (h.setSw f).cfg p x = h.cfg p x := rfl
@[simp] theorem Hub.setSw_out (h : Hub) (f : SwState → SwState) : (h.setSw f).out = h.out := rfl
@[simp] theorem Hub.setSw_sys (h : Hub) (f : SwState → SwState) : (h.setSw f).sys = h.sys := rfl
@[simp] theorem Hub.setSw_free (h : Hub) (f : SwState → SwState) : (h.setSw f).free = h.free := rfl
@[simp] theorem Hub.setSw_committed (h : Hub) (f : SwState → SwState) : (h.setSw f).committed = h.committed := rfl
@[simp] theorem Hub.setTimeSt_time (h : Hub) (f : TimeState → TimeState) : (h.setTimeSt f).time = f h.time := rfl
@[simp] theorem Hub.get_setTimeSt (h : Hub) (f : TimeState → TimeState) (p : Nat) (x : Fld) : (h.setTimeSt f).get p x = h.get p x := rfl
@[simp] theorem Hub.cfg_setTimeSt (h : Hub) (f : TimeState → TimeState) (p : Nat) (x : Fld) : (h.setTimeSt f).cfg p x = h.cfg p x := rfl
@[simp] theorem Hub.setTimeSt_out (h : Hub) (f : TimeState → TimeState) : (h.setTimeSt f).out = h.out := rfl
@[simp] theorem Hub.setTimeSt_sys (h : Hub) (f : TimeState → TimeState) : (h.setTimeSt f).sys = h.sys := rfl
@[simp] theorem Hub.setTimeSt_free (h : Hub) (f : TimeState → TimeState) : (h.setTimeSt f).free = h.free := rfl
@[simp] theorem Hub.setTimeSt_committed (h : Hub) (f : TimeState → TimeState) : (h.setTimeSt f).committed = h.committed := rfl
@[simp] theorem Hub.setTrack_tracks (h : Hub) (i : Nat) (f : TrackState → TrackState) : (h.setTrack i f).tracks = Map.put h.tracks i {} (f (h.track i)) := rfl
@[simp] theorem Hub.get_setTrack (h : Hub) (i : Nat) (f : TrackState → TrackState) (p : Nat) (x : Fld) : (h.setTrack i f).get p x = h.get p x := rfl
@[simp] theorem Hub.cfg_setTrack (h : Hub) (i : Nat) (f : TrackState → TrackState) (p : Nat) (x : Fld) : (h.setTrack i f).cfg p x = h.cfg p x := rfl
@[simp] theorem Hub.setTrack_out (h : Hub) (i : Nat) (f : TrackState → TrackState) : (h.setTrack i f).out = h.out := rfl
@[simp] theorem Hub.setTrack_sys (h : Hub) (i : Nat) (f : TrackState → TrackState) : (h.setTrack i f).sys = h.sys := rfl
@[simp] theorem Hub.setTrack_free (h : Hub) (i : Nat) (f : TrackState → TrackState) : (h.setTrack i f).free = h.free := rfl
@[simp] theorem Hub.setTrack_committed (h : Hub) (i : Nat) (f : TrackState → TrackState) : (h.setTrack i f).committed = h.committed := rfl
@[simp] theorem Hub.setZone_zones (h : Hub) (i : Nat) (f : ZoneState → ZoneState) : (h.setZone i f).zones = Map.put h.zones i {} (f (h.zone i)) := rfl
@[simp] theorem Hub.get_setZone (h : Hub) (i : Nat) (f : ZoneState → ZoneState) (p : Nat) (x : Fld) : (h.setZone i f).get p x = h.get p x := rfl
@[simp] theorem Hub.cfg_setZone (h : Hub) (i : Nat) (f : ZoneState → ZoneState) (p : Nat) (x : Fld) : (h.setZone i f).cfg p x = h.cfg p x := rfl
@[simp] theorem Hub.setZone_out (h : Hub) (i : Nat) (f : ZoneState → ZoneState) : (h.setZone i f).out = h.out := rfl
@[simp] theorem Hub.setZone_sys (h : Hub) (i : Nat) (f : ZoneState → ZoneState) : (h.setZone i f).sys = h.sys := rfl
@[simp] theorem Hub.setZone_free (h : Hub) (i : Nat) (f : ZoneState → ZoneState) : (h.setZone i f).free = h.free := rfl
@[simp] theorem Hub.setZone_committed (h : Hub) (i : Nat) (f : ZoneState → ZoneState) : (h.setZone i f).committed = h.committed := rfl
@[simp] theorem Hub.setAtr_edge (h : Hub) (f : AtrState → AtrState) : (h.setAtr f).edge = h.edge := rfl
@[simp] theorem Hub.setAtr_clock (h : Hub) (f : AtrState → AtrState) : (h.setAtr f).clock = h.clock := rfl
@[simp] theorem Hub.setBrg_edge (h : Hub) (f : BrgState → BrgState) : (h.setBrg f).edge = h.edge := rfl
@[simp] theorem Hub.setBrg_clock (h : Hub) (f : BrgState → BrgState) : (h.setBrg f).clock = h.clock := rfl
@[simp] theorem Hub.setCan_edge (h : Hub) (i : Nat) (f : CanState → CanState) : (h.setCan i f).edge = h.edge := rfl
@[simp] theorem Hub.setCan_clock (h : Hub) (i : Nat) (f : CanState → CanState) : (h.setCan i f).clock = h.clock := rfl
@[simp] theorem Hub.setCh_edge (h : Hub) (i : Nat) (f : ChState → ChState) : (h.setCh i f).edge = h.edge := rfl
@[simp] theorem Hub.setCh_clock (h : Hub) (i : Nat) (f : ChState → ChState) : (h.setCh i f).clock = h.clock := rfl
@[simp] theorem Hub.setEther_edge (h : Hub) (f : EtherState → EtherState) : (h.setEther f).edge = h.edge := rfl
@[simp] theorem Hub.setEther_clock (h : Hub) (f : EtherState → EtherState) : (h.setEther f).clock = h.clock := rfl
@[simp] theorem Hub.setEng_edge (h : Hub) (i : Nat) (f : PrsState → PrsState) : (h.setEng i f).edge = h.edge := rfl
@[simp] theorem Hub.setEng_clock (h : Hub) (i : Nat) (f : PrsState → PrsState) : (h.setEng i f).clock = h.clock := rfl
@[simp] theorem Hub.setPort_edge (h : Hub) (i : Nat) (f : PortState → PortState) : (h.setPort i f).edge = h.edge := rfl
@[simp] theorem Hub.setPort_clock (h : Hub) (i : Nat) (f : PortState → PortState) : (h.setPort i f).clock = h.clock := rfl
@[simp] theorem Hub.setTopo_edge (h : Hub) (f : TopoState → TopoState) : (h.setTopo f).edge = h.edge := rfl
@[simp] theorem Hub.setTopo_clock (h : Hub) (f : TopoState → TopoState) : (h.setTopo f).clock = h.clock := rfl
@[simp] theorem Hub.setSer_edge (h : Hub) (i : Nat) (f : SerState → SerState) : (h.setSer i f).edge = h.edge := rfl
@[simp] theorem Hub.setSer_clock (h : Hub) (i : Nat) (f : SerState → SerState) : (h.setSer i f).clock = h.clock := rfl
@[simp] theorem Hub.setSw_edge (h : Hub) (f : SwState → SwState) : (h.setSw f).edge = h.edge := rfl
@[simp] theorem Hub.setSw_clock (h : Hub) (f : SwState → SwState) : (h.setSw f).clock = h.clock := rfl
@[simp] theorem Hub.setTimeSt_edge (h : Hub) (f : TimeState → TimeState) : (h.setTimeSt f).edge = h.edge := rfl
@[simp] theorem Hub.setTimeSt_clock (h : Hub) (f : TimeState → TimeState) : (h.setTimeSt f).clock = h.clock := rfl
@[simp] theorem Hub.setTrack_edge (h : Hub) (i : Nat) (f : TrackState → TrackState) : (h.setTrack i f).edge = h.edge := rfl
@[simp] theorem Hub.setTrack_clock (h : Hub) (i : Nat) (f : TrackState → TrackState) : (h.setTrack i f).clock = h.clock := rfl
@[simp] theorem Hub.setZone_edge (h : Hub) (i : Nat) (f : ZoneState → ZoneState) : (h.setZone i f).edge = h.edge := rfl
@[simp] theorem Hub.setZone_clock (h : Hub) (i : Nat) (f : ZoneState → ZoneState) : (h.setZone i f).clock = h.clock := rfl

end Sys2Proof.Machine
end

