-- ==== Sys2Proof/Tests/Slice0.lean ====
section
/-! SUPPORT. Tests: small states that meet the hypotheses of every statement, ill-formed commands that the checks refuse, and single commands
whose results the spec states. -/

open Sys2Proof Sys2Proof.Machine Sys2Proof.Machine.Reg

namespace Sys2Proof.Tests

set_option Elab.async false

/-! ### Small states -/

/-- A state with a hub and no command waiting; the hub after reset; the same in Running. -/
def of (h : Hub) : State := { hub := h }
def z : Hub := State.reset.hub
def fed : Hub := (((z.put pSys SYS.SUPPLY_STAT_DOM 0x1FF).put pSys SYS.SUPPLY_STAT_BANK 0xFFFF).put pSys SYS.CLK_STAT_REF25 1).put pSys SYS.CLK_STAT_REF156 1
def r : Hub := { (fed.put pSys SYS.MODE_CUR Mode.running.code) with sys := { fed.sys with startup := 0 } }

/-- The same at a late instant, when every time limit is over; and in Waking at a step of the start-up. -/
def late (h : Hub) : Hub := { h with clock := 10 ^ 14, time := { h.time with c := 10 ^ 14, fb := 10 ^ 14 * 2 ^ 24 } }
def wakes (n : Nat) : Hub := { (fed.put pSys SYS.MODE_CUR Mode.waking.code) with sys := { fed.sys with startup := n } }

/-- Lifecycle states by their fuses: Factory (1) or Returned (4). -/
def made1 : Hub := { r with fuses := [(4, 1), (5, 1), (6, 1)] }
def testable : Hub := made1.put pSys SYS.MODE_CUR Mode.transparent.code

/-! System -/
def cmd3 : Hub := { (r.put pSys SYS.COMMIT_STATE_STATE 1) with sys := { r.sys with commitCmd := 3 } }
def armedMet : Hub := { ((((r.put pSys SYS.MODE_CUR Mode.armed.code).putCfg pSys SYS.MODE_CFG_NEED_TIME 0).putCfg pSys SYS.MODE_CFG_NEED_TRACK 0).putCfg pSys SYS.MODE_CFG_NEED_EPOCH 0) with
  sys := { r.sys with epochMet := true } }
def L (port state : Nat) : Hub := r.put (pRport port) RPORT.STAT_STATE state
def T (state : Nat) : Hub := r.put pTime TIME.STAT_STATE state
def rejoinedHub : Hub := { (((L 0 4).put pSys SYS.MODE_CUR Mode.islanded.code).put pTime TIME.STAT_STATE 2) with sys := { r.sys with rejoined := true }, atr := { r.atr with sampledAt := some 0 } }
def ungating3 : Hub := { r with sys := { r.sys with ungating := [3] } }
/-- A hub in which another command of the edge has asked for Armed, which a mode request of less rank does not outrank (R69). -/
def outdone (h : Hub) : Hub := { h with edge := { h.edge with groups := [1], more := true, want := some (.armed, 0) } }
def started : Hub := { r with sys := { r.sys with startup := 0 } }
def besideFive : Hub := (L 0 4).setPort 0 (fun p => { p with peerKa := true, peerSrc := 5 })
def anInstant : Nat := 0

/-! The ring -/
def etherUp : Hub := (r.put pEth ETH.STAT_LINK 1).putCfg pEth PG.CTRL_EN 1
def blankFrame : Frame := {}
def helloFrame : Frame := { cls := .link, hdr := { type := 0x30, len := 24 }, payload := [1, 0xC0, 0, 0, 9] }
def leavingFrame : Frame := { cls := .link, payload := [0x80] }
def ann (n : Nat) : Frame := { hdr := { type := 0x10, src := 5 }, payload := List.replicate 18 0 ++ [BitVec.ofNat 8 n] ++ List.replicate 20 0 }
def typed (t : Nat) : Frame := { hdr := { type := t, src := 9 } }
def holdHub : Hub := { r with sw := { r.sw with queues := [(0, [{}])] } }
def etherXt : Hub := { etherUp with sw := { etherUp.sw with express := [(4, [{}])] } }
def localXt : Hub := { r with sw := { r.sw with express := [(8, [{}])] } }
def mgmt : Hub := r.putCfg (pRport 0) RPORT.CFG_SFP_MGMT 1

/-! Tracks -/
def quadSource : Hub := ((r.putCfg (pTrk 0) PG.CTRL_EN 1).putCfg (pTrk 0) TRK.CFG_ROLE 1).putCfg (pTrk 0) TRK.SRC_CFG_TYPE 1
def live0 : Hub := (r.setTrack 0 (fun t => { t with newest := some {} })).setTrackState 0 2
def passHub : Hub := { live0.setTrack 0 (fun t => { t with pass := some {} }) with passes := [0] }
def newBind : Nat × Nat × PosBind := (1, 0, {})
def bindHub : Hub := live0.setCh 1 (fun c => { c with queue := [{ pos := some {} }] })
def staleHub : Hub := { (live0.putCfg (pTrk 0) TRK.LIMITS_AGE_LIM 0) with clock := 1000, time := { r.time with fb := 1000 * 2 ^ 24, c := 1000 } }
def staleHub2 : Hub := r

/-! The Atrium -/
def atrOpen : Hub := (r.putCfg pAtr PG.CTRL_EN 1).setAtr (fun a => { a with open_ := some 5, sampled := true, last := some 5 })
def atrClose : Hub := late ((r.putCfg pAtr PG.CTRL_EN 1).setAtr (fun a => { a with open_ := some 0, sampled := true, last := some 0 }))
def slotBytes : List Byte := List.replicate 16 7
def slotFrame : Frame := { hdr := { type := 0x04, src := 9, len := 18, aux := 5 }, payload := slotBytes ++ slotCheck 9 5 slotBytes }
def atrSlots : Hub :=
  let g := ((r.putCfg pAtr PG.CTRL_EN 1).putCfg pAtr (ATR.WIN_CTL_EN 0) 1).putCfg pAtr (ATR.WIN_NODES_FIRST 0) 9
  let g := (g.putCfg pAtr (ATR.WIN_NODES_LAST 0) 9).putCfg pAtr (ATR.WIN_PART_LEN 0) 8
  g.setAtr (fun a => { a with open_ := some 5, sampled := true, last := some 5, layout := g.committed.filter (fun e => e.1.page == pAtr) })

/-! The bridge and the switch -/
def coreUp : Hub := r.put pStw STW.STAT_CORE 2
def bulkAccess : BusAccess := (coreUp.begin.accessOf .secure 0 false 5 true 0 4).getD {}
def answerFrame : Frame := { hdr := { type := 0x0A, src := 9, len := 8, ten := 0, tag := 0 }, payload := List.replicate 8 0 }
def openRead : Hub := r.setSlot 0 { read := some { dst := 9 } }
def heldHub : Hub := { r with brg := { r.brg with held := [(0, typed 0x0C)] } }
def routedFrame : Frame := { hdr := { type := 0x20, src := 9, len := 16, ten := 0 }, payload := List.replicate 16 0 }
def routedHub : Hub := r.putCfg pBrg (routeFld 0 0) 0xC0000000
def tapArrival : Arrival := { ingress := 5, egress := 3, frame := typed 0x01 }
def agedPin : Hub := late { r with sw := { r.sw with pins := [(1, {})] } }
def tunnelFrame : Frame := { cls := .bulk, hdr := { type := 0x18, src := 9, len := 76 }, payload := [60] ++ List.replicate 75 0 }

/-! Channels -/
def bankUp : Hub := (r.put (pBank 0) BANK.STAT_VOK 1).put (pBank 0) BANK.STAT_VCLASS 3
def chMode1 : Hub := r.putCfg (pCh 0) CH.CFG_MODE 1
def chMode2 : Hub := r.putCfg (pCh 0) CH.CFG_MODE 2
def dueE : QEntry × Nat := ({}, 0)
def queuedHub : Hub := r.setCh 0 (fun c => { c with queue := [{}] })
def readsBack : Hub := (bankUp.putCfg (pCh 0) CH.CFG_MODE 1).setCh 0 (fun c => { c with ball := true, waiting := false })

/-! Serial controllers -/
def ssiHub : Hub := (((r.putCfg (pSpi 0) SPI.PINS_A_MISO 0x80).putCfg (pSpi 0) SPI.CLK_ROLE 2).putCfg (pSpi 0) PG.CTRL_EN 1).setSpi (pSpi 0) (fun x => { x with reading := true })
def ssiTrackHub : Hub := (((ssiHub.putCfg (pTrk 0) PG.CTRL_EN 1).putCfg (pTrk 0) TRK.CFG_ROLE 1).putCfg (pTrk 0) TRK.SRC_CFG_TYPE 2).setTrack 0 (fun t => { t with ssiReading := true })
def i2cSlave : Hub := (((r.putCfg (pI2c 0) I2C.PINS_SCL 0x80).putCfg (pI2c 0) I2C.PINS_SDA 0x81).putCfg (pI2c 0) I2C.CFG_ROLE 1).putCfg (pI2c 0) PG.CTRL_EN 1
def spiSlave : Hub := ((r.putCfg (pSpi 0) SPI.PINS_CS_CS3_CS0 0x80).putCfg (pSpi 0) SPI.CLK_ROLE 1).putCfg (pSpi 0) PG.CTRL_EN 1

/-! Prism engines -/
def prsReady : Hub := (r.put (pPrs 0) PRS.STAT_STATE 1).put (pPrs 0) PRS.PROG_LEN 1
def prsAt (w : Nat) : Hub := { ((r.put (pPrs 0) PRS.STAT_STATE 3).put (pPrs 0) PRS.PROG_LEN 1) with prsMem := Mem.setWord [] 0 4 w }
def pinHigh : Hub := (((prsAt 0x70200000).putCfg (pPrs 0) PRS.PINS_A_PIN0 0x80)).setCh 0 (fun c => { c with filt := true })
def waits (x : PrsWait) : Hub :=
  late (((r.put (pPrs 0) PRS.STAT_STATE 3).put (pPrs 0) PRS.PROG_LEN 1).setEng 0 (fun e => { e with wait := x, ticks := 1 }))
def dueSlot : Slot := {}
def armpHub : Hub := (prsAt 0xA4000000).putCfg (pTrk 0) PG.CTRL_EN 1
def tnowHub : Hub := ((prsAt 0xB4000000).putCfg (pTrk 0) PG.CTRL_EN 1).setTrack 0 (fun t => { t with newest := some {} })

/-! CAN -/
def canSend : Hub := (r.put (pCan 0) CAN.STAT_STATE 2).setObjWord 0 0 0 0x10000000
def canTake : Hub := (r.put (pCan 0) CAN.STAT_STATE 2).setObjWord 0 0 0 0x20000000
def canOwned : Hub := (r.put (pCan 0) CAN.STAT_STATE 2).setObjWord 0 0 0 0x90000000
def canPending : Hub := ((r.put (pCan 0) CAN.STAT_STATE 2).setObjWord 0 0 0 0x91000000).setCan 0 (fun c => { c with order := [0] })

/-! The host port and the mailboxes -/
def pcieUp : Hub := ((r.put pHost HOST.STAT_IF 1).put pHost HOST.STAT_LINK_UP 1).putCfg pHost PG.CTRL_EN 1
def qspiUp : Hub := (r.put pHost HOST.STAT_IF 2).putCfg pHost PG.CTRL_EN 1
def qpRun : Hub := r.put pHost (HOST.QP_STAT_STATE 0) 1
def aDesc (op : Nat) : Desc := { words := [op * 2 ^ 28 + 64, 5] }
def qpDesc (op : Nat) : Hub := qpRun.setQp 0 { descs := [aDesc op] }
def msixReady : Hub :=
  let g := (pcieUp.put pHost HOST.STAT_BME 1).put pHost HOST.VPEND_LO_PEND 1
  { g with host := { g.host with config := [(0x53, some 0x80)] } }
def mailOn : Hub := (((r.putCfg pMbx (MBX.CFG_EN 0) 1).putCfg pMbx (MBX.CFG_WRITER 0) 9).putCfg pMbx (MBX.CFG_READER 0) 8)
def mailFull : Hub := mailOn.put pMbx (MBX.STAT_FULL 0) 1
def mailHost : Hub := (mailFull.put pHost HOST.STAT_IF 1).put pHost HOST.STAT_LINK_UP 1

/-! Zones -/
def zoneUp : Hub := r
def Z (state : Nat) : Hub := zoneUp.put (pZone 0) ZONE.STAT_STATE state
def zoneOver : Hub := ((Z 3).putCfg (pZone 0) ZONE.ILIM_TRIP_T 0).putCfg (pZone 0) ZONE.ILIM_MA 100
def zoneQuietUp : Hub := zoneUp.setZone 0 (fun x => { x with shunts := List.replicate 64 3 })
def vinGood : Hub := zoneUp.setZone 0 (fun x => { x with vinMv := 24000, inAt := some 0 })
def damagedOut : Hub := (zoneUp.putCfg (pZone 0) ZONE.CFG_DMG_CHK 3).setZone 0 (fun x => { x with vinOk := true, vinMv := 24000, voutMv := 23000, overAt := some 0 })

/-! The Steward, updates, self-test -/
def annexOn : Hub := coreUp.put pStw STW.STAT_ANX_STATE 2
def jobOf (op : CopOp) : CopJob := { op := op, annex := false, key := 0, start := 0, outcome := none }
def J (op : CopOp) : Hub := { coreUp with stw := { coreUp.stw with cop := some (jobOf op) } }
def callE (code req : Nat) (args : List Byte) : SvcCall := { path := .ecall sramBase, code := code, req := req, args := args, good := true }
def C (c : SvcCall) : Hub := { (coreUp.put pStw STW.STAT_READY 1) with stw := { coreUp.stw with calls := [c] } }
def serviceBytes : List Byte := List.replicate 12 0 ++ [0x88, 0xB7, 1, 0] ++ List.replicate 14 0
def callFrame : Frame := { cls := .bulk, hdr := { type := 0x19, src := 9, ten := 0, len := 16 }, payload := List.replicate 16 0 }
def replyFrame : Frame := { cls := .bulk, hdr := { type := 0x19, src := 9, ten := 0, len := 16 }, payload := [0, 0, 0, 0, 1] ++ List.replicate 11 0 }
def dataArgs : List Byte := [0, 0, 0, 0, 4, 0, 0, 0, 1, 2, 3, 4]
def landed (h : Hub) : Hub := (((h.put pSys SYS.MODE_CUR Mode.maintenance.code).setLanding 1).put pUpd UPD.LAND_LEN_BLOCKS 1).put pUpd UPD.LAND_OWNER_REQ 8
def trialHub (c : SvcCall) : Hub :=
  let g := (C c).writeRecord (fun q => { q.setSlot 0 2 with active := 0 })
  { g with upd := { g.upd with boot := some { slot := 0, trial := true } } }
def confirmable (h : Hub) : Hub := { h with upd := { h.upd with runSince := some 0 } }
def unitTestable : Hub := (((C (callE 0x201 8 [0x3C, 0, 1, 0])).put pSys SYS.MODE_CUR Mode.maintenance.code).putCfg pBist PG.CTRL_EN 1).put 0x3C PG.STAT_FENCED 1

/-! ### The hypotheses of the completion statements are met -/

/-- Every hypothesis of RegisterCommandsComplete is met: one state and operands for each clause that has any. -/
theorem witness_register_commands_complete :
  (∃ (s : State) (req : Req) (page off size : Nat) (k : Kind), s.awake ∧ ¬
    (page = pSys ∧ off = 0x084) ∧ s.found.turnedAway req page off size = none ∧ kindOf page = some k) ∧
  (∃ (s : State) (req : Req) (page : Nat), s.awake ∧ s.admits req page 0x008) ∧
  (∃ (s : State) (req : Req) (page value : Nat), s.awake ∧ s.admits req page 0x008 ∧ value % 256 ≠ 0xE7) ∧
  (∃ (s : State) (req : Req) (page : Nat), s.awake ∧ s.admits req page 0x008 ∧ page ≠ pSys ∧ page ≠ pLc ∧ page ≠ pStw ∧
    (page ≠ pBist ∨ s.found.on pBist BIST.UNIT_BUSY = false)) ∧
  (∃ (s : State) (req : Req) (page : Nat), s.awake ∧ s.admits req page 0x008 ∧ page = pBist ∧ s.found.on pBist BIST.UNIT_BUSY = true) ∧
  (∃ (s : State) (req : Req) (page : Nat), s.awake ∧ s.admits req page 0x010) ∧
  (∃ (s : State) (req : Req) (page active : Nat), s.awake ∧ s.admits req page 0x01C ∧ active = 0) ∧
  (∃ (s : State) (req : Req) (page : Nat), s.awake ∧ s.admits req page 0x024 ∧ s.found.commitBusy = false) :=
  ⟨⟨of (r), .secure, pTime, 0x050, 4, .time, by decide +kernel⟩,
   ⟨of (r), .secure, pTime, by decide +kernel⟩,
   ⟨of (r), .secure, pTime, 0, by decide +kernel⟩,
   ⟨of (r), .secure, pTime, by decide +kernel⟩,
   ⟨of (r.put pBist BIST.UNIT_BUSY 1), .secure, pBist, by decide +kernel⟩,
   ⟨of (r), .secure, pTime, by decide +kernel⟩,
   ⟨of (r), .secure, pTime, 0, by decide +kernel⟩,
   ⟨of (r), .secure, pTime, by decide +kernel⟩⟩

/-- Every hypothesis of CommitCommandsComplete is met: one state and operands for each clause that has any. -/
theorem witness_commit_commands_complete :
  (∃ (s : State) (req : Req), s.awake ∧ s.admits req pSys 0x040 ∧ s.found.commitBusy = false ∧ noCommit s.found.mode = false) ∧
  (∃ (s : State) (req : Req), s.awake ∧ s.admits req pSys 0x040 ∧ s.found.commitBusy = false ∧ noCommit s.found.mode = false) ∧
  (∃ (s : State) (req : Req), s.awake ∧ s.admits req pSys 0x040 ∧ s.found.commitBusy = false ∧ noCommit s.found.mode = false ∧ commitTimeOk
    s.found.now s.found.commitTime = true) ∧
  (∃ (s : State) (req : Req), s.awake ∧ s.admits req pSys 0x040 ∧ s.found.commitBusy = false ∧ noCommit s.found.mode = false) ∧
  (∃ (s : State) (req : Req), s.awake ∧ s.admits req pSys 0x040 ∧ s.found.get pSys SYS.COMMIT_STATE_STATE = 2) ∧
  (∃ (s : State) (internalError : Bool), s.awake ∧ s.found.get pSys SYS.COMMIT_STATE_STATE = 1 ∧ internalError = false) ∧
  (∃ (s : State) (internalError : Bool), s.awake ∧ s.found.get pSys SYS.COMMIT_STATE_STATE = 1 ∧ internalError = true) ∧
  (∃ (s : State), s.awake ∧ s.found.get pSys SYS.COMMIT_STATE_STATE = 2) ∧
  (∃ (s : State), s.awake ∧ s.found.get pSys SYS.COMMIT_STATE_STATE = 1 ∧ s.found.sys.commitCmd = 3) :=
  ⟨⟨of (r), .secure, by decide +kernel⟩,
   ⟨of (r), .secure, by decide +kernel⟩,
   ⟨of (r.put pSys SYS.COMMIT_TIME_LO_TLO 1000000000), .secure, by decide +kernel⟩,
   ⟨of (r), .secure, by decide +kernel⟩,
   ⟨of (r.put pSys SYS.COMMIT_STATE_STATE 2), .secure, by decide +kernel⟩,
   ⟨of (r.put pSys SYS.COMMIT_STATE_STATE 1), false, by decide +kernel⟩,
   ⟨of (r.put pSys SYS.COMMIT_STATE_STATE 1), true, by decide +kernel⟩,
   ⟨of (r.put pSys SYS.COMMIT_STATE_STATE 2), by decide +kernel⟩,
   ⟨of (cmd3), by decide +kernel⟩⟩

/-- Every hypothesis of ModeRequestsComplete is met: one state and operands for each clause that has any. -/
theorem witness_mode_requests_complete :
  (∃ (s : State) (req : Req), s.awake ∧ s.grants req 1 ∧ (s.found.requestNoted 1).outranked = false) ∧
  (∃ (s : State) (req : Req), s.awake ∧ s.grants req 1 ∧ (s.found.requestNoted 1).outranked = true) ∧
  (∃ (s : State) (req : Req), s.awake ∧ s.grants req 2) ∧
  (∃ (s : State) (req : Req), s.awake ∧ s.grants req 3 ∧ (s.found.requestNoted 3).outranked = false) ∧
  (∃ (s : State) (req : Req), s.awake ∧ s.grants req 3 ∧ (s.found.requestNoted 3).outranked = true) ∧
  (∃ (s : State) (req : Req), s.awake ∧ s.grants req 4 ∧ (s.found.requestNoted 4).outranked = false) ∧
  (∃ (s : State) (req : Req), s.awake ∧ s.grants req 4 ∧ (s.found.requestNoted 4).outranked = true) ∧
  (∃ (s : State) (req : Req), s.awake ∧ s.grants req 5) ∧
  (∃ (s : State) (req : Req), s.awake ∧ s.grants req 6 ∧ (s.found.requestNoted 6).outranked = false) ∧
  (∃ (s : State) (req : Req), s.awake ∧ s.grants req 6 ∧ (s.found.requestNoted 6).outranked = true) ∧
  (∃ (s : State) (req : Req), s.awake ∧ s.grants req 7) :=
  ⟨⟨of (r.put pSys SYS.MODE_CUR Mode.held.code), .secure, by decide +kernel⟩,
   ⟨of (outdone (r.put pSys SYS.MODE_CUR Mode.held.code)), .secure, by decide +kernel⟩,
   ⟨of (r), .secure, by decide +kernel⟩,
   ⟨of (r.put pSys SYS.MODE_CUR Mode.maintenance.code), .secure, by decide +kernel⟩,
   ⟨of (outdone (r.put pSys SYS.MODE_CUR Mode.maintenance.code)), .secure, by decide +kernel⟩,
   ⟨of (r.put pSys SYS.MODE_CUR Mode.held.code), .secure, by decide +kernel⟩,
   ⟨of (outdone (r.put pSys SYS.MODE_CUR Mode.held.code)), .secure, by decide +kernel⟩,
   ⟨of (r), .secure, by decide +kernel⟩,
   ⟨of (testable), .secure, by decide +kernel⟩,
   ⟨of (outdone (testable)), .secure, by decide +kernel⟩,
   ⟨of (r), .secure, by decide +kernel⟩⟩

/-- Every hypothesis of ModeEventsComplete is met: one state and operands for each clause that has any. -/
theorem witness_mode_events_complete :
  (∃ (s : State), s.awake ∧ s.found.armUnmet = 0 ∧ s.found.armInstant = true ∧ s.found.mode = .armed ∧ s.found.anyFence = false) ∧
  (∃ (s : State), s.awake ∧ s.found.armUnmet = 0 ∧ s.found.armInstant = true ∧ s.found.mode = .armed ∧ s.found.anyFence = true) ∧
  (∃ (s : State), s.awake ∧ s.found.mode = .armed) ∧
  (∃ (s : State), s.awake ∧ s.found.ringLost = true ∧ (s.found.mode = .running ∨ s.found.mode = .degraded)) ∧
  (∃ (s : State), s.awake ∧ s.found.mode = .islanded ∧ s.found.ringJoined = true ∧ s.found.mainValid = true ∧ s.found.sys.rejoined = true ∧
    s.found.samplesNow = true ∧ s.found.anyFence = false) ∧
  (∃ (s : State) (domain : Supply), s.found.present domain = false) ∧
  (∃ (s : State) (domain : Supply), s.found.present domain = true) ∧
  (∃ (s : State) (event : Wake), s.found.mode = .shelf ∧ (s.found.noteSlot event).wakeQualifies event = true ∧ (s.found.noteSlot event).wakeEnabled event = true) ∧
  (∃ (s : State), s.powered ∧ s.found.mode = .waking ∧ s.found.sys.startup = 2 ∧ s.found.corePresent = true) ∧
  (∃ (s : State) (is25 : Bool), s.powered ∧ is25 = true ∧ s.found.mode = .waking ∧ s.found.sys.startup = 3 ∧ s.found.corePresent = true ∧ s.found.sys.rstLow = false) ∧
  (∃ (s : State) (is25 : Bool), s.powered ∧ is25 = false) ∧
  (∃ (s : State), s.powered ∧ s.found.mode = .waking ∧ s.found.sys.startup = 4 ∧ s.found.corePresent = true) ∧
  (∃ (s : State), s.powered ∧ s.found.on pSys SYS.CLK_STAT_REF25 = true ∧ s.found.on pSys SYS.CLK_STAT_REF156 = true) ∧
  (∃ (s : State), s.powered ∧ s.found.get pSys SYS.CLK_STAT_REF25 = 0 ∧ s.found.on pSys SYS.CLK_STAT_REF156 = true) ∧
  (∃ (s : State), s.powered ∧ s.found.on pSys SYS.CLK_STAT_REF156 = true ∧ s.found.on pSys SYS.CLK_STAT_REF25 = true) ∧
  (∃ (s : State), s.powered ∧ s.found.mode ≠ .shelf) ∧
  (∃ (s : State) (pll : Nat), s.awake ∧ s.found.on pSys (if s.found.on pSys SYS.CLK_STAT_REF_SRC then SYS.CLK_STAT_REF156 else SYS.CLK_STAT_REF25) = true ∧ pll = 0) ∧
  (∃ (s : State), s.found.mode ≠ .shelf) ∧
  (∃ (s : State), s.awake) ∧
  (∃ (s : State), s.powered ∧ s.found.mode = .waking ∧ s.found.sys.startup = 3 ∧ s.found.corePresent = true ∧ s.found.sys.rstLow = false ∧
    s.found.get pSys SYS.CLK_STAT_REF25 = 0 ∧ s.found.on pSys SYS.CLK_STAT_REF156 = true) ∧
  (∃ (s : State), s.found.mode = .waking ∧ s.found.sys.startup = 3 ∧ s.found.corePresent = true ∧ s.found.on pSys SYS.CLK_STAT_REF25 = true) :=
  ⟨⟨of (armedMet), by decide +kernel⟩,
   ⟨of (armedMet.put pTherm PG.STAT_FENCED 1), by decide +kernel⟩,
   ⟨of (r.put pSys SYS.MODE_CUR Mode.armed.code), by decide +kernel⟩,
   ⟨of (r), by decide +kernel⟩,
   ⟨of (rejoinedHub), by decide +kernel⟩,
   ⟨of (r.put pSys SYS.SUPPLY_STAT_DOM 0), .fp, by decide +kernel⟩,
   ⟨of (r.put pSys SYS.SUPPLY_STAT_DOM 0x1FF), .fp, by decide +kernel⟩,
   ⟨of ((z.put pSys SYS.MODE_CUR Mode.shelf.code).put pSys SYS.KA_CFG_WAKE_PIN 1), .pin, by decide +kernel⟩,
   ⟨of (wakes 2), by decide +kernel⟩,
   ⟨of (wakes 3), true, by decide +kernel⟩,
   ⟨of (z), false, by decide +kernel⟩,
   ⟨of (wakes 4), by decide +kernel⟩,
   ⟨of (r), by decide +kernel⟩,
   ⟨of (r.put pSys SYS.CLK_STAT_REF25 0), by decide +kernel⟩,
   ⟨of (r), by decide +kernel⟩,
   ⟨of (r), by decide +kernel⟩,
   ⟨of (started), 0, by decide +kernel⟩,
   ⟨of (r), by decide +kernel⟩,
   ⟨of (r), by decide +kernel⟩,
   ⟨of ((wakes 3).put pSys SYS.CLK_STAT_REF25 0), by decide +kernel⟩,
   ⟨of (wakes 3), by decide +kernel⟩⟩

/-- Every hypothesis of GateCommandsComplete is met: one state and operands for each clause that has any. -/
theorem witness_gate_commands_complete :
  (∃ (s : State) (req : Req), s.awake ∧ s.admits req pSys 0x0DC) ∧
  (∃ (s : State) (req : Req), s.awake ∧ s.admits req pSys 0x0E0 ∧ req = .secure) ∧
  (∃ (s : State) (group : Nat), s.awake ∧ group < 12 ∧ s.found.gateWanted group ≠ 0 ∧ s.found.gateHeld group = false ∧ s.found.gateUnitsIdle group = true) ∧
  (∃ (s : State) (group : Nat), s.awake ∧ s.found.sys.ungating.contains group = true) :=
  ⟨⟨of (r), .secure, by decide +kernel⟩,
   ⟨of (r), .secure, by decide +kernel⟩,
   ⟨of ((r.put pSys SYS.GATE_REQ_REQ 64).put pSys SYS.GATE_HOLD_HOLD 0), 3, by decide +kernel⟩,
   ⟨of (ungating3), 3, by decide +kernel⟩⟩

/-- Every hypothesis of RingReceptionCompletes is met: one state and operands for each clause that has any. -/
theorem witness_ring_reception_completes :
  (∃ (s : State) (port : Nat), s.awake ∧ port < 2) ∧
  (∃ (s : State) (port : Nat) (bad : Bool) (own : List Byte) (e : QFrame × Hub), s.awake ∧ port = 2 ∧ s.found.etherFree = true ∧ own = [] ∧
    s.found.nextXt 2 ≠ none ∧ bad = false ∧ s.found.takeLocal 2 = some e) ∧
  (∃ (s : State) (port : Nat) (own : List Byte), s.awake ∧ port = 2 ∧ s.found.etherFree = true ∧ s.found.etherOpen = true ∧ own ≠ []) ∧
  (∃ (s : State) (port : Nat) (bad : Bool) (e : QFrame × Hub), s.awake ∧ 2 < port ∧ port < 8 ∧ s.found.takeLocal port = some e ∧ bad = false) ∧
  (∃ (s : State) (port sd : Nat) (lane4 : Bool) (c : Cls), s.awake ∧ port < 2 ∧ s.found.link port ≠ 0 ∧ lane4 = false ∧ sdOf sd = some (.frame c) ∧
    (s.found.port port).spoilAt = none) ∧
  (∃ (s : State) (port : Nat) (lane4 : Bool), s.awake ∧ port < 2 ∧ s.found.link port ≠ 0 ∧ lane4 = true) ∧
  (∃ (s : State) (port sd m : Nat) (o : OpenRx), s.awake ∧ port < 2 ∧ s.found.link port ≠ 0 ∧ sdOf sd = some (.continuation m) ∧
    (s.found.port port).rxOpen = some o ∧ (s.found.port port).spoilAt = none ∧ o.next % 4 = m) ∧
  (∃ (s : State) (port sd m : Nat), s.awake ∧ port < 2 ∧ s.found.link port ≠ 0 ∧ sdOf sd = some (.continuation m) ∧ (s.found.port port).rxOpen = none) ∧
  (∃ (s : State) (port : Nat) (los : Bool), s.awake ∧ port < 2 ∧ (s.found.noteLos port los).1.link port = 1 ∧ (s.found.noteLos port los).2 = false ∧
    (s.found.noteLos port los).1.ringWorks = true) ∧
  (∃ (s : State) (port : Nat), s.awake ∧ s.found.link port = 1 ∧ s.found.cfg (pRport port) RPORT.CFG_RATE = 0) ∧
  (∃ (s : State) (port : Nat), s.awake ∧ s.found.link port = 2 ∧ s.found.ringWorks = true) ∧
  (∃ (s : State) (port : Nat), s.awake ∧ s.found.link port = 5 ∧ s.found.ringWorks = true) ∧
  (∃ (s : State) (port : Nat), s.awake ∧ s.found.link port = 2) ∧
  (∃ (s : State) (port : Nat), s.awake ∧ (s.found.link port = 3 ∨ s.found.link port = 7)) ∧
  (∃ (s : State) (port : Nat) (frame : Frame), s.awake ∧ s.found.link port = 3 ∧ (s.found.notePeer port frame).refusal port frame = 0 ∧ 3 ≤
    ((s.found.notePeer port frame).port port).hellos + 1 ∧ bitOf (frame.field 1 1) 7 = true) ∧
  (∃ (s : State) (port : Nat) (frame : Frame), s.awake ∧ s.found.link port = 3 ∧ (s.found.notePeer port frame).refusal port frame ≠ 0) ∧
  (∃ (s : State) (port : Nat), s.awake ∧ s.found.link port = 3) ∧
  (∃ (s : State) (port : Nat) (los : Bool) (symbols : Nat), s.awake ∧ port < 2 ∧ ((s.found.noteLos port los).1.countSymbols port symbols).link port = 4) ∧
  (∃ (s : State) (port symbols : Nat), s.awake ∧ port < 2 ∧ (s.found.countSymbols port symbols).link port = 4 ∧
    (((s.found.countSymbols port symbols).put (pRport port) RPORT.STAT_HI_BER 1).setLink port 6).get (pRport port) RPORT.STAT_RATE_EFF ≠ 1) ∧
  (∃ (s : State) (port : Nat), s.awake ∧ s.found.link port = 5) ∧
  (∃ (s : State) (port : Nat), s.awake ∧ s.found.link port = 6) ∧
  (∃ (s : State) (port queue : Nat) (e : QFrame) (q : List QFrame), s.awake ∧ port < 2 ∧ queue < 16 ∧
    (s.found.link port ≠ 4 ∨ s.found.portOpen port = false) ∧ Map.getD s.found.sw.queues
    (port * 16 + queue) [] = e :: q ∧ e.since + 50000 * s.found.cfg (pRport port) RPORT.CFG_BULK_HOLD ≤ s.found.clock) ∧
  (∃ (s : State) (port : Nat) (high : Bool), s.awake ∧ port < 2 ∧ high = false) ∧
  (∃ (s : State) (port : Nat) (high : Bool), s.awake ∧ port < 2 ∧ (s.found.put (pRport port) RPORT.STAT_SFP_TXFAULT 1).cfgOn
    (pRport port) RPORT.CFG_SFP_MGMT = true ∧ high = true ∧ (s.found.put (pRport port) RPORT.STAT_SFP_TXFAULT 1).link port ≠ 4) ∧
  (∃ (s : State) (port : Nat) (absent : Bool), s.awake ∧ port < 2 ∧ absent = true ∧ (s.found.modulePulled port).cfgOn (pRport port) RPORT.CFG_SFP_MGMT = true) ∧
  (∃ (s : State) (port : Nat) (absent acknowledged : Bool), s.awake ∧ port < 2 ∧ absent = false ∧ (s.found.put
    (pRport port) RPORT.STAT_SFP_PRESENT 1).cfgOn (pRport port) RPORT.CFG_SFP_MGMT = true ∧ acknowledged = true) ∧
  (∃ (s : State) (port : Nat) (acknowledged : Bool), s.awake ∧ port < 2 ∧ s.found.modulePresent port = true ∧ bitOf (Mem.read
    (s.found.port port).a0 92).toNat 6 = true ∧ acknowledged = true) ∧
  (∃ (s : State) (port : Nat), s.awake ∧ port < 2 ∧ (s.found.link port = 4 ∨ s.found.link port = 5)) ∧
  (∃ (s : State) (port : Nat) (frame : Frame), s.awake ∧ port < 2 ∧ (s.found.link port = 4 ∨ s.found.link port = 5) ∧ bitOf (frame.field 0 1) 7 = true) ∧
  (∃ (s : State) (port : Nat) (frame : Frame), s.awake ∧ port < 2 ∧ (s.found.link port = 4 ∨ s.found.link port = 5) ∧ bitOf (frame.field 0 1) 7 = false) ∧
  (∃ (s : State) (port : Nat), s.awake ∧ s.found.link port = 4) ∧
  (∃ (s : State) (port : Nat), s.awake ∧ port < 2 ∧ s.found.on pSys SYS.CLK_STAT_REF156 = true) :=
  ⟨⟨of (r), 0, by decide +kernel⟩,
   ⟨of (etherXt), 2, false, [], (etherXt.begin.takeLocal 2).getD ({}, z), by decide +kernel⟩,
   ⟨of (etherUp), 2, [1], by decide +kernel⟩,
   ⟨of (localXt), 4, false, (localXt.begin.takeLocal 4).getD ({}, z), by decide +kernel⟩,
   ⟨of (L 0 4), 0, 0x3C, false, .express, by decide +kernel⟩,
   ⟨of (L 0 4), 0, true, by decide +kernel⟩,
   ⟨of ((L 0 4).setPort 0 (fun p => { p with rxOpen := some { bytes := [], next := 1 } })), 0, 0x33, 1, { bytes := [], next := 1 }, by decide +kernel⟩,
   ⟨of (L 0 4), 0, 0x33, 1, by decide +kernel⟩,
   ⟨of (L 0 1), 0, false, by decide +kernel⟩,
   ⟨of (L 0 1), 0, by decide +kernel⟩,
   ⟨of (L 0 2), 0, by decide +kernel⟩,
   ⟨of (L 0 5), 0, by decide +kernel⟩,
   ⟨of (L 0 2), 0, by decide +kernel⟩,
   ⟨of (L 0 3), 0, by decide +kernel⟩,
   ⟨of ((L 0 3).setPort 0 (fun p => { p with hellos := 2 })), 0, helloFrame, by decide +kernel⟩,
   ⟨of (L 1 3), 1, helloFrame, by decide +kernel⟩,
   ⟨of (L 0 3), 0, by decide +kernel⟩,
   ⟨of (L 0 4), 0, true, 3, by decide +kernel⟩,
   ⟨of (L 0 4), 0, 0, by decide +kernel⟩,
   ⟨of (L 0 5), 0, by decide +kernel⟩,
   ⟨of (L 0 6), 0, by decide +kernel⟩,
   ⟨of (late holdHub), 0, 0, {}, [], by decide +kernel⟩,
   ⟨of (mgmt), 0, false, by decide +kernel⟩,
   ⟨of (mgmt), 0, true, by decide +kernel⟩,
   ⟨of (mgmt), 0, true, by decide +kernel⟩,
   ⟨of (mgmt), 0, false, true, by decide +kernel⟩,
   ⟨of ((mgmt.put (pRport 0) RPORT.STAT_SFP_PRESENT 1).setPort 0 (fun p => { p with a0 := [(92, 64)] })), 0, true, by decide +kernel⟩,
   ⟨of (L 0 4), 0, by decide +kernel⟩,
   ⟨of (L 0 4), 0, leavingFrame, by decide +kernel⟩,
   ⟨of (L 0 4), 0, blankFrame, by decide +kernel⟩,
   ⟨of (L 0 4), 0, by decide +kernel⟩,
   ⟨of (r), 0, by decide +kernel⟩⟩

/-- Every hypothesis of TopologyEventsComplete is met: one state and operands for each clause that has any. -/
theorem witness_topology_events_complete :
  (∃ (s : State) (id : Nat), s.awake ∧ s.found.get pTopo TOPO.STAT_ID_STATE ≠ 3 ∧ s.found.numberless = true ∧ s.found.candidate = some id) ∧
  (∃ (s : State), s.awake ∧ s.found.numberless = true ∧ s.found.mode.forwards = true ∧ s.found.ownSeedOnly 0 = true ∧ s.found.ownSeedOnly 1 = true) ∧
  (∃ (s : State) (id : Nat), s.awake ∧ s.found.get pTopo TOPO.STAT_ID_STATE = 3 ∧ s.found.numberless = true ∧ s.found.candidate = some id) ∧
  (∃ (s : State), s.awake) ∧
  (∃ (s : State) (port : Nat) (frame : Frame), s.awake ∧ port < 2 ∧ frame.hdr.type = 0x10 ∧ frame.field 18 1 = 1 ∧ frame.hdr.src ≠ 0 ∧ frame.hdr.src
    ≤ 4094 ∧ frame.hdr.src ≠ s.found.nodeId) ∧
  (∃ (s : State) (port : Nat) (frame : Frame), s.awake ∧ port < 2 ∧ frame.hdr.type = 0x10 ∧ frame.field 18 1 = 2 ∧ frame.hdr.src ≠ 0 ∧ frame.hdr.src
    ≤ 4094 ∧ frame.hdr.src ≠ s.found.nodeId) ∧
  (∃ (s : State) (port : Nat) (frame : Frame), s.awake ∧ port < 2 ∧ frame.hdr.type = 0x10 ∧ frame.field 18 1 = 3 ∧ frame.hdr.src ≠ 0 ∧ frame.hdr.src
    ≤ 4094 ∧ frame.hdr.src ≠ s.found.nodeId) ∧
  (∃ (s : State) (port : Nat) (frame : Frame), s.awake ∧ port < 2 ∧ frame.hdr.type = 0x10 ∧ frame.field 18 1 = 4 ∧ frame.hdr.src ≠ 0 ∧ frame.hdr.src
    ≤ 4094 ∧ frame.hdr.src ≠ s.found.nodeId ∧ namedPort frame = port) ∧
  (∃ (s : State) (port : Nat) (frame : Frame), s.awake ∧ port < 2 ∧ frame.hdr.type = 0x10 ∧ frame.field 18 1 = 5 ∧ frame.hdr.src ≠ 0 ∧ frame.hdr.src
    ≤ 4094 ∧ frame.hdr.src ≠ s.found.nodeId ∧ frame.field 28 8 ≤ ((s.found.inc pTopo TOPO.EVENTS_HEALS).refreshMember port frame).now) ∧
  (∃ (s : State) (id port : Nat) (m : Member), s.awake ∧ s.found.member id = some m ∧ port = 0) ∧
  (∃ (s : State) (port : Nat), s.awake ∧ port < 2 ∧ s.found.link port = 4 ∧ s.found.portOpen port = false ∧
    (s.found.port port).peerLeaving = false ∧ Map.find s.found.topo.healAt port = none ∧ s.found.fenced pSw = false) ∧
  (∃ (s : State) (sender port : Nat), s.awake ∧ sender = s.found.nodeId ∧
    (Map.find s.found.topo.healAt port).isSome = true ∧ s.found.link port = 4 ∧ s.found.fenced pSw = false) ∧
  (∃ (s : State), s.awake) ∧
  (∃ (s : State) (req : Req), s.awake ∧ s.admits req pTopo 0x058) :=
  ⟨⟨of (besideFive), 4, by decide +kernel⟩,
   ⟨of (r), by decide +kernel⟩,
   ⟨of (besideFive.put pTopo TOPO.STAT_ID_STATE 3), 4, by decide +kernel⟩,
   ⟨of (r), by decide +kernel⟩,
   ⟨of (r), 0, ann 1, by decide +kernel⟩,
   ⟨of (r), 0, ann 2, by decide +kernel⟩,
   ⟨of (r), 0, ann 3, by decide +kernel⟩,
   ⟨of (r), 0, ann 4, by decide +kernel⟩,
   ⟨of (r), 0, ann 5, by decide +kernel⟩,
   ⟨of (r.setTopo (fun t => { t with members := Map.set t.members 5 {} })), 5, 0, {}, by decide +kernel⟩,
   ⟨of (L 0 4), 0, by decide +kernel⟩,
   ⟨of ((L 0 4).setTopo (fun t => { t with healAt := [(0, 5)] })), 0, 0, by decide +kernel⟩,
   ⟨of (r), by decide +kernel⟩,
   ⟨of (r), .secure, by decide +kernel⟩⟩

/-- Every hypothesis of RingTimeCommandsComplete is met: one state and operands for each clause that has any. -/
theorem witness_ring_time_commands_complete :
  (∃ (s : State) (port : Nat), s.awake ∧ port < 2 ∧ s.found.link port = 4) ∧
  (∃ (s : State) (port : Nat), s.awake ∧ port < 2 ∧ s.found.link port = 4) ∧
  (∃ (s : State) (port : Nat) (frame : Frame) (id : Nat) (t1 : Int), s.awake ∧ (s.found.port port).pd.waiting = some
    (id, t1) ∧ port < 2 ∧ s.found.link port = 4 ∧ frame.field 0 2 = id) ∧
  (∃ (s : State) (port : Nat) (x : Nat × Int), s.awake ∧ (s.found.port port).pd.waiting = some x) ∧
  (∃ (s : State), s.awake ∧ s.found.timeState = 3) ∧
  (∃ (s : State) (port : Nat) (frame : Frame) (d : Int), s.awake ∧ s.found.dIn port = some d ∧ s.found.pllHeld = false ∧ s.found.ignoresRank
    (frame.field 9 1, frame.field 20 16) = false) ∧
  (∃ (s : State) (port : Nat), s.awake ∧ s.found.dIn port = none) ∧
  (∃ (s : State), s.awake ∧ s.found.timeState = 1) ∧
  (∃ (s : State), s.awake ∧ (s.found.timeState = 2 ∨ s.found.timeState = 5)) ∧
  (∃ (s : State), s.awake ∧ s.found.timeCandidate = true ∧ (s.found.timeState = 0 ∨ s.found.timeState = 2 ∨ s.found.timeState = 4 ∧ s.found.pllHeld = false)) ∧
  (∃ (s : State), s.awake ∧ s.found.timeState ≠ 2 ∧ s.found.timeState ≠ 3) ∧
  (∃ (s : State), s.awake ∧ s.found.mainInUse = true) ∧
  (∃ (s : State) (req : Req), s.awake ∧ s.admitsRead req pTime 0x048) ∧
  (∃ (s : State) (req : Req) (value : Nat), s.awake ∧ s.admits req pTime 0x064 ∧ fbIncOk value = true) :=
  ⟨⟨of (L 0 4), 0, by decide +kernel⟩,
   ⟨of (L 0 4), 0, by decide +kernel⟩,
   ⟨of ((L 0 4).setPd 0 (fun q => { q with waiting := some (0, 0) })), 0, blankFrame, 0, 0, by decide +kernel⟩,
   ⟨of (r.setPd 0 (fun q => { q with waiting := some (0, 0) })), 0, (0, 0), by decide +kernel⟩,
   ⟨of (T 3), by decide +kernel⟩,
   ⟨of (r.setPd 0 (fun q => { q with accepted := 16, values := [0] })), 0, blankFrame, 0, by decide +kernel⟩,
   ⟨of (r), 0, by decide +kernel⟩,
   ⟨of (T 1), by decide +kernel⟩,
   ⟨of (T 2), by decide +kernel⟩,
   ⟨of ((T 2).putCfg pTime TIME.CFG_PRIO 5), by decide +kernel⟩,
   ⟨of (T 4), by decide +kernel⟩,
   ⟨of (T 2), by decide +kernel⟩,
   ⟨of (r), .secure, by decide +kernel⟩,
   ⟨of (r), .secure, 33554432, by decide +kernel⟩⟩

/-- Every hypothesis of TrackCommandsComplete is met: one state and operands for each clause that has any. -/
theorem witness_track_commands_complete :
  (∃ (s : State) (track : Nat), s.awake ∧ track < 16 ∧ s.found.sourceRuns track = true ∧ s.found.sampleDue track = true ∧
    (s.found.track track).ssiReading = false ∧ (s.found.gridNoted track).cfg (pTrk track) TRK.SRC_CFG_TYPE = 1) ∧
  (∃ (s : State) (track : Nat), s.awake ∧ track < 16 ∧ s.found.sourceRuns track = true ∧ s.found.sampleDue track = true ∧
    (s.found.track track).ssiReading = false ∧ (s.found.gridNoted track).cfg (pTrk track) TRK.SRC_CFG_TYPE = 2) ∧
  (∃ (s : State), s.awake) ∧
  (∃ (s : State) (track : Nat) (smp : Sample), s.awake ∧ (s.found.track track).pass = some smp ∧ s.found.passes.head? = some track ∧ s.found.trackState track = 3) ∧
  (∃ (s : State) (track : Nat) (smp : Sample), s.awake ∧ (s.found.track track).pass = some smp ∧ s.found.passes.head? = some track ∧ s.found.passConverts track = true) ∧
  (∃ (s : State) (owner number : Nat) (e : Nat × Nat × PosBind) (smp : Sample), s.awake ∧ s.found.binds.find?
    (fun e => e.1 == owner && e.2.1 == number && e.2.2.new) = some e ∧ s.found.conversionSample e.2.2.track = some smp) ∧
  (∃ (s : State) (track : Nat) (a : Int), s.awake ∧ s.found.trackAge track = some a ∧ s.found.trackState track = 2 ∧ s.found.ageLim track < a) ∧
  (∃ (s : State) (track : Nat), s.awake ∧ s.found.trackState track ≠ 2 ∧ s.found.beyondLim2 track = true) ∧
  (∃ (s : State) (req : Req) (track value : Nat), s.awake ∧ s.admits req
    (pTrk track) 0x054 ∧ slice value 16 16 = 0x5E7A ∧ bitOf value 0 = true ∧ s.found.isSource track = true) ∧
  (∃ (s : State) (req : Req) (track : Nat), s.awake ∧ s.admits req (pTrk track) 0x1C4) ∧
  (∃ (s : State) (track profile : Nat) (x : Measure), s.awake ∧ Map.find
    (s.found.track track).open_ profile = some x ∧ s.found.feedbackWindow track profile ≤ tickDiff s.found.now x.firedAt) ∧
  (∃ (s : State) (req : Req) (track : Nat), s.awake ∧ s.admitsRead req (pTrk track) 0x068) ∧
  (∃ (s : State) (req : Req) (track : Nat), s.awake ∧ s.admitsRead req (pTrk track) 0x084) :=
  ⟨⟨of (quadSource), 0, by decide +kernel⟩,
   ⟨of (quadSource.putCfg (pTrk 0) TRK.SRC_CFG_TYPE 2), 0, by decide +kernel⟩,
   ⟨of (r), by decide +kernel⟩,
   ⟨of ({ (r.setTrackState 0 3).setTrack 0 (fun t => { t with pass := some {} }) with passes := [0] }), 0, {}, by decide +kernel⟩,
   ⟨of (passHub), 0, {}, by decide +kernel⟩,
   ⟨of (bindHub), 1, 0, newBind, {}, by decide +kernel⟩,
   ⟨of (staleHub), 0, (staleHub.begin.trackAge 0).getD 0, by decide +kernel⟩,
   ⟨of (staleHub2), 0, by decide +kernel⟩,
   ⟨of (quadSource), .secure, 0, 0x5E7A0001, by decide +kernel⟩,
   ⟨of (r), .secure, 0, by decide +kernel⟩,
   ⟨of (late (r.setTrack 0 (fun t => { t with open_ := [(1, {})] }))), 0, 1, {}, by decide +kernel⟩,
   ⟨of (r), .secure, 0, by decide +kernel⟩,
   ⟨of (r), .secure, 0, by decide +kernel⟩⟩

/-- Every hypothesis of AtriumCommandsComplete is met: one state and operands for each clause that has any. -/
theorem witness_atrium_commands_complete :
  (∃ (s : State) (epoch : Nat), s.awake ∧ s.found.mode.fromTransparent = true ∧ s.found.mayOpen epoch = true ∧ s.found.atrOn = true) ∧
  (∃ (s : State) (epoch : Nat), s.awake ∧ s.found.mode.fromTransparent = true ∧ s.found.mayOpen epoch = true ∧ s.found.atrOn = false) ∧
  (∃ (s : State) (n : Nat), s.awake ∧ s.found.atr.open_ = some n ∧ s.found.closeTick n ≤ s.found.now ∧ s.found.atrOn = true ∧ s.found.fenced pAtr =
    false ∧ s.found.atr.sampled = true) ∧
  (∃ (s : State) (frame : Frame), s.awake ∧ s.found.atrOn = true ∧ s.found.fenced pAtr = false ∧ s.found.openNow.judgeSlot frame = .accept ∧
    s.found.openNow.modeEff ≠ .islanded) ∧
  (∃ (s : State) (frame : Frame), s.awake ∧ s.found.atrOn = true ∧ s.found.fenced pAtr = false ∧ s.found.openNow.judgeSlot frame = .shape) ∧
  (∃ (s : State) (req : Req), s.awake ∧ s.admits req pAtr 0x04C) ∧
  (∃ (s : State) (req : Req) (offset size value : Nat), s.awake ∧
    (size = 1 ∨ size = 2 ∨ size = 4 ∨ size = 8) ∧ offset % size = 0 ∧ offset + size ≤ 1024 ∧ (s.found.writeShadow req offset
    (leBytes size value)).2 = true) ∧
  (∃ (s : State) (req : Req), s.awake ∧ s.admitsRead req pAtr 0x054) :=
  ⟨⟨of (r.putCfg pAtr PG.CTRL_EN 1), 0, by decide +kernel⟩,
   ⟨of (r.putCfg pAtr PG.CTRL_EN 0), 0, by decide +kernel⟩,
   ⟨of (atrClose), 0, by decide +kernel⟩,
   ⟨of (atrSlots), slotFrame, by decide +kernel⟩,
   ⟨of (r.putCfg pAtr PG.CTRL_EN 1), blankFrame, by decide +kernel⟩,
   ⟨of (r), .secure, by decide +kernel⟩,
   ⟨of (r), .secure, 0, 4, 7, by decide +kernel⟩,
   ⟨of (r), .secure, by decide +kernel⟩⟩

/-- Every hypothesis of BridgeCommandsComplete is met: one state and operands for each clause that has any. -/
theorem witness_bridge_commands_complete :
  (∃ (s : State) (req : Req) (n : Nat) (window : Bool) (node : Nat) (bulk : Option Bool) (addr acc : Nat)
    (x : BusAccess), s.awake ∧ s.found.requesterUp req = true ∧ s.found.accessOf req n window node bulk addr (2 ^ (acc % 4)) = some x) ∧
  (∃ (s : State) (req : Req) (n : Nat) (window : Bool) (node : Nat) (bulk : Option Bool) (addr acc : Nat)
    (x : BusAccess), s.awake ∧ s.found.requesterUp req = true ∧ s.found.accessOf req n window node bulk addr (2 ^ (acc % 4)) = some x) ∧
  (∃ (s : State) (frame : Frame), s.awake ∧ frame.hdr.type = 0x08) ∧
  (∃ (s : State) (frame : Frame), s.awake ∧ frame.hdr.type = 0x09) ∧
  (∃ (s : State) (frame : Frame), s.awake ∧ frame.hdr.type = 0x0A ∧ s.found.fenced pBrg = false ∧ s.found.matchedRead frame = none) ∧
  (∃ (s : State) (frame : Frame) (i : Nat) (x : OpenRead), s.awake ∧ frame.hdr.type = 0x0A ∧ s.found.fenced pBrg = false ∧ s.found.matchedRead frame
    = some (i, x) ∧ frame.field 2 2 + 8 = frame.hdr.len ∧ frame.field 0 1 = 0) ∧
  (∃ (s : State) (slot : Nat) (x : OpenRead), s.awake ∧ (s.found.slot slot).read = some x) ∧
  (∃ (s : State), s.awake) ∧
  (∃ (s : State) (entry : Nat), s.awake ∧ entry < 32 ∧ s.found.cfgOn pBrg (BRG.IRQ_OUT_SRC_SW entry) = false ∧ bitOf (s.found.irqPend
    (s.found.cfg pBrg (BRG.IRQ_OUT_SRC_PAGE entry))) (s.found.cfg pBrg (BRG.IRQ_OUT_SRC_BIT entry)) = true) ∧
  (∃ (s : State) (req : Req), s.awake ∧ s.admits req pBrg 0x064) ∧
  (∃ (s : State) (port : Nat) (frame : Frame), s.awake ∧ frame.hdr.type = 0x0C ∧ s.found.fenced pBrg = false ∧
    (frame.cls = .bulk ∨ s.found.pathWhole port frame.hdr.src = true)) ∧
  (∃ (s : State) (src seq : Nat) (e : Nat × Frame), s.awake ∧ s.found.heldMessage src seq = some e ∧ s.found.otherCaughtUp e.1 e.2.hdr = true) ∧
  (∃ (s : State) (src seq : Nat) (e : Nat × Frame), s.awake ∧ s.found.heldMessage src seq = some e) ∧
  (∃ (s : State) (frame : Frame) (e : Nat), s.awake ∧ frame.hdr.type = 0x20 ∧ s.found.fenced pBrg = false ∧ routedLenOk frame = true ∧
    (List.range 512).find? (fun e => s.found.inboundMatch e frame) = some e) ∧
  (∃ (s : State) (entry : Nat), s.awake ∧ entry < 32 ∧ (Map.getD s.found.brg.irqOut entry {}).merged = true ∧ s.found.irqOutOn entry = true ∧
    s.found.fenced pBrg = false) :=
  ⟨⟨of (coreUp), .secure, 0, false, 5, some true, 0, 2, bulkAccess, by decide +kernel⟩,
   ⟨of (coreUp), .secure, 0, false, 5, some true, 0, 2, bulkAccess, by decide +kernel⟩,
   ⟨of (r), typed 0x08, by decide +kernel⟩,
   ⟨of (r), typed 0x09, by decide +kernel⟩,
   ⟨of (r), typed 0x0A, by decide +kernel⟩,
   ⟨of (openRead), answerFrame, 0, { dst := 9 }, by decide +kernel⟩,
   ⟨of (openRead), 0, { dst := 9 }, by decide +kernel⟩,
   ⟨of (r), by decide +kernel⟩,
   ⟨of ((r.put pSys PG.IRQ_RAW 1).put pSys PG.IRQ_EN 1), 0, by decide +kernel⟩,
   ⟨of (r), .secure, by decide +kernel⟩,
   ⟨of (r), 0, typed 0x0C, by decide +kernel⟩,
   ⟨of (heldHub), 9, 0, (0, typed 0x0C), by decide +kernel⟩,
   ⟨of (heldHub), 9, 0, (0, typed 0x0C), by decide +kernel⟩,
   ⟨of (routedHub), routedFrame, 0, by decide +kernel⟩,
   ⟨of ((r.putCfg pBrg (BRG.IRQ_OUT_DEST_EN 0) 1).setIrqOut 0 { merged := true }), 0, by decide +kernel⟩⟩

/-- Every hypothesis of SwitchCommandsComplete is met: one state and operands for each clause that has any. -/
theorem witness_switch_commands_complete :
  (∃ (s : State) (a : Arrival) (q : List Arrival), s.awake ∧ s.found.sw.bulk = a :: q) ∧
  (∃ (s : State) (a : Arrival) (q : List Arrival), s.awake ∧ s.found.sw.taps = a :: q ∧ a.old = false ∧ (s.found.setSw
    (fun x => { x with taps := q })).fenced pSw = true) ∧
  (∃ (s : State) (a : Arrival) (q : List Arrival), s.awake ∧ s.found.sw.taps = a :: q ∧ a.old = false ∧ (s.found.setSw
    (fun x => { x with taps := q })).fenced pSw = false ∧ (a.egress ≠ 2 ∨ (s.found.setSw (fun x => { x with taps := q })).etherOpen = true) ∧
    (s.found.setSw (fun x => { x with taps := q })).xtPortCells a.egress + a.frame.cells ≤ (s.found.setSw
    (fun x => { x with taps := q })).cfg pSw SW.BUF_XT_PORT_MAX) ∧
  (∃ (s : State) (flow : Nat) (p : Pin), s.awake ∧ Map.find s.found.sw.pins flow = some p ∧ p.used + s.found.cfg pSw SW.LENS_CFG_PIN_AGE * 500000000 ≤ s.found.clock) ∧
  (∃ (s : State), s.awake) ∧
  (∃ (s : State) (passed : Bool), s.awake ∧ s.found.get pDram DRAM.STAT_STATE = 1 ∧ passed = true) ∧
  (∃ (s : State) (passed : Bool), s.awake ∧ s.found.get pDram DRAM.STAT_STATE = 1 ∧ passed = false) ∧
  (∃ (s : State) (req : Req), s.awake ∧ s.admitsRead req pQos 0x144) ∧
  (∃ (s : State), s.awake ∧ s.found.brg.refilled ≠ some s.found.gridPoint) ∧
  (∃ (s : State), s.awake) ∧
  (∃ (s : State) (frame : Frame), s.awake ∧ frame.hdr.type = 0x1A ∧ s.found.cfgOn pSw SW.PSC_RX_EN = true) ∧
  (∃ (s : State) (frame : Frame), s.awake ∧ frame.hdr.type = 0x1A ∧ s.found.cfgOn pSw SW.PSC_RX_EN = false) ∧
  (∃ (s : State) (frame : Frame), s.awake ∧ frame.hdr.type = 0x18 ∧ 60 ≤ frame.field 0 2 ∧ frame.field 0 2 ≤ 9212 ∧ frame.hdr.len = 16 + frame.field
    0 2 ∧ s.found.cfgOn pEth ETH.TUN_RX_EN = false) ∧
  (∃ (s : State) (frame : Frame), s.awake ∧ frame.hdr.type = 0x18 ∧ frame.field 0 2 < 60) :=
  ⟨⟨of (r.setSw (fun x => { x with bulk := [{ ingress := 5, egress := 0, frame := blankFrame }] })), { ingress := 5, egress := 0, frame := blankFrame }, [], by decide +kernel⟩,
   ⟨of ((r.setSw (fun x => { x with taps := [tapArrival] })).put pSw PG.STAT_FENCED 1), tapArrival, [], by decide +kernel⟩,
   ⟨of (r.setSw (fun x => { x with taps := [tapArrival] })), tapArrival, [], by decide +kernel⟩,
   ⟨of (agedPin), 1, {}, by decide +kernel⟩,
   ⟨of (r), by decide +kernel⟩,
   ⟨of (r.put pDram DRAM.STAT_STATE 1), true, by decide +kernel⟩,
   ⟨of (r.put pDram DRAM.STAT_STATE 1), false, by decide +kernel⟩,
   ⟨of (r), .secure, by decide +kernel⟩,
   ⟨of (r), by decide +kernel⟩,
   ⟨of (r), by decide +kernel⟩,
   ⟨of (r.putCfg pSw SW.PSC_RX_EN 1), typed 0x1A, by decide +kernel⟩,
   ⟨of (r), typed 0x1A, by decide +kernel⟩,
   ⟨of (r), tunnelFrame, by decide +kernel⟩,
   ⟨of (r), typed 0x18, by decide +kernel⟩⟩

/-- Every hypothesis of ChannelCommandsComplete is met: one state and operands for each clause that has any. -/
theorem witness_channel_commands_complete :
  (∃ (s : State) (channel : Nat) (level : Bool), s.awake ∧ channel < 128 ∧ (s.found.balled (channel % 128) level).filterDone
    (channel % 128) = false ∧ (s.found.balled (channel % 128) level).levelsFollow (channel % 128) = true ∧ ((s.found.balled (channel % 128) level).ch
    (channel % 128)).raw ≠ (level != (s.found.balled (channel % 128) level).cfgOn (pCh (channel % 128)) CH.CFG_INV_IN) ∧ ((s.found.balled
    (channel % 128) level).ch (channel % 128)).filt ≠ (level != (s.found.balled (channel % 128) level).cfgOn (pCh (channel % 128)) CH.CFG_INV_IN)) ∧
  (∃ (s : State) (channel : Nat) (level : Bool), s.awake ∧ channel < 128 ∧ (s.found.balled (channel % 128) level).levelsFollow (channel % 128) = false) ∧
  (∃ (s : State) (channel : Nat) (withPair : Bool), s.awake ∧ withPair = false ∧ s.found.filterDone (channel % 128) = true) ∧
  (∃ (s : State) (req : Req) (channel : Nat), s.awake ∧ s.admits req (pCh channel) 0x050 ∧ s.found.modeEff ≠ .held ∧ s.found.chMode channel = 1) ∧
  (∃ (s : State) (req : Req) (channel : Nat), s.awake ∧ s.admits req (pCh channel) 0x050 ∧ s.found.modeEff ≠ .held ∧ s.found.chMode channel = 2) ∧
  (∃ (s : State) (req : Req) (channel tag : Nat), s.awake ∧ s.admits req (pCh channel) 0x078 ∧ (s.found.pushEntry channel tag).2 = true) ∧
  (∃ (s : State) (channel : Nat) (e : QEntry) (i : Nat), s.awake ∧ s.found.dueEntry channel = some (e, i) ∧ s.found.modeEff ≠ .armed ∧ e.pos = none) ∧
  (∃ (s : State) (channel : Nat) (e : QEntry) (i : Nat), s.awake ∧ s.found.dueEntry channel = some (e, i) ∧ s.found.modeEff = .armed) ∧
  (∃ (s : State) (channel src : Nat) (level : Bool) (i : Nat), s.awake ∧ (s.found.ch channel).ending = some (src, level, i) ∧ due s.found.now i = true) ∧
  (∃ (s : State) (req : Req) (channel : Nat), s.awake ∧ s.admits req (pCh channel) 0x04C) ∧
  (∃ (s : State) (req : Req) (channel : Nat), s.awake ∧ s.admits req (pCh channel) 0x04C) ∧
  (∃ (s : State) (req : Req) (channel : Nat), s.awake ∧ s.admits req (pCh channel) 0x04C) ∧
  (∃ (s : State) (req : Req) (channel n : Nat), s.awake ∧ s.admits req (pCh channel) 0x068 ∧ n % 32 ≤ (s.found.ch channel).fifo.length) ∧
  (∃ (s : State) (req : Req) (channel : Nat), s.awake ∧ s.admits req (pCh channel) 0x058 ∧ s.found.chMode channel ≠ 3) ∧
  (∃ (s : State) (req : Req) (channel : Nat), s.awake ∧ s.admits req (pCh channel) 0x058 ∧ s.found.chMode channel = 3 ∧ s.found.sourcePair channel = false) ∧
  (∃ (s : State) (req : Req) (channel : Nat), s.awake ∧ s.admitsRead req (pCh channel) 0x05C) ∧
  (∃ (s : State) (req : Req) (channel : Nat), s.awake ∧ s.admitsRead req (pCh channel) 0x07C) ∧
  (∃ (s : State) (channel : Nat), s.awake ∧ channel < 128 ∧ s.found.readBackRuns channel = true) ∧
  (∃ (s : State) (bank : Nat), s.awake ∧ bank < 16 ∧ s.found.bankReads bank = true ∧ inWindow (s.found.bankClass bank) (s.found.get
    (pBank bank) BANK.STAT_VMEAS) = false) ∧
  (∃ (s : State) (bank : Nat), s.awake ∧ bank < 16) ∧
  (∃ (s : State) (channel d m : Nat), s.awake ∧ (s.found.ch channel).nextDuty = some (d, m) ∧ s.found.chMode channel = 2 ∧ s.found.pwmNumber channel ≠ m) :=
  ⟨⟨of (bankUp), 0, true, by decide +kernel⟩,
   ⟨of (r), 0, true, by decide +kernel⟩,
   ⟨of (r.setCh 0 (fun x => { x with raw := true, measuring := some {} })), 0, false, by decide +kernel⟩,
   ⟨of (chMode1), .secure, 0, by decide +kernel⟩,
   ⟨of (chMode2), .secure, 0, by decide +kernel⟩,
   ⟨of (chMode1), .secure, 0, 1, by decide +kernel⟩,
   ⟨of (queuedHub), 0, dueE.1, dueE.2, by decide +kernel⟩,
   ⟨of (queuedHub.put pSys SYS.MODE_CUR Mode.armed.code), 0, dueE.1, dueE.2, by decide +kernel⟩,
   ⟨of (r.setCh 0 (fun c => { c with ending := some (1, false, anInstant) })), 0, 1, false, anInstant, by decide +kernel⟩,
   ⟨of (r), .secure, 0, by decide +kernel⟩,
   ⟨of (r), .secure, 0, by decide +kernel⟩,
   ⟨of (r), .secure, 0, by decide +kernel⟩,
   ⟨of (r), .secure, 0, 0, by decide +kernel⟩,
   ⟨of (r), .secure, 0, by decide +kernel⟩,
   ⟨of (r.putCfg (pCh 0) CH.CFG_MODE 3), .secure, 0, by decide +kernel⟩,
   ⟨of (r), .secure, 0, by decide +kernel⟩,
   ⟨of (r), .secure, 0, by decide +kernel⟩,
   ⟨of (readsBack), 0, by decide +kernel⟩,
   ⟨of (bankUp), 0, by decide +kernel⟩,
   ⟨of (r), 0, by decide +kernel⟩,
   ⟨of (chMode2.setCh 0 (fun c => { c with nextDuty := some (5, 7) })), 0, 5, 7, by decide +kernel⟩⟩

/-- Every hypothesis of SerialCommandsComplete is met: one state and operands for each clause that has any. -/
theorem witness_serial_commands_complete :
  (∃ (s : State) (req : Req) (page off : Nat), s.awake ∧ s.found.turnedAway req page off 4 = none ∧ pushPlace page off = true) ∧
  (∃ (s : State) (page : Nat), s.awake ∧ kindOf page = some .prs) ∧
  (∃ (s : State) (page : Nat), s.awake ∧ kindOf page ≠ some .prs) ∧
  (∃ (s : State) (req : Req) (page off : Nat), s.awake ∧ s.admitsRead req page off ∧ popPlace page off = true) ∧
  (∃ (s : State) (req : Req) (page : Nat), s.awake ∧ s.admits req page 0x050) ∧
  (∃ (s : State) (req : Req) (page : Nat), s.awake ∧ s.admits req page 0x050) ∧
  (∃ (s : State) (req : Req) (page : Nat), s.awake ∧ s.admits req page 0x050) ∧
  (∃ (s : State) (req : Req) (page value : Nat), s.awake ∧ s.admits req page 0x058 ∧ value % 32 ≤ (s.found.ser page).stamps.length) ∧
  (∃ (s : State) (page : Nat), s.awake ∧ (s.found.ser page).rx ≠ [] ∧ s.found.cfg page SER.FIFO_CFG_RX_TO ≠ 0) ∧
  (∃ (s : State), s.awake) ∧
  (∃ (s : State) (unit : Nat), s.awake ∧ s.found.runs (pUart unit) = true ∧ s.found.serHeld (pUart unit) = false ∧ s.found.cfgOn (pUart unit) UART.FRAME_FLOW = false) ∧
  (∃ (s : State) (unit : Nat), s.awake ∧ s.found.runs (pUart unit) = true) ∧
  (∃ (s : State) (req : Req) (unit : Nat), s.awake ∧ s.admits req (pUart unit) 0x080) ∧
  (∃ (s : State) (unit : Nat), s.awake ∧ (s.found.ser (pUart unit)).uart.awaiting = true) ∧
  (∃ (s : State) (req : Req) (unit : Nat), s.awake ∧ s.found.turnedAway req (pSpi unit) 0x078 4 = none) ∧
  (∃ (s : State) (unit : Nat) (old : Bool), s.awake ∧ s.found.works (pSpi unit) old = true ∧ s.found.serCfg (pSpi unit) old SPI.CLK_ROLE = 0) ∧
  (∃ (s : State) (unit : Nat) (partWord : Bool), s.awake ∧ s.found.cfg (pSpi unit) SPI.CLK_ROLE = 1 ∧ s.found.on
    (pSpi unit) SPI.STAT_FRAME_OPEN = true ∧ partWord = false) ∧
  (∃ (s : State) (unit : Nat) (partWord : Bool), s.awake ∧ s.found.cfg (pSpi unit) SPI.CLK_ROLE = 1 ∧ s.found.on
    (pSpi unit) SPI.STAT_FRAME_OPEN = true ∧ partWord = true) ∧
  (∃ (s : State) (req : Req) (unit : Nat), s.awake ∧ s.admits req (pSpi unit) 0x074) ∧
  (∃ (s : State) (unit raw : Nat) (first last : Bool) (k : Nat), s.awake ∧ s.found.works (pSpi unit) true = true ∧ s.found.serCfg (pSpi unit)
    (s.found.ser (pSpi unit)).finishing SPI.CLK_ROLE = 2 ∧ s.found.hears (pSpi unit) 2 = true ∧ s.found.ssiTrack unit = some k ∧ (s.found.endSsi
    (pSpi unit)).serHeld (pSpi unit) = false ∧ (s.found.endSsi (pSpi unit)).ssiPasses (pSpi unit) ((s.found.endSsi (pSpi unit)).cfg
    (pTrk k) TRK.SRC_CFG_SSI_BITS) raw first last = false ∧ (((s.found.endSsi (pSpi unit)).setTrack k
    (fun t => { t with ssiReading := false })).ssiError (pSpi unit)).sourceRuns k = true) ∧
  (∃ (s : State) (unit raw : Nat) (first last : Bool), s.awake ∧ s.found.works (pSpi unit) true = true ∧ s.found.serCfg (pSpi unit) (s.found.ser
    (pSpi unit)).finishing SPI.CLK_ROLE = 2 ∧ s.found.hears (pSpi unit) 2 = true ∧ s.found.ssiTrack unit = none ∧ (s.found.ser
    (pSpi unit)).spi.reading = true ∧ ((s.found.endSsi (pSpi unit)).setSpi (pSpi unit) (fun x => { x with reading := false })).serHeld
    (pSpi unit) = false ∧ ((s.found.endSsi (pSpi unit)).setSpi (pSpi unit) (fun x => { x with reading := false })).ssiPasses (pSpi unit)
    (((s.found.endSsi (pSpi unit)).setSpi (pSpi unit) (fun x => { x with reading := false })).cfg (pSpi unit) SPI.SSI_WIDTH) raw first last = true) ∧
  (∃ (s : State) (unit e : Nat) (l : List Nat), s.awake ∧ s.found.works (pI2c unit) true = true ∧ s.found.serCfg (pI2c unit) (s.found.ser
    (pI2c unit)).finishing I2C.CFG_ROLE = 0 ∧ (s.found.ser (pI2c unit)).i2c.due = [] ∧ (s.found.ser (pI2c unit)).rx.length < 64 ∧ s.found.serHeld
    (pI2c unit) = false ∧ (s.found.ser (pI2c unit)).tx = e :: l) ∧
  (∃ (s : State) (unit : Nat), s.awake ∧ (s.found.ser (pI2c unit)).i2c.held.isSome = true ∧ s.found.cfg (pI2c unit) I2C.TIMEOUT_STRETCH_TO ≠ 0) ∧
  (∃ (s : State) (unit : Nat), s.awake ∧ s.found.slaveRuns (pI2c unit) = true ∧ (s.found.ser (pI2c unit)).rx.length < 64 ∧ (s.found.ser (pI2c unit)).i2c.due = []) ∧
  (∃ (s : State) (unit : Nat) (nack : Bool), s.awake ∧ s.found.slaveRuns (pI2c unit) = true ∧ (s.found.ser (pI2c unit)).i2c.slave = some true ∧
    (s.found.ser (pI2c unit)).tx = [] ∧ s.found.serHeld (pI2c unit) = false ∧ nack = false) ∧
  (∃ (s : State) (unit : Nat), s.awake ∧ (s.found.ser (pUart unit)).uart.stage = 1) ∧
  (∃ (s : State) (unit : Nat), s.awake ∧ s.found.runs (pSpi unit) = true ∧ s.found.cfg (pSpi unit) SPI.CLK_ROLE = 1 ∧ s.found.hears (pSpi unit) 3 = true) ∧
  (∃ (s : State) (unit : Nat), s.awake ∧ s.found.slaveRuns (pI2c unit) = true ∧ (s.found.ser (pI2c unit)).i2c.slave = some false ∧ (s.found.ser
    (pI2c unit)).rx.length < 64 ∧ (s.found.ser (pI2c unit)).i2c.due = []) ∧
  (∃ (s : State) (unit : Nat), s.awake ∧ s.found.on (pI2c unit) I2C.STAT_ADDRESSED = true) :=
  ⟨⟨of (r), .secure, pUart 0, 0x040, by decide +kernel⟩,
   ⟨of (r), pPrs 0, by decide +kernel⟩,
   ⟨of (r), pUart 0, by decide +kernel⟩,
   ⟨of (r), .secure, pUart 0, 0x044, by decide +kernel⟩,
   ⟨of (r), .secure, pUart 0, by decide +kernel⟩,
   ⟨of (r), .secure, pUart 0, by decide +kernel⟩,
   ⟨of (r), .secure, pUart 0, by decide +kernel⟩,
   ⟨of (r), .secure, pUart 0, 0, by decide +kernel⟩,
   ⟨of ((r.setSer (pUart 0) (fun x => { x with rx := [1] })).putCfg (pUart 0) SER.FIFO_CFG_RX_TO 5), pUart 0, by decide +kernel⟩,
   ⟨of (r), by decide +kernel⟩,
   ⟨of (r.putCfg (pUart 0) PG.CTRL_EN 1), 0, by decide +kernel⟩,
   ⟨of (r.putCfg (pUart 0) PG.CTRL_EN 1), 0, by decide +kernel⟩,
   ⟨of (r), .secure, 0, by decide +kernel⟩,
   ⟨of (r.setUart (pUart 0) (fun u => { u with awaiting := true })), 0, by decide +kernel⟩,
   ⟨of (r), .secure, 0, by decide +kernel⟩,
   ⟨of (r.putCfg (pSpi 0) PG.CTRL_EN 1), 0, false, by decide +kernel⟩,
   ⟨of ((r.putCfg (pSpi 0) SPI.CLK_ROLE 1).put (pSpi 0) SPI.STAT_FRAME_OPEN 1), 0, false, by decide +kernel⟩,
   ⟨of ((r.putCfg (pSpi 0) SPI.CLK_ROLE 1).put (pSpi 0) SPI.STAT_FRAME_OPEN 1), 0, true, by decide +kernel⟩,
   ⟨of (r), .secure, 0, by decide +kernel⟩,
   ⟨of (ssiTrackHub), 0, 0, false, false, 0, by decide +kernel⟩,
   ⟨of (ssiHub), 0, 0, true, false, by decide +kernel⟩,
   ⟨of ((r.putCfg (pI2c 0) PG.CTRL_EN 1).setSer (pI2c 0) (fun x => { x with tx := [1] })), 0, 1, [], by decide +kernel⟩,
   ⟨of ((r.setI2c (pI2c 0) (fun i => { i with held := some default })).putCfg (pI2c 0) I2C.TIMEOUT_STRETCH_TO 3), 0, by decide +kernel⟩,
   ⟨of (i2cSlave), 0, by decide +kernel⟩,
   ⟨of (i2cSlave.setI2c (pI2c 0) (fun i => { i with slave := some true })), 0, false, by decide +kernel⟩,
   ⟨of (r.setUart (pUart 0) (fun u => { u with stage := 1 })), 0, by decide +kernel⟩,
   ⟨of (spiSlave), 0, by decide +kernel⟩,
   ⟨of (i2cSlave.setI2c (pI2c 0) (fun i => { i with slave := some false })), 0, by decide +kernel⟩,
   ⟨of (r.put (pI2c 0) I2C.STAT_ADDRESSED 1), 0, by decide +kernel⟩⟩

/-- Every hypothesis of PrismRegisterCommandsComplete is met: one state and operands for each clause that has any. -/
theorem witness_prism_register_commands_complete :
  (∃ (s : State) (req : Req) (unit : Nat), s.awake ∧ s.admits req (pPrs unit) 0x058 ∧ s.found.startCheck unit false = 0) ∧
  (∃ (s : State) (req : Req) (unit : Nat), s.awake ∧ s.admits req (pPrs unit) 0x058 ∧ (s.found.prsState unit = 2 ∨ s.found.prsState unit = 3)) ∧
  (∃ (s : State) (req : Req) (unit : Nat), s.awake ∧ s.admits req (pPrs unit) 0x058) ∧
  (∃ (s : State) (req : Req) (unit value : Nat), s.awake ∧ s.admits req (pPrs unit) 0x0A0 ∧ s.found.groupOpen req value 1) ∧
  (∃ (s : State) (req : Req) (unit value : Nat), s.awake ∧ s.admits req
    (pPrs unit) 0x0A0 ∧ s.found.groupOpen req value 2 ∧ 5000 ≤ s.found.groupAhead unit ∧ s.found.groupAhead unit ≤ 5000000000) ∧
  (∃ (s : State) (unit : Nat), s.awake ∧ s.found.prsState unit = 2 ∧ due s.found.now (s.found.eng unit).startAt = true) ∧
  (∃ (s : State) (req : Req) (unit value : Nat), s.awake ∧ s.admits req (pPrs unit) 0x0A0 ∧ s.found.groupOpen req value 3) ∧
  (∃ (s : State) (req : Req) (unit value : Nat), s.awake ∧ s.admits req (pPrs unit) 0x0A0 ∧ s.found.groupOpen req value 4) ∧
  (∃ (s : State) (req : Req) (unit value : Nat), s.awake ∧ s.admits req
    (pPrs unit) 0x0A0 ∧ s.found.groupOpen req value 5 ∧ 5000 ≤ s.found.groupAhead unit ∧ s.found.groupAhead unit ≤ 5000000000) ∧
  (∃ (s : State) (req : Req) (unit : Nat) (word : Option Nat), s.awake ∧ s.admits req (pPrs unit) 0x04C ∧ word = none ∧ s.found.loadable unit = true) ∧
  (∃ (s : State) (req : Req) (unit : Nat) (word : Option Nat) (i : Nat), s.awake ∧ word = some i ∧ i < 1024 ∧ s.found.memTurnedAway req unit
    (4 * i) = none ∧ s.found.loadable unit = true) ∧
  (∃ (s : State) (unit : Nat), s.awake ∧ s.found.loadable unit = true) ∧
  (∃ (s : State) (req : Req) (unit index : Nat), s.awake ∧ s.admits req (pPrs unit) (0x060 + 4 * index) ∧ index < 8 ∧ s.found.loadable unit = true) ∧
  (∃ (s : State) (req : Req) (unit off : Nat), s.awake ∧ s.found.turnedAway req (pPrs unit) off 4 = none ∧ (off = 0x094 ∨ inWin 0xC00 off = true)) ∧
  (∃ (s : State) (req : Req) (unit off v : Nat) (l : List Nat), s.awake ∧ s.found.readTurnedAway req (pPrs unit) off 4 = none ∧
    (off = 0x098 ∨ inWin 0xD00 off = true) ∧ s.found.chained unit = false ∧ (s.found.eng unit).outq = v :: l) ∧
  (∃ (s : State) (req : Req) (unit : Nat), s.awake ∧ s.admits req (pPrs unit) 0x09C) ∧
  (∃ (s : State) (req : Req) (unit : Nat), s.awake ∧ s.admits req (pPrs unit) 0x09C ∧ s.found.chained unit = false) ∧
  (∃ (s : State) (req : Req) (unit : Nat), s.awake ∧ s.admitsRead req (pPrs unit) 0x0AC) ∧
  (∃ (s : State) (unit : Nat), s.awake ∧ s.found.executing unit = true ∧ s.found.illegalAt unit = true) ∧
  (∃ (s : State) (unit slot : Nat) (x : Slot) (i : Nat), s.awake ∧ Map.find s.found.slots
    (unit * 16 + slot) = some x ∧ x.instant = some i ∧ due s.found.now i = true ∧ s.found.modeEff ≠ .armed ∧ x.pos = none) ∧
  (∃ (s : State) (unit n v got past : Nat), s.awake ∧ (s.found.eng unit).wait = .shift true n v got past ∧ s.found.ticksOver unit = true) ∧
  (∃ (s : State) (unit n v got past : Nat), s.awake ∧ (s.found.eng unit).wait = .shift false n v got past ∧ s.found.ticksOver unit = true) ∧
  (∃ (s : State) (unit pin : Nat) (l : Bool), s.awake ∧ Map.find (s.found.eng unit).deferred pin = some l ∧ s.found.pinReady unit pin = true) :=
  ⟨⟨of (prsReady), .secure, 0, by decide +kernel⟩,
   ⟨of (r.put (pPrs 0) PRS.STAT_STATE 3), .secure, 0, by decide +kernel⟩,
   ⟨of (r), .secure, 0, by decide +kernel⟩,
   ⟨of (r), .secure, 0, 0x47A10100, by decide +kernel⟩,
   ⟨of (r.put (pPrs 0) PRS.GRP_AT_LO_TLO 10000), .secure, 0, 0x47A10100, by decide +kernel⟩,
   ⟨of ((r.put (pPrs 0) PRS.STAT_STATE 2).setEng 0 (fun x => { x with startAt := anInstant })), 0, by decide +kernel⟩,
   ⟨of (r), .secure, 0, 0x47A10100, by decide +kernel⟩,
   ⟨of (r), .secure, 0, 0x47A10100, by decide +kernel⟩,
   ⟨of (r.put (pPrs 0) PRS.GRP_AT_LO_TLO 10000), .secure, 0, 0x47A10100, by decide +kernel⟩,
   ⟨of (r), .secure, 0, none, by decide +kernel⟩,
   ⟨of (r), .secure, 0, some 3, 3, by decide +kernel⟩,
   ⟨of (r), 0, by decide +kernel⟩,
   ⟨of (r), .secure, 0, 2, by decide +kernel⟩,
   ⟨of (r), .secure, 0, 0x094, by decide +kernel⟩,
   ⟨of (r.setEng 0 (fun x => { x with outq := [4] })), .secure, 0, 0x098, 4, [], by decide +kernel⟩,
   ⟨of (r), .secure, 0, by decide +kernel⟩,
   ⟨of (r), .secure, 0, by decide +kernel⟩,
   ⟨of (r), .secure, 0, by decide +kernel⟩,
   ⟨of (prsAt 0xFC000000), 0, by decide +kernel⟩,
   ⟨of ({ r with slots := [(0, dueSlot)] }), 0, 0, dueSlot, (dueSlot.instant).getD anInstant, by decide +kernel⟩,
   ⟨of (waits (.shift true 0 0 1 0)), 0, 0, 0, 1, 0, by decide +kernel⟩,
   ⟨of (waits (.shift false 0 1 0 0)), 0, 0, 1, 0, 0, by decide +kernel⟩,
   ⟨of (r.setEng 0 (fun x => { x with deferred := [(1, true)] })), 0, 1, true, by decide +kernel⟩⟩

/-- Every hypothesis of PrismArithmeticCompletes is met: one state and operands for each clause that has any. -/
theorem witness_prism_arithmetic_completes :
  (∃ (s : State) (unit : Nat), s.awake ∧ s.found.fetches unit 0x00) ∧
  (∃ (s : State) (unit : Nat), s.awake ∧ s.found.fetches unit 0x01) ∧
  (∃ (s : State) (unit : Nat), s.awake ∧ s.found.fetches unit 0x02) ∧
  (∃ (s : State) (unit : Nat), s.awake ∧ s.found.fetches unit 0x03) ∧
  (∃ (s : State) (unit : Nat), s.awake ∧ s.found.fetches unit 0x04) ∧
  (∃ (s : State) (unit : Nat), s.awake ∧ s.found.fetches unit 0x05) ∧
  (∃ (s : State) (unit : Nat), s.awake ∧ s.found.fetches unit 0x06) ∧
  (∃ (s : State) (unit : Nat), s.awake ∧ s.found.fetches unit 0x07) ∧
  (∃ (s : State) (unit : Nat), s.awake ∧ s.found.fetches unit 0x08) ∧
  (∃ (s : State) (unit : Nat), s.awake ∧ s.found.fetches unit 0x09) ∧
  (∃ (s : State) (unit : Nat), s.awake ∧ s.found.fetches unit 0x0A) ∧
  (∃ (s : State) (unit : Nat), s.awake ∧ s.found.fetches unit 0x0B) ∧
  (∃ (s : State) (unit : Nat), s.awake ∧ s.found.fetches unit 0x0C) ∧
  (∃ (s : State) (unit : Nat), s.awake ∧ s.found.fetches unit 0x0D) ∧
  (∃ (s : State) (unit : Nat), s.awake ∧ s.found.fetches unit 0x0E) ∧
  (∃ (s : State) (unit : Nat), s.awake ∧ s.found.fetches unit 0x0F) :=
  ⟨⟨of (prsAt 0x00000000), 0, by decide +kernel⟩,
   ⟨of (prsAt 0x04000000), 0, by decide +kernel⟩,
   ⟨of (prsAt 0x08000000), 0, by decide +kernel⟩,
   ⟨of (prsAt 0x0C000000), 0, by decide +kernel⟩,
   ⟨of (prsAt 0x10000000), 0, by decide +kernel⟩,
   ⟨of (prsAt 0x14000000), 0, by decide +kernel⟩,
   ⟨of (prsAt 0x18000000), 0, by decide +kernel⟩,
   ⟨of (prsAt 0x1C000000), 0, by decide +kernel⟩,
   ⟨of (prsAt 0x20000000), 0, by decide +kernel⟩,
   ⟨of (prsAt 0x24000000), 0, by decide +kernel⟩,
   ⟨of (prsAt 0x28000000), 0, by decide +kernel⟩,
   ⟨of (prsAt 0x2C000000), 0, by decide +kernel⟩,
   ⟨of (prsAt 0x30000000), 0, by decide +kernel⟩,
   ⟨of (prsAt 0x34000000), 0, by decide +kernel⟩,
   ⟨of (prsAt 0x38000000), 0, by decide +kernel⟩,
   ⟨of (prsAt 0x3C000000), 0, by decide +kernel⟩⟩

/-- Every hypothesis of PrismControlCompletes is met: one state and operands for each clause that has any. -/
theorem witness_prism_control_completes :
  (∃ (s : State) (unit : Nat), s.awake ∧ s.found.fetches unit 0x10) ∧
  (∃ (s : State) (unit : Nat), s.awake ∧ s.found.fetches unit 0x11 ∧ (s.ticked unit).condition unit (dOf (s.found.fetched unit)) = true) ∧
  (∃ (s : State) (unit : Nat), s.awake ∧ s.found.fetches unit 0x11 ∧ (s.ticked unit).condition unit (dOf (s.found.fetched unit)) = false) ∧
  (∃ (s : State) (unit : Nat), s.awake ∧ s.found.fetches unit 0x12 ∧ ((s.ticked unit).wreg unit (dOf (s.found.fetched unit)) + 2 ^ 32 - 1) % 2 ^ 32 ≠ 0) ∧
  (∃ (s : State) (unit : Nat), s.awake ∧ s.found.fetches unit 0x12 ∧ ((s.ticked unit).wreg unit (dOf (s.found.fetched unit)) + 2 ^ 32 - 1) % 2 ^ 32 = 0) ∧
  (∃ (s : State) (unit : Nat), s.awake ∧ s.found.fetches unit 0x13) ∧
  (∃ (s : State) (unit : Nat), s.awake ∧ s.found.fetches unit 0x14) ∧
  (∃ (s : State) (unit : Nat), s.awake ∧ s.found.fetches unit 0x15) ∧
  (∃ (s : State) (unit : Nat), s.awake ∧ s.found.fetches unit 0x22 ∧ (s.ticked unit).wpair unit (sOf (s.found.fetched unit)) ≤ (s.ticked unit).now % 2 ^ 64) ∧
  (∃ (s : State) (unit : Nat), s.awake ∧ s.found.fetches unit 0x22 ∧ (s.ticked unit).now % 2 ^ 64 < (s.ticked unit).wpair unit (sOf (s.found.fetched unit))) ∧
  (∃ (s : State) (unit t : Nat), s.awake ∧ (s.found.eng unit).wait = .time t ∧ s.found.waitMayEnd unit = true ∧ t ≤ s.found.now % 2 ^ 64) ∧
  (∃ (s : State) (unit : Nat), s.awake ∧ s.found.fetches unit 0x23) ∧
  (∃ (s : State) (unit : Nat), s.awake ∧ (s.found.eng unit).wait = .delay ∧ s.found.ticksOver unit = true) ∧
  (∃ (s : State) (unit : Nat), s.awake ∧ s.found.fetches unit 0x24 ∧ ((s.ticked unit).eng unit).inq ≠ []) ∧
  (∃ (s : State) (unit : Nat), s.awake ∧ s.found.fetches unit 0x24 ∧ ((s.ticked unit).eng unit).inq = [] ∧ bitOf (s.found.fetched unit) 0 = true) ∧
  (∃ (s : State) (unit : Nat), s.awake ∧ s.found.fetches unit 0x24 ∧ ((s.ticked unit).eng unit).inq = [] ∧ bitOf (s.found.fetched unit) 0 = false) ∧
  (∃ (s : State) (unit d : Nat), s.awake ∧ (s.found.eng unit).wait = .pull d ∧ s.found.waitMayEnd unit = true ∧ (s.found.eng unit).inq ≠ []) ∧
  (∃ (s : State) (unit : Nat), s.awake ∧ s.found.fetches unit 0x25 ∧ (s.ticked unit).outRoom unit = true) ∧
  (∃ (s : State) (unit v : Nat), s.awake ∧ (s.found.eng unit).wait = .push v ∧ s.found.waitMayEnd unit = true ∧ s.found.outRoom unit = true) ∧
  (∃ (s : State) (unit : Nat), s.awake ∧ s.found.fetches unit 0x26) ∧
  (∃ (s : State) (unit : Nat), s.awake ∧ s.found.fetches unit 0x27) :=
  ⟨⟨of (prsAt 0x40000000), 0, by decide +kernel⟩,
   ⟨of (prsAt 0x44800000), 0, by decide +kernel⟩,
   ⟨of (prsAt 0x44000000), 0, by decide +kernel⟩,
   ⟨of (prsAt 0x48000000), 0, by decide +kernel⟩,
   ⟨of ((prsAt 0x48000000).put (pPrs 0) (PRS.W_VALUE 0) 1), 0, by decide +kernel⟩,
   ⟨of (prsAt 0x4C000000), 0, by decide +kernel⟩,
   ⟨of ((prsAt 0x50000000).setEng 0 (fun x => { x with stack := [0] })), 0, by decide +kernel⟩,
   ⟨of (prsAt 0x54000000), 0, by decide +kernel⟩,
   ⟨of (prsAt 0x88000000), 0, by decide +kernel⟩,
   ⟨of ((prsAt 0x88000000).put (pPrs 0) (PRS.W_VALUE 0) 1000000), 0, by decide +kernel⟩,
   ⟨of (waits (.time 0)), 0, 0, by decide +kernel⟩,
   ⟨of (prsAt 0x8C000000), 0, by decide +kernel⟩,
   ⟨of (waits .delay), 0, by decide +kernel⟩,
   ⟨of ((prsAt 0x90000000).setEng 0 (fun x => { x with inq := [3] })), 0, by decide +kernel⟩,
   ⟨of (prsAt 0x90000001), 0, by decide +kernel⟩,
   ⟨of (prsAt 0x90000000), 0, by decide +kernel⟩,
   ⟨of ((waits (.pull 1)).setEng 0 (fun x => { x with inq := [3] })), 0, 1, by decide +kernel⟩,
   ⟨of (prsAt 0x94000000), 0, by decide +kernel⟩,
   ⟨of (waits (.push 7)), 0, 7, by decide +kernel⟩,
   ⟨of (prsAt 0x98000000), 0, by decide +kernel⟩,
   ⟨of (prsAt 0x9C000000), 0, by decide +kernel⟩⟩

/-- Every hypothesis of PrismPinsAndSlotsComplete is met: one state and operands for each clause that has any. -/
theorem witness_prism_pins_and_slots_complete :
  (∃ (s : State) (unit : Nat), s.awake ∧ s.found.fetches unit 0x18) ∧
  (∃ (s : State) (unit : Nat), s.awake ∧ s.found.fetches unit 0x19) ∧
  (∃ (s : State) (unit : Nat), s.awake ∧ s.found.fetches unit 0x1A) ∧
  (∃ (s : State) (unit : Nat), s.awake ∧ s.found.fetches unit 0x1B) ∧
  (∃ (s : State) (unit : Nat), s.awake ∧ s.found.fetches unit 0x1C ∧ slice (s.found.fetched unit) 21 2 = 1 ∧ (s.ticked unit).pinLevel unit (slice
    (s.found.fetched unit) 23 3) = true) ∧
  (∃ (s : State) (unit : Nat), s.awake ∧ s.found.fetches unit 0x1C ∧ 2 ≤ slice (s.found.fetched unit) 21 2 ∧ bitOf (s.found.fetched unit) 20 = false) ∧
  (∃ (s : State) (unit p : Nat) (t : Bool) (q : Option (RawEdge × Nat)), s.awake ∧ s.found.waitMayEnd unit = true ∧
    (s.found.eng unit).wait = .pin p 0 t q ∧ s.found.pinLevel unit p = false) ∧
  (∃ (s : State) (unit p : Nat) (t : Bool) (x : RawEdge × Nat), s.awake ∧ s.found.waitMayEnd unit = true ∧ (s.found.eng unit).wait = .pin p 2 t
    (some x) ∧ x.2 < s.found.clock) ∧
  (∃ (s : State) (unit p c : Nat), s.awake ∧ (s.found.eng unit).wait = .pin p c true none ∧ 2 ≤ c ∧ s.found.ticksOver unit = true) ∧
  (∃ (s : State) (unit : Nat), s.awake ∧ s.found.fetches unit 0x1D) ∧
  (∃ (s : State) (unit : Nat), s.awake ∧ s.found.fetches unit 0x1E) ∧
  (∃ (s : State) (unit : Nat), s.awake ∧ s.found.fetches unit 0x20) ∧
  (∃ (s : State) (unit : Nat), s.awake ∧ s.found.fetches unit 0x21) ∧
  (∃ (s : State) (unit : Nat), s.awake ∧ s.found.fetches unit 0x28 ∧ (s.ticked unit).armAhead unit (s.found.fetched unit) < 2 ^ 40) ∧
  (∃ (s : State) (unit : Nat), s.awake ∧ s.found.fetches unit 0x28 ∧ 2 ^ 40 ≤ (s.ticked unit).armAhead unit (s.found.fetched unit) ∧
    (s.ticked unit).armAhead unit (s.found.fetched unit) < 2 ^ 63) ∧
  (∃ (s : State) (unit : Nat), s.awake ∧ s.found.fetches unit 0x29 ∧ (s.ticked unit).followed (slice ((s.ticked unit).wreg unit (slice
    (s.found.fetched unit) 16 3)) 28 4) = false) ∧
  (∃ (s : State) (unit : Nat), s.awake ∧ s.found.fetches unit 0x29 ∧ (s.ticked unit).followed ((s.ticked unit).posBindAt unit
    (s.found.fetched unit)).track = true ∧ ((s.ticked unit).posBindAt unit (s.found.fetched unit)).policy ≠ 3 ∧ slice ((s.ticked unit).wreg unit
    (slice (s.found.fetched unit) 16 3)) 16 6 = 0 ∧ (s.ticked unit).targetRefused ((s.ticked unit).posBindAt unit (s.found.fetched unit)).track
    ((s.ticked unit).posBindAt unit (s.found.fetched unit)).target = false) ∧
  (∃ (s : State) (unit : Nat), s.awake ∧ s.found.fetches unit 0x2A ∧ (s.ticked unit).anyFlag unit (slice (s.found.fetched unit) 0 16) = true) ∧
  (∃ (s : State) (unit : Nat), s.awake ∧ s.found.fetches unit 0x2A ∧ (s.ticked unit).anyFlag unit (slice (s.found.fetched unit) 0 16) = false) ∧
  (∃ (s : State) (unit d m : Nat), s.awake ∧ (s.found.eng unit).wait = .events d m ∧ s.found.waitMayEnd unit = true ∧ s.found.anyFlag unit m = true) ∧
  (∃ (s : State) (unit : Nat), s.awake ∧ s.found.fetches unit 0x2B) ∧
  (∃ (s : State) (unit : Nat), s.awake ∧ s.found.fetches unit 0x2C ∧ ((s.ticked unit).eng unit).stamp = none) ∧
  (∃ (s : State) (unit : Nat) (x : PrsStamp) (v : Option Nat × Nat × Nat), s.awake ∧ s.found.fetches unit 0x2C ∧
    ((s.ticked unit).eng unit).stamp = some x ∧ x.pos = some v) ∧
  (∃ (s : State) (unit : Nat), s.awake ∧ s.found.fetches unit 0x2D ∧ (s.ticked unit).followed (slice (s.found.fetched unit) 0 4) = false) ∧
  (∃ (s : State) (unit : Nat), s.awake ∧ s.found.fetches unit 0x2D ∧ (s.ticked unit).followed (slice (s.found.fetched unit) 0 4) = true) :=
  ⟨⟨of (prsAt 0x60000000), 0, by decide +kernel⟩,
   ⟨of (prsAt 0x64000000), 0, by decide +kernel⟩,
   ⟨of (prsAt 0x68000000), 0, by decide +kernel⟩,
   ⟨of (prsAt 0x6C000000), 0, by decide +kernel⟩,
   ⟨of (pinHigh), 0, by decide +kernel⟩,
   ⟨of (prsAt 0x70400000), 0, by decide +kernel⟩,
   ⟨of (waits (.pin 0 0 false none)), 0, 0, false, none, by decide +kernel⟩,
   ⟨of (waits (.pin 0 2 false (some ({ stamp := 7 }, 3)))), 0, 0, false, ({ stamp := 7 }, 3), by decide +kernel⟩,
   ⟨of (waits (.pin 0 2 true none)), 0, 0, 2, by decide +kernel⟩,
   ⟨of (prsAt 0x74000000), 0, by decide +kernel⟩,
   ⟨of (prsAt 0x78000000), 0, by decide +kernel⟩,
   ⟨of (prsAt 0x80000000), 0, by decide +kernel⟩,
   ⟨of (prsAt 0x84000000), 0, by decide +kernel⟩,
   ⟨of (prsAt 0xA0000000), 0, by decide +kernel⟩,
   ⟨of ((prsAt 0xA0000000).put (pPrs 0) (PRS.W_VALUE 1) 4096), 0, by decide +kernel⟩,
   ⟨of (prsAt 0xA4000000), 0, by decide +kernel⟩,
   ⟨of (armpHub), 0, by decide +kernel⟩,
   ⟨of ((prsAt 0xA8000001).setFlags 0 (1, 0)), 0, by decide +kernel⟩,
   ⟨of (prsAt 0xA8000001), 0, by decide +kernel⟩,
   ⟨of ((waits (.events 0 1)).setFlags 0 (1, 0)), 0, 0, 1, by decide +kernel⟩,
   ⟨of (prsAt 0xAC000001), 0, by decide +kernel⟩,
   ⟨of (prsAt 0xB0000000), 0, by decide +kernel⟩,
   ⟨of ((prsAt 0xB0000000).setEng 0 (fun x => { x with stamp := some { pos := some (some 0, 0, 0) } })), 0, { pos := some (some 0, 0, 0) }, (some 0, 0, 0), by decide +kernel⟩,
   ⟨of (prsAt 0xB4000000), 0, by decide +kernel⟩,
   ⟨of (tnowHub), 0, by decide +kernel⟩⟩

/-- Every hypothesis of CanCommandsComplete is met: one state and operands for each clause that has any. -/
theorem witness_can_commands_complete :
  (∃ (s : State) (req : Req) (unit value : Nat), s.awake ∧ s.admits req (pCan unit) 0x04C ∧ s.found.modeEff ≠ .held ∧ s.found.goRefused unit
    (value % 128) = false ∧ s.found.objType unit (value % 128) = 1) ∧
  (∃ (s : State) (req : Req) (unit value : Nat), s.awake ∧ s.admits req (pCan unit) 0x04C ∧ s.found.modeEff ≠ .held ∧ s.found.goRefused unit
    (value % 128) = false ∧ s.found.objType unit (value % 128) ≠ 1) ∧
  (∃ (s : State) (req : Req) (unit value : Nat), s.awake ∧ s.admits req (pCan unit) 0x050 ∧ s.found.objOwned unit (value % 128) = true ∧
    (s.found.can unit).sending = some (value % 128)) ∧
  (∃ (s : State) (req : Req) (unit value : Nat), s.awake ∧ s.admits req (pCan unit) 0x050 ∧ s.found.objOwned unit (value % 128) = true ∧
    (s.found.can unit).sending ≠ some (value % 128) ∧ s.found.objType unit (value % 128) = 1) ∧
  (∃ (s : State) (req : Req) (unit value : Nat), s.awake ∧ s.admits req (pCan unit) 0x054 ∧ bitOf value 0 = true ∧ s.found.canState unit = 4) ∧
  (∃ (s : State) (unit : Nat), s.awake ∧ s.found.canState unit = 1 ∧ s.found.gated (pCan unit) = false ∧ (s.found.can unit).settings = none) ∧
  (∃ (s : State) (unit : Nat), s.awake ∧ s.found.canState unit = 4 ∧ (s.found.can unit).recovering = true) ∧
  (∃ (s : State) (unit : Nat) (idle : Bool) (i : Nat), s.awake ∧ idle = false ∧
    (s.found.canState unit = 2 ∨ s.found.canState unit = 3) ∧ s.found.canOn unit CAN.CFG_LISTEN = false ∧
    (s.found.can unit).sending = none ∧ s.found.chooseObject unit = some i ∧ ((s.found.put (pCan unit) CAN.STAT_TX_BUSY 1).setCan unit
    (fun c => { c with sending := some i, free := false })).canOn unit CAN.CFG_LOOP = false) ∧
  (∃ (s : State) (unit delay i : Nat), s.awake ∧ (s.found.can unit).sending = some i ∧ (s.found.measures unit i && decide (127 ≤ delay)) = false) ∧
  (∃ (s : State) (unit i : Nat), s.awake ∧ (s.found.can unit).sending = some i) ∧
  (∃ (s : State) (unit i : Nat), s.awake ∧ (s.found.can unit).sending = some i) ∧
  (∃ (s : State) (unit : Nat) (frame : CanFrame) (own : Bool), s.awake ∧ s.found.canReceives unit = true ∧ own = false ∧ frame.fdf = false ∧
    (((s.found.put (pCan unit) CAN.STAT_RX_BUSY 0).goodReception unit).canConfine unit).canOn unit CAN.CFG_ROUTE_EN = false) ∧
  (∃ (s : State) (unit : Nat) (exception : Bool), s.awake ∧ s.found.canReceives unit = true ∧ exception = false ∧ s.found.canState unit ≠ 5) :=
  ⟨⟨of (canSend), .secure, 0, 0, by decide +kernel⟩,
   ⟨of (canTake), .secure, 0, 0, by decide +kernel⟩,
   ⟨of (canOwned.setCan 0 (fun c => { c with sending := some 0 })), .secure, 0, 0, by decide +kernel⟩,
   ⟨of (canOwned), .secure, 0, 0, by decide +kernel⟩,
   ⟨of (r.put (pCan 0) CAN.STAT_STATE 4), .secure, 0, 1, by decide +kernel⟩,
   ⟨of (r.put (pCan 0) CAN.STAT_STATE 1), 0, by decide +kernel⟩,
   ⟨of ((r.put (pCan 0) CAN.STAT_STATE 4).setCan 0 (fun c => { c with recovering := true })), 0, by decide +kernel⟩,
   ⟨of (canPending), 0, false, 0, by decide +kernel⟩,
   ⟨of (canOwned.setCan 0 (fun c => { c with sending := some 0 })), 0, 0, 0, by decide +kernel⟩,
   ⟨of (canOwned.setCan 0 (fun c => { c with sending := some 0 })), 0, 0, by decide +kernel⟩,
   ⟨of (canOwned.setCan 0 (fun c => { c with sending := some 0 })), 0, 0, by decide +kernel⟩,
   ⟨of (r.put (pCan 0) CAN.STAT_STATE 2), 0, {}, false, by decide +kernel⟩,
   ⟨of (r.put (pCan 0) CAN.STAT_STATE 2), 0, false, by decide +kernel⟩⟩

/-- Every hypothesis of EthernetCommandsComplete is met: one state and operands for each clause that has any. -/
theorem witness_ethernet_commands_complete :
  (∃ (s : State) (rx : EtherRx) (bs : List Byte), s.awake ∧ s.found.on pEth ETH.STAT_LINK = true ∧ s.found.etherRuns = true ∧ rx = .frame bs true) ∧
  (∃ (s : State) (rx : EtherRx), s.awake ∧ s.found.on pEth ETH.STAT_LINK = true ∧ s.found.etherRuns = true ∧ rx = .verify) ∧
  (∃ (s : State) (bytes : List Byte), s.awake ∧ s.found.etherRuns = true ∧ s.found.mode ≠ .cellar ∧ s.found.tenantOn
    (s.found.cfg pEth ETH.CTRL_TEN) = true ∧ (bytes.drop 6).take 6 = macBytes (s.found.cfg pEth ETH.CTRL_MAC_HI)
    (s.found.cfg pEth ETH.CTRL_MAC_LO_ADDR) ∧ s.found.controlOwnWrite bytes = true) ∧
  (∃ (s : State) (bytes : List Byte), s.awake ∧ (etherType bytes).1 ≠ 0x88B7) ∧
  (∃ (s : State) (bytes : List Byte), s.awake ∧ (etherType bytes).1 = 0x88B7 ∧ s.found.secureServes = true ∧ leNat (((bytes.drop
    (etherType bytes).2).drop 4).take 1) % 2 = 0 ∧ ((s.found.etherCall bytes).code = 1 ∨ (s.found.etherCall bytes).code = 2)) ∧
  (∃ (s : State), s.awake ∧ s.found.etherRuns = true ∧ s.found.serdesReady = true ∧ s.found.on pEth ETH.STAT_LINK = false ∧ s.found.on pEth
    ETH.STAT_WAKE_TX_BUSY = false ∧ s.found.cfg pEth ETH.CFG_MODE = 1) ∧
  (∃ (s : State), s.awake ∧ s.found.etherRuns = true ∧ s.found.serdesReady = true ∧ s.found.on pEth ETH.STAT_LINK = false ∧ s.found.on pEth
    ETH.STAT_WAKE_TX_BUSY = false ∧ s.found.cfg pEth ETH.CFG_MODE = 0 ∧ s.found.cfgOn pEth ETH.CFG_AN_EN = true) ∧
  (∃ (s : State), s.awake) ∧
  (∃ (s : State), s.awake ∧ s.found.get pEth ETH.STAT_PREEMPT = 1 ∧ s.found.ether.verifyAt + 500000 * s.found.cfg pEth ETH.PREEMPT_VERIFY_TIME ≤
    s.found.clock ∧ s.found.ether.verifies < 3) ∧
  (∃ (s : State), s.awake ∧ s.found.get pEth ETH.STAT_PREEMPT = 1 ∧ s.found.ether.verifyAt + 500000 * s.found.cfg pEth ETH.PREEMPT_VERIFY_TIME ≤
    s.found.clock ∧ 3 ≤ s.found.ether.verifies) ∧
  (∃ (s : State) (req : Req), s.awake ∧ s.admits req pEth 0x060 ∧ s.found.on pEth ETH.MDIO_STAT_BUSY = false) ∧
  (∃ (s : State), s.awake ∧ s.found.on pEth ETH.MDIO_STAT_BUSY = true ∧ ((s.found.put pEth ETH.MDIO_STAT_BUSY 0).get pEth ETH.MDIO_OP = 1 ∨
    (s.found.put pEth ETH.MDIO_STAT_BUSY 0).get pEth ETH.MDIO_OP = 3)) ∧
  (∃ (s : State) (req : Req) (value : Nat), s.awake ∧ s.admits req pEth 0x068 ∧ bitOf value 0 = true ∧ s.found.on pEth ETH.STAT_WAKE_TX_BUSY = false
    ∧ s.found.etherRuns = true ∧ s.found.serdesReady = true) ∧
  (∃ (s : State), s.awake ∧ s.found.on pEth ETH.STAT_WAKE_TX_BUSY = true ∧ s.found.ether.wakeAt + 10000000 ≤ s.found.clock) :=
  ⟨⟨of (etherUp), .frame [] true, [], by decide +kernel⟩,
   ⟨of (etherUp), .verify, by decide +kernel⟩,
   ⟨of ((etherUp.putCfg (pTen 0) PG.CTRL_EN 1).putCfg pEth ETH.CTRL_TEN 0), List.replicate 64 0, by decide +kernel⟩,
   ⟨of (r), [], by decide +kernel⟩,
   ⟨of (coreUp.put pStw STW.STAT_READY 1), serviceBytes, by decide +kernel⟩,
   ⟨of ((etherUp.put pEth ETH.STAT_LINK 0).putCfg pEth ETH.CFG_MODE 1), by decide +kernel⟩,
   ⟨of (((etherUp.put pEth ETH.STAT_LINK 0).putCfg pEth ETH.CFG_MODE 0).putCfg pEth ETH.CFG_AN_EN 1), by decide +kernel⟩,
   ⟨of (etherUp), by decide +kernel⟩,
   ⟨of ({ (r.put pEth ETH.STAT_PREEMPT 1) with clock := 10 ^ 9 }), by decide +kernel⟩,
   ⟨of ({ (r.put pEth ETH.STAT_PREEMPT 1) with ether := { r.ether with verifies := 3 }, clock := 10 ^ 9 }), by decide +kernel⟩,
   ⟨of (r), .secure, by decide +kernel⟩,
   ⟨of ((r.put pEth ETH.MDIO_STAT_BUSY 1).put pEth ETH.MDIO_OP 3), by decide +kernel⟩,
   ⟨of (etherUp), .secure, 1, by decide +kernel⟩,
   ⟨of ({ (r.put pEth ETH.STAT_WAKE_TX_BUSY 1) with clock := 10 ^ 9 }), by decide +kernel⟩⟩

/-- Every hypothesis of HostPortCommandsComplete is met: one state and operands for each clause that has any. -/
theorem witness_host_port_commands_complete :
  (∃ (s : State) (off : Nat) (data : List Byte), s.awake ∧ s.found.pcieServes = true ∧ tlpFits off data.length 256 = true) ∧
  (∃ (s : State) (off len : Nat), s.awake ∧ s.found.pcieServes = true ∧ tlpFits off len 4096 = true) ∧
  (∃ (s : State) (addr len : Nat) (abandoned : Bool), s.awake ∧ s.found.qspiServes = true ∧ 0 < len ∧ len ≤ 1024 ∧ addr < 2 ^ 36 ∧ abandoned = false) ∧
  (∃ (s : State) (addr len : Nat) (abandoned : Bool), s.awake ∧ s.found.qspiServes = true ∧ 0 < len ∧ len ≤ 1024 ∧ addr < 2 ^ 36 ∧ abandoned = false) ∧
  (∃ (s : State) (addr len : Nat) (data : List Byte), s.awake ∧ s.found.qspiServes = true ∧ 0 < len ∧ len ≤ 1024 ∧ addr < 2 ^ 36 ∧ data.length = len) ∧
  (∃ (s : State) (addr len : Nat) (data : List Byte), s.awake ∧ s.found.qspiServes = true ∧ 0 < len ∧ len ≤ 1024 ∧ addr < 2 ^ 36 ∧ data.length = len) ∧
  (∃ (s : State), s.awake ∧ s.found.hostIf = 2) ∧
  (∃ (s : State) (req : Req) (qp : Nat), s.awake ∧ s.admits req pHost (0x11C + 64 * (qp % 8))) ∧
  (∃ (s : State) (qp : Nat) (words : List Nat), s.awake ∧ s.found.fetchTurn = some qp ∧ 1 ≤ slice (words.getD 0 0) 28 4 ∧ slice (words.getD 0 0) 28 4 ≤ 3) ∧
  (∃ (s : State) (qp : Nat) (d : Desc), s.awake ∧ s.found.pendingDesc qp 1 = some d ∧ descOk ((s.found.markIssued qp d.idx).descAccess qp d) (d.word 0 % 65536) = true) ∧
  (∃ (s : State) (qp : Nat) (d : Desc), s.awake ∧ s.found.pendingDesc qp 2 = some d ∧ descOk ((s.found.markIssued qp d.idx).descAccess qp d) (d.word 0 % 65536) = true) ∧
  (∃ (s : State) (qp : Nat) (d : Desc), s.awake ∧ s.found.pendingDesc qp 3 = some d ∧ 60 ≤ d.word 0 % 65536 ∧ d.word 0 % 65536 ≤ 9212 ∧
    (s.found.markIssued qp d.idx).tenantOn ((s.found.markIssued qp d.idx).cfg pBrg BRG.ISSUE_HOST_TEN) = true ∧
    (s.found.markIssued qp d.idx).fenced pBrg = false) ∧
  (∃ (s : State) (qp : Nat) (d : Desc) (l : List Desc) (st : Nat), s.awake ∧
    (s.found.qp qp).descs = d :: l ∧ d.status = some st ∧ s.found.qpState qp = 1 ∧ bitOf (d.word 0) 26 = false) ∧
  (∃ (s : State) (req : Req) (qp : Nat), s.awake ∧ s.admits req pHost (0x120 + 64 * (qp % 8))) ∧
  (∃ (s : State) (qp err : Nat), s.awake ∧ qp < 8 ∧ err ≠ 0 ∧ err ≤ 2 ∧ s.found.qpState qp = 1) ∧
  (∃ (s : State) (qp err : Nat), s.awake ∧ qp < 8 ∧ err = 0) ∧
  (∃ (s : State) (qp : Nat), s.awake ∧ s.found.qpState qp = 3 ∧ (s.found.qp qp).descs.all (fun d => d.status.isSome) = true) ∧
  (∃ (s : State) (req : Req) (high : Bool), s.awake ∧ s.admits req pHost (HOST.VPEND_LO_PEND).off ∧ high = false) ∧
  (∃ (s : State) (req : Req) (high : Bool), s.awake ∧ s.admits req pHost (HOST.VPEND_HI_PEND).off ∧ high = true) ∧
  (∃ (s : State) (vector : Nat), s.awake ∧ vector < 64 ∧ s.found.vectorPending vector = true ∧ s.found.pcieUp = true ∧ s.found.vectorMasked vector = false) ∧
  (∃ (s : State) (change : PcieChange) (b : Bool), s.awake ∧ s.found.hostIf = 1 ∧ s.found.on pHost HOST.STAT_LINK_UP = true ∧ change = .busMaster b) ∧
  (∃ (s : State) (change : PcieChange) (off v : Nat), s.awake ∧ s.found.hostIf = 1 ∧ s.found.on pHost HOST.STAT_LINK_UP = true ∧ change = .byte off v
    ∧ s.found.configFixed off = none ∧ off ≠ 4 ∧ off ≠ 0x44) ∧
  (∃ (s : State) (rate width : Nat), s.awake ∧ s.found.hostIf = 1 ∧ s.found.mode ≠ .waking ∧ s.found.serdesReady = true ∧ s.found.gated pHost = false
    ∧ 1 ≤ rate ∧ rate ≤ 3 ∧ 1 ≤ width ∧ width ≤ 2) ∧
  (∃ (s : State), s.awake) :=
  ⟨⟨of (pcieUp), 0, [1,2,3,4], by decide +kernel⟩,
   ⟨of (pcieUp), 0, 4, by decide +kernel⟩,
   ⟨of (qspiUp), 0, 4, false, by decide +kernel⟩,
   ⟨of (qspiUp), 0, 4, false, by decide +kernel⟩,
   ⟨of (qspiUp), 0, 1, [1], by decide +kernel⟩,
   ⟨of (qspiUp), 0, 1, [1], by decide +kernel⟩,
   ⟨of (qspiUp), by decide +kernel⟩,
   ⟨of (r), .secure, 0, by decide +kernel⟩,
   ⟨of (qpRun.put pHost (HOST.QP_TX_PROD_IDX 0) 1), 0, [0x10000004, 0, 0, 0], by decide +kernel⟩,
   ⟨of (qpDesc 1), 0, aDesc 1, by decide +kernel⟩,
   ⟨of (qpDesc 2), 0, aDesc 2, by decide +kernel⟩,
   ⟨of (((qpDesc 3).putCfg (pTen 0) PG.CTRL_EN 1).putCfg pBrg BRG.ISSUE_HOST_TEN 0), 0, aDesc 3, by decide +kernel⟩,
   ⟨of (qpRun.setQp 0 { descs := [{ idx := 0, words := [], issued := true, status := some 0 }] }), 0, { idx := 0, words := [], issued := true, status := some 0 }, [], 0, by decide +kernel⟩,
   ⟨of (r), .secure, 0, by decide +kernel⟩,
   ⟨of (qpRun), 0, 1, by decide +kernel⟩,
   ⟨of (qpRun), 0, 0, by decide +kernel⟩,
   ⟨of (r.put pHost (HOST.QP_STAT_STATE 0) 3), 0, by decide +kernel⟩,
   ⟨of (r), .secure, false, by decide +kernel⟩,
   ⟨of (r), .secure, true, by decide +kernel⟩,
   ⟨of (msixReady), 0, by decide +kernel⟩,
   ⟨of (pcieUp), .busMaster true, true, by decide +kernel⟩,
   ⟨of (pcieUp), .byte 0x3C 1, 0x3C, 1, by decide +kernel⟩,
   ⟨of (pcieUp), 2, 1, by decide +kernel⟩,
   ⟨of (pcieUp), by decide +kernel⟩⟩

/-- Every hypothesis of MailboxCommandsComplete is met: one state and operands for each clause that has any. -/
theorem witness_mailbox_commands_complete :
  (∃ (s : State) (req : Req) (mailbox len : Nat), s.awake ∧ s.admits req pMbx 0x0C0 ∧ (s.found.mailCommand req (sendWord mailbox len)).2 = true) ∧
  (∃ (s : State) (req : Req) (mailbox rc : Nat), s.awake ∧ s.admits req pMbx 0x0C0 ∧ (s.found.mailCommand req (ackWord mailbox rc)).2 = true) ∧
  (∃ (s : State) (req : Req) (mailbox : Nat), s.awake ∧ s.admits req pMbx 0x0C0 ∧ (s.found.mailCommand req (recallWord mailbox)).2 = true) ∧
  (∃ (s : State) (req : Req) (off size : Nat), s.awake ∧ 0xC00 ≤ off ∧ off < 0x1000 ∧ s.found.turnedAway req pMbx off size = none ∧
    s.found.mailDataCause req ((off - 0xC00) / 64) = none) ∧
  (∃ (s : State) (req : Req) (side : Nat), s.awake ∧ s.admits req pMbx (0x10C + 16 * (side % 4)) ∧ sideOf req.code ≠ side % 4) ∧
  (∃ (s : State) (req : Req) (side : Nat), s.awake ∧ s.admits req pMbx (0x100 + 16 * (side % 4)) ∧ sideOf req.code = side % 4 ∧ s.found.fenced pMbx = false) :=
  ⟨⟨of (mailOn), .secure, 0, 4, by decide +kernel⟩,
   ⟨of (mailHost), .host, 0, 0, by decide +kernel⟩,
   ⟨of (mailFull), .secure, 0, by decide +kernel⟩,
   ⟨of (mailOn), .secure, 0xC00, 4, by decide +kernel⟩,
   ⟨of (r), .secure, 0, by decide +kernel⟩,
   ⟨of (r), .secure, 1, by decide +kernel⟩⟩

/-- Every hypothesis of ZoneCommandsComplete is met: one state and operands for each clause that has any. -/
theorem witness_zone_commands_complete :
  (∃ (s : State) (req : Req) (unit : Nat), s.awake ∧ s.admits req (pZone unit) 0x040) ∧
  (∃ (s : State) (req : Req) (unit : Nat), s.awake ∧ s.admits req (pZone unit) 0x044 ∧ s.found.zoneIs unit = 5) ∧
  (∃ (s : State) (req : Req) (unit : Nat), s.awake ∧ s.admits req (pZone unit) 0x044) ∧
  (∃ (s : State) (unit : Nat) (vsh : Int), s.awake ∧ s.found.slotIs unit [0, 2] = true ∧ (s.found.shuntTaken unit vsh).zoneSampleTrip unit = none) ∧
  (∃ (s : State) (unit : Nat) (vsh : Int) (c : Nat), s.awake ∧ s.found.slotIs unit [0, 2] = true ∧ (s.found.shuntTaken unit vsh).zoneSampleTrip unit = some c) ∧
  (∃ (s : State) (unit : Nat) (drain : Bool), s.awake ∧ s.found.slotIs unit [1] = true ∧ drain = false) ∧
  (∃ (s : State) (unit : Nat) (drain : Bool), s.awake ∧ s.found.slotIs unit [3] = true ∧ drain = true) ∧
  (∃ (s : State) (unit : Nat) (vsh : Int) (edge : ZoneEdge), s.awake ∧ s.found.zoneConducts unit = true ∧ (s.found.ifastNv unit : Int) < 100 * vsh ∧
    (s.found.ilimEff unit : Int) ≤ 2 * (s.found.zoneCurrent unit vsh).1 ∧ ((s.found.zoneCurrent unit vsh).2.zoneTrip unit 1
    (s.found.zoneCurrent unit vsh).1 edge).zoneConducts unit = false) ∧
  (∃ (s : State) (unit : Nat), s.awake ∧ s.found.zoneIs unit = 2 ∧ (s.found.zone unit).rampAt + 10 ^ 6 * s.found.cfg (pZone unit) ZONE.RAMP_MAX_MS ≤ s.found.ns) ∧
  (∃ (s : State) (unit : Nat), s.awake ∧ s.found.zoneIs unit = 1 ∧ [0, 1, 2, 3].all (fun z => s.found.zoneIs z != 2 && (decide
    (unit ≤ z) || s.found.zoneIs z != 1)) = true) ∧
  (∃ (s : State) (unit : Nat), s.awake ∧ s.found.zoneIs unit = 4 ∧ (s.found.zone unit).backAt + (s.found.zone unit).backNs ≤ s.found.ns) ∧
  (∃ (s : State) (unit t : Nat), s.awake ∧ (s.found.zone unit).inAt = some t ∧ s.found.zoneMeasures = true ∧ t + 10 ^ 8 ≤ s.found.ns) ∧
  (∃ (s : State) (unit : Nat), s.awake ∧ s.found.zoneIs unit = 3 ∧ (s.found.zone unit).onAt + 10 ^ 9 * s.found.cfg (pZone unit) ZONE.RETRY_CLR ≤ s.found.ns) ∧
  (∃ (s : State) (unit : Nat), s.awake ∧ s.found.zoneQuiet unit (20 * 10 ^ 6) = true ∧ (s.found.zone unit).voutMv < 1000 ∧ (s.found.zone unit).rise < 10 ^ 13) ∧
  (∃ (s : State) (unit : Nat), s.awake ∧ s.found.zoneQuiet unit (2 * 10 ^ 6) = true ∧ (s.found.zone unit).hotPending = true) ∧
  (∃ (s : State) (unit vgs : Nat) (full : Bool), s.awake ∧ s.found.zoneIs unit = 2 ∧ bitOf (s.found.cfg (pZone unit) ZONE.CFG_DMG_CHK) 0 = true ∧
    (s.found.zone unit).probing = false ∧ s.found.gateMissed unit vgs full = true) ∧
  (∃ (s : State) (unit t : Nat), s.awake ∧ s.found.zoneMeasures = true ∧ (s.found.zone unit).overAt = some t ∧ t + 10 ^ 6 * s.found.cfg
    (pZone unit) ZONE.DAMAGE_OFF_T ≤ s.found.ns ∧ bitOf (s.found.cfg (pZone unit) ZONE.CFG_DMG_CHK) 1 = true ∧ s.found.zoneIs unit ≠ 6) ∧
  (∃ (s : State) (unit : Nat) (offset : Int), s.awake ∧ s.found.zoneMeasures = true ∧ (s.found.zone unit).chopDue ≤ s.found.ns ∧ offset ≤ 50 ∧ -50 ≤ offset) ∧
  (∃ (s : State) (unit : Nat) (offset : Int), s.awake ∧ s.found.zoneMeasures = true ∧ (s.found.zone unit).chopDue ≤ s.found.ns ∧ (50 < offset ∨ offset < -50)) ∧
  (∃ (s : State) (req : Req) (unit : Nat), s.awake ∧ s.admitsRead req (pZone unit) 0x084) ∧
  (∃ (s : State) (req : Req) (unit : Nat), s.awake ∧ s.admitsRead req (pZone unit) 0x094) :=
  ⟨⟨of (r), .secure, 0, by decide +kernel⟩,
   ⟨of (Z 5), .secure, 0, by decide +kernel⟩,
   ⟨of (r), .secure, 0, by decide +kernel⟩,
   ⟨of (late zoneUp), 0, 0, by decide +kernel⟩,
   ⟨of (late zoneOver), 0, 500000, 2, by decide +kernel⟩,
   ⟨of (late (zoneUp.setZone 0 (fun x => { x with slot := 1 }))), 0, false, by decide +kernel⟩,
   ⟨of (late (zoneUp.setZone 0 (fun x => { x with slot := 3 }))), 0, true, by decide +kernel⟩,
   ⟨of (Z 3), 0, 1000000000, .alone, by decide +kernel⟩,
   ⟨of (late (Z 2)), 0, by decide +kernel⟩,
   ⟨of (Z 1), 0, by decide +kernel⟩,
   ⟨of (late (Z 4)), 0, by decide +kernel⟩,
   ⟨of (late vinGood), 0, 0, by decide +kernel⟩,
   ⟨of (late (Z 3)), 0, by decide +kernel⟩,
   ⟨of (late zoneQuietUp), 0, by decide +kernel⟩,
   ⟨of (late (zoneQuietUp.setZone 0 (fun x => { x with hotPending := true }))), 0, by decide +kernel⟩,
   ⟨of (late ((Z 2).putCfg (pZone 0) ZONE.CFG_DMG_CHK 3)), 0, 0, false, by decide +kernel⟩,
   ⟨of (late damagedOut), 0, 0, by decide +kernel⟩,
   ⟨of (late zoneUp), 0, 0, by decide +kernel⟩,
   ⟨of (late zoneUp), 0, 51, by decide +kernel⟩,
   ⟨of (r), .secure, 0, by decide +kernel⟩,
   ⟨of (r), .secure, 0, by decide +kernel⟩⟩

/-- Every hypothesis of FaultCommandsComplete is met: one state and operands for each clause that has any. -/
theorem witness_fault_commands_complete :
  (∃ (s : State), s.awake) ∧
  (∃ (s : State) (e : Nat × Nat) (q : List (Nat × Nat)), s.awake ∧ s.found.flt.queue = e :: q) ∧
  (∃ (s : State) (req : Req) (key page : Nat), s.awake ∧ s.admits req pFlt 0x048 ∧ key = 0x7E1A ∧ s.found.fenced
    (unitOf page) = true ∧ s.found.fenceQueued (unitOf page) = false ∧ (unitPages (unitOf page)).any
    (fun p => s.found.holdingFaults p) = false ∧ s.found.bist.unit ≠ unitOf page) ∧
  (∃ (s : State) (page : Nat), s.awake ∧ s.found.fenced (unitOf page) = false ∧ s.found.fenceCount (unitOf page) ≠ 0 ∧ Map.getD s.found.flt.released
    (unitOf page) 0 + 500000000 * s.found.cfg pFlt FLT.CFG_REPEAT_CLR ≤ s.found.clock) ∧
  (∃ (s : State), s.awake ∧ s.found.underTest pTherm = false ∧ s.found.therm.readDue ≤ s.found.clock) ∧
  (∃ (s : State) (t : Nat), s.awake ∧ s.found.get pTherm THERM.STAT_LEVEL ≠ 0 ∧ s.found.get pTherm THERM.STAT_LEVEL < 15 ∧ s.found.therm.stepAt =
    some t ∧ t + 500000 * s.found.cfg pTherm THERM.CFG_STEP_MS ≤ s.found.clock) ∧
  (∃ (s : State) (sensor t : Nat), s.awake ∧ Map.getD s.found.therm.diffAt sensor none = some t ∧ sensor < 4 ∧ s.found.sensorInUse sensor = true ∧ t
    + 5000000 ≤ s.found.clock) :=
  ⟨⟨of (r), by decide +kernel⟩,
   ⟨of ({ r with flt := { r.flt with queue := [(pTherm, 0)] } }), (pTherm, 0), [], by decide +kernel⟩,
   ⟨of (r.put pTherm PG.STAT_FENCED 1), .secure, 0x7E1A, pTherm, by decide +kernel⟩,
   ⟨of (late { r with flt := { r.flt with counts := Map.put r.flt.counts pTherm 0 1 } }), pTherm, by decide +kernel⟩,
   ⟨of (r), by decide +kernel⟩,
   ⟨of (late { (r.put pTherm THERM.STAT_LEVEL 1) with therm := { r.therm with stepAt := some 0 } }), 0, by decide +kernel⟩,
   ⟨of (late { (r.put pTherm THERM.STAT_IN_USE 15) with therm := { r.therm with diffAt := Map.put r.therm.diffAt 0 none (some 0) } }), 0, 0, by decide +kernel⟩⟩

/-- Every hypothesis of StewardCommandsComplete is met: one state and operands for each clause that has any. -/
theorem witness_steward_commands_complete :
  (∃ (s : State) (ptr len : Nat), s.awake ∧ s.found.annexState = 2 ∧ len ≤ 1024 ∧ inSram ptr len = true ∧ s.found.annexHolds ptr len = true) ∧
  (∃ (s : State) (addr kind : Nat), s.awake ∧ s.found.annexState = 2 ∧ s.found.annexReaches addr kind = false) ∧
  (∃ (s : State) (annex : Bool), s.awake ∧ s.found.worldRuns annex = true ∧ annex = false ∧ s.found.gateState 11 = 0 ∧ s.found.sys.ungating.contains
    11 = false ∧ s.found.coprocessorIdle = true) ∧
  (∃ (s : State) (annex : Bool), s.awake ∧ s.found.worldRuns annex = true ∧ s.found.coprocessorIdle = true) ∧
  (∃ (s : State) (annex : Bool), s.awake ∧ s.found.worldRuns annex = true ∧ s.found.coprocessorIdle = false) ∧
  (∃ (s : State) (annex : Bool), s.awake ∧ s.found.worldRuns annex = true) ∧
  (∃ (s : State) (annex : Bool) (j : CopJob), s.awake ∧ s.found.worldRuns annex = true ∧ s.found.stw.cop = some j) ∧
  (∃ (s : State) (j : CopJob) (a b c : Nat), s.awake ∧ s.found.stw.cop = some j ∧ j.outcome = none ∧ j.op = .sha a b c) ∧
  (∃ (s : State) (j : CopJob) (a b c : Nat), s.awake ∧ s.found.stw.cop = some j ∧ j.outcome = none ∧ j.op = .ecdsa a b c) ∧
  (∃ (s : State) (j : CopJob), s.awake ∧ s.found.stw.cop = some j ∧ j.outcome = none ∧ CopOp_unit j.op = 2) ∧
  (∃ (s : State) (j : CopJob) (a b c : Nat), s.awake ∧ s.found.stw.cop = some j ∧ j.outcome = none ∧ j.op = .crc a b c) ∧
  (∃ (s : State) (j : CopJob), s.awake ∧ s.found.stw.cop = some j ∧ j.outcome = none ∧ CopOp_unit j.op = 4) ∧
  (∃ (s : State) (j : CopJob), s.awake ∧ s.found.stw.cop = some j ∧ j.outcome = none ∧ j.op = .keyLoad) ∧
  (∃ (s : State) (j : CopJob) (a b : Nat), s.awake ∧ s.found.stw.cop = some j ∧ j.outcome = none ∧ j.op = .keyWrite a b) ∧
  (∃ (s : State) (j : CopJob) (a : Nat), s.awake ∧ s.found.stw.cop = some j ∧ j.outcome = none ∧ j.op = .keyClear a) ∧
  (∃ (s : State) (j : CopJob) (o : CopOutcome), s.awake ∧ s.found.stw.cop = some j ∧ j.outcome = some o ∧ (j.start +
    (if o.result = 2 ∨ o.result = 8 then 0 else CopOp_cycles j.op) ≤ s.found.clock) ∧ o.slot = none) ∧
  (∃ (s : State) (req : Req) (key : Nat), s.awake ∧ s.admits req pStw 0x050 ∧ req = .secure ∧ key % 65536 = 0x5EC0) ∧
  (∃ (s : State) (req : Req) (key : Nat), s.awake ∧ s.admits req pStw 0x050 ∧ req = .annex ∧ key % 65536 = 0x0A4E) ∧
  (∃ (s : State), s.awake ∧ s.found.secureWatched = true ∧ s.found.stw.kickS + s.found.get pStw STW.WDOG_S_MS * 1000000 ≤ s.found.ns) ∧
  (∃ (s : State), s.awake ∧ s.found.annexState = 2 ∧ s.found.get pStw STW.WDOG_A_MS ≠ 0 ∧ s.found.stw.kickA + s.found.get pStw STW.WDOG_A_MS * 1000000 ≤ s.found.ns) ∧
  (∃ (s : State), s.awake ∧ s.found.secureWatched = true ∧ s.found.stw.kickS + s.found.get pStw STW.WDOG_S_MS * 500000 ≤ s.found.ns) ∧
  (∃ (s : State) (req : Req) (key : Nat), s.awake ∧ s.admits req pStw 0x044 ∧ req = .secure ∧ key % 65536 = 0x3EAD ∧ s.found.get pStw STW.STAT_CORE =
    2 ∧ s.found.on pStw STW.STAT_READY = false ∧ s.found.loadAnnex.mode ≠ .waking) ∧
  (∃ (s : State) (req : Req), s.awake ∧ s.admits req pStw 0x054 ∧ req = .secure) ∧
  (∃ (s : State) (req : Req), s.awake ∧ s.admits req pStw 0x054 ∧ req = .secure) ∧
  (∃ (s : State) (req : Req), s.awake ∧ s.admits req pStw 0x054 ∧ req = .secure) ∧
  (∃ (s : State) (annex : Bool) (value : Nat), s.awake ∧ value ≤ s.found.now ∧ annex = false) ∧
  (∃ (s : State) (annex : Bool) (value : Nat), s.awake ∧ value ≤ s.found.now ∧ annex = true ∧ s.found.annexState = 2) ∧
  (∃ (s : State) (req : Req) (key : Nat), s.awake ∧ s.admits req pLc 0x074 ∧ req = .secure ∧ key % 65536 = 0xB10E ∧ s.found.on pLc LC.OTP_STAT_BUSY =
    false ∧ s.found.otpRefused (s.found.get pLc LC.OTP_SEL_WORD) (s.found.get pLc LC.OTP_WDATA_DATA) = false) ∧
  (∃ (s : State) (word bits : Nat), s.awake ∧ s.found.stw.otp = some (word, bits)) ∧
  (∃ (s : State) (req : Req) (key target : Nat), s.awake ∧ s.admits req pLc 0x044 ∧ req = .secure ∧ key % 65536 = 0x1C5E ∧ s.found.stw.trans = none ∧
    (s.found.put pLc LC.TRANS_STAT_TARGET (target % 16)).transResult (target % 16) = 5) ∧
  (∃ (s : State) (copies b : Nat), s.awake ∧ s.found.stw.trans = some b ∧ 3 ≤ copies) :=
  ⟨⟨of (annexOn), sramBase, 0, by decide +kernel⟩,
   ⟨of (annexOn), 0, 1, by decide +kernel⟩,
   ⟨of (coreUp), false, by decide +kernel⟩,
   ⟨of (coreUp), false, by decide +kernel⟩,
   ⟨of (J (.keyLoad)), false, by decide +kernel⟩,
   ⟨of (coreUp), false, by decide +kernel⟩,
   ⟨of (J (.keyLoad)), false, jobOf .keyLoad, by decide +kernel⟩,
   ⟨of (J (.sha 0 0 0)), jobOf (.sha 0 0 0), 0, 0, 0, by decide +kernel⟩,
   ⟨of (J (.ecdsa 0 0 0)), jobOf (.ecdsa 0 0 0), 0, 0, 0, by decide +kernel⟩,
   ⟨of (J (.aes false 0 0 0 0 0 0)), jobOf (.aes false 0 0 0 0 0 0), by decide +kernel⟩,
   ⟨of (J (.crc 0 0 0)), jobOf (.crc 0 0 0), 0, 0, 0, by decide +kernel⟩,
   ⟨of (J (.trackAt 0 0 0 0 0 0 0 0)), jobOf (.trackAt 0 0 0 0 0 0 0 0), by decide +kernel⟩,
   ⟨of (J (.keyLoad)), jobOf .keyLoad, by decide +kernel⟩,
   ⟨of (J (.keyWrite 1 0)), jobOf (.keyWrite 1 0), 1, 0, by decide +kernel⟩,
   ⟨of (J (.keyClear 1)), jobOf (.keyClear 1), 1, by decide +kernel⟩,
   ⟨of (late { coreUp with stw := { coreUp.stw with cop := some { op := .keyLoad, annex := false, key := 0, start := 0, outcome := some { result := 0 } } } }), { op := .keyLoad, annex := false, key := 0, start := 0, outcome := some { result := 0 } }, { result := 0 }, by decide +kernel⟩,
   ⟨of (r), .secure, 0x5EC0, by decide +kernel⟩,
   ⟨of (annexOn), .annex, 0x0A4E, by decide +kernel⟩,
   ⟨of (late coreUp), by decide +kernel⟩,
   ⟨of (late (annexOn.put pStw STW.WDOG_A_MS 100)), by decide +kernel⟩,
   ⟨of (late coreUp), by decide +kernel⟩,
   ⟨of (coreUp), .secure, 0x3EAD, by decide +kernel⟩,
   ⟨of (r), .secure, by decide +kernel⟩,
   ⟨of (annexOn), .secure, by decide +kernel⟩,
   ⟨of (r), .secure, by decide +kernel⟩,
   ⟨of (r), false, 0, by decide +kernel⟩,
   ⟨of (annexOn), true, 0, by decide +kernel⟩,
   ⟨of ((r.put pLc LC.OTP_SEL_WORD 73).put pLc LC.OTP_WDATA_DATA 1), .secure, 0xB10E, by decide +kernel⟩,
   ⟨of ({ r with stw := { r.stw with otp := some (70, 1) } }), 70, 1, by decide +kernel⟩,
   ⟨of (made1), .secure, 0x1C5E, 5, by decide +kernel⟩,
   ⟨of ({ r with stw := { r.stw with trans := some 3 } }), 3, 3, by decide +kernel⟩⟩

/-- Every hypothesis of StewardServicesComplete is met: one state and operands for each clause that has any. -/
theorem witness_steward_services_complete :
  (∃ (s : State) (cls : SvcClass) (c : SvcCall), s.awake ∧ s.found.servesCall cls 0x0001 c) ∧
  (∃ (s : State) (cls : SvcClass) (c : SvcCall), s.awake ∧ s.found.servesCall cls 0x0002 c) ∧
  (∃ (s : State) (cls : SvcClass) (c : SvcCall), s.awake ∧ s.found.servesCall cls 0x0010 c) ∧
  (∃ (s : State) (cls : SvcClass) (c : SvcCall), s.awake ∧ s.found.servesCall cls 0x0011 c ∧ leNat (c.args.take 4) ≤ 3) ∧
  (∃ (s : State) (cls : SvcClass) (c : SvcCall), s.awake ∧ s.found.servesCall cls 0x0020 c ∧ ((s.found.dropCall c).codeOwns c.req pStw = true ∨ c.req = 0x8)) ∧
  (∃ (s : State) (cls : SvcClass) (c : SvcCall), s.awake ∧ s.found.servesCall cls 0x0021 c ∧
    ((s.found.dropCall c).codeOwns c.req pStw = true ∨ c.req = 0x8 ∨ c.req = 0xA)) ∧
  (∃ (s : State) (cls : SvcClass) (c : SvcCall), s.awake ∧ s.found.servesCall cls 0x0022 c ∧ (s.found.dropCall c).codeOwns c.req pStw = true ∧ c.args.length = 48) ∧
  (∃ (s : State) (cls : SvcClass) (c : SvcCall), s.awake ∧ s.found.servesCall cls 0x0030 c ∧ (s.found.dropCall c).codeOwns c.req pSys = true) ∧
  (∃ (s : State) (frame : Frame), s.awake ∧ frame.hdr.type = 0x19 ∧ frame.field 4 1 % 2 = 1) ∧
  (∃ (s : State) (frame : Frame), s.awake ∧ frame.hdr.type = 0x19 ∧ frame.field 4 1 % 2 = 0 ∧ s.found.tenantOn frame.hdr.ten = true ∧
    s.found.secureServes = true ∧ 16 + frame.field 2 2 = frame.hdr.len ∧ (s.found.stw.calls.filter
    (fun c => SvcPath_cls c.path == .ring)).length < 4) :=
  ⟨⟨of (C (callE 1 0xA [])), .ecall, callE 1 0xA [], by decide +kernel⟩,
   ⟨of (C (callE 2 0xA [])), .ecall, callE 2 0xA [], by decide +kernel⟩,
   ⟨of (C (callE 0x10 0xA (List.replicate 164 0))), .ecall, callE 0x10 0xA (List.replicate 164 0), by decide +kernel⟩,
   ⟨of (C (callE 0x11 0xA (List.replicate 164 0))), .ecall, callE 0x11 0xA (List.replicate 164 0), by decide +kernel⟩,
   ⟨of (C (callE 0x20 8 [])), .ecall, callE 0x20 8 [], by decide +kernel⟩,
   ⟨of (C (callE 0x21 8 [])), .ecall, callE 0x21 8 [], by decide +kernel⟩,
   ⟨of (C (callE 0x22 9 (List.replicate 48 0))), .ecall, callE 0x22 9 (List.replicate 48 0), by decide +kernel⟩,
   ⟨of (C (callE 0x30 9 [1, 0])), .ecall, callE 0x30 9 [1, 0], by decide +kernel⟩,
   ⟨of (r), replyFrame, by decide +kernel⟩,
   ⟨of ((coreUp.put pStw STW.STAT_READY 1).putCfg (pTen 0) PG.CTRL_EN 1), callFrame, by decide +kernel⟩⟩

/-- Every hypothesis of UpdateCommandsComplete is met: one state and operands for each clause that has any. -/
theorem witness_update_commands_complete :
  (∃ (s : State), s.awake ∧ s.found.get pStw STW.STAT_CORE = 1 ∧ s.found.mode = .waking ∧ s.found.completeTorn.lifecycle ≠ 0 ∧
    s.found.completeTorn.lifecycle ≠ 5 ∧ s.found.completeTorn.on pBist BIST.SEL_BOOT = false ∧
    (s.found.completeTorn.put pBist BIST.SEL_BOOT 0).powerOnTests = false) ∧
  (∃ (s : State) (cls : SvcClass) (c : SvcCall), s.awake ∧ s.found.updatesCall cls 0x0100 c) ∧
  (∃ (s : State) (cls : SvcClass) (flashOk : Bool) (c : SvcCall), s.awake ∧ s.found.updatesCall cls 0x0101 c ∧
    (s.found.dropCall c).landing = 0 ∧ 1 ≤ leNat (c.args.take 2) ∧ leNat (c.args.take 2) ≤ (s.found.dropCall c).slotBlocks ∧ flashOk = true) ∧
  (∃ (s : State) (cls : SvcClass) (c : SvcCall), s.awake ∧ s.found.updatesCall cls 0x0102 c ∧ (s.found.dropCall c).dataFits c ∧ (leNat
    (c.args.take 4)) + (leNat ((c.args.drop 4).take 2)) ≤ (s.found.dropCall c).get pUpd UPD.LAND_RX_BYTES) ∧
  (∃ (s : State) (cls : SvcClass) (flashOk : Bool) (c : SvcCall), s.awake ∧ s.found.updatesCall cls 0x0102 c ∧
    (s.found.dropCall c).dataFits c ∧ leNat (c.args.take 4) = (s.found.dropCall c).get pUpd UPD.LAND_RX_BYTES ∧
    (((s.found.dropCall c).dataTaken c).storeBlocks flashOk 2).1 = 0 ∧
    (((s.found.dropCall c).dataTaken c).storeBlocks flashOk 2).2.get pUpd UPD.LAND_RX_BYTES ≠ 65536 *
    (s.found.dropCall c).get pUpd UPD.LAND_LEN_BLOCKS) ∧
  (∃ (s : State) (cls : SvcClass) (c : SvcCall), s.awake ∧ s.found.updatesCall cls 0x0103 c ∧ (s.found.dropCall c).landing = 2) ∧
  (∃ (s : State) (c : SvcCall), s.awake ∧ s.found.upd.running = some c ∧ s.found.landing = 3) ∧
  (∃ (s : State) (cls : SvcClass) (flashOk : Bool) (c : SvcCall), s.awake ∧ s.found.updatesCall cls 0x0104 c ∧ (s.found.dropCall c).landing = 4 ∧
    (s.found.dropCall c).record.slot (s.found.dropCall c).record.active ≠ 2 ∧ flashOk = true) ∧
  (∃ (s : State) (flashOk : Bool) (c : SvcCall), s.awake ∧ s.found.upd.running = some c ∧ s.found.landing = 5 ∧ flashOk = true ∧
    (s.found.updIdle.setLanding 2).badBlocks ((s.found.updIdle.setLanding 2).area 2)
    ((s.found.updIdle.setLanding 2).get pUpd UPD.LAND_LEN_BLOCKS) = 0) ∧
  (∃ (s : State) (cls : SvcClass) (flashOk : Bool) (c : SvcCall) (i : Nat), s.awake ∧ s.found.updatesCall cls 0x0105 c ∧
    (s.found.dropCall c).trialSlot = some i ∧ flashOk = true) ∧
  (∃ (s : State) (flashOk : Bool) (i t : Nat), s.awake ∧ s.found.trialSlot = some i ∧ s.found.cfgOn pUpd UPD.CFG_AUTO_CONFIRM = true ∧
    (s.found.mode = .running ∨ s.found.mode = .degraded) ∧ s.found.upd.runSince = some t ∧ t + s.found.cfg pUpd UPD.CFG_CONFIRM_S * 1000000000 ≤
    s.found.ns ∧ s.found.upd.running = none ∧ s.found.fenced pUpd = false ∧ s.found.on pStw STW.STAT_READY = true ∧ flashOk = true) ∧
  (∃ (s : State) (cls : SvcClass) (flashOk : Bool) (c : SvcCall), s.awake ∧ s.found.updatesCall cls 0x0106 c ∧ (s.found.dropCall c).record.slot
    ((s.found.dropCall c).record.active % 2) = 2 ∧ flashOk = true) ∧
  (∃ (s : State) (cls : SvcClass) (flashOk : Bool) (c : SvcCall), s.awake ∧ s.found.updatesCall cls 0x0107 c ∧ (s.found.dropCall c).landing ≠ 3 ∧
    (s.found.dropCall c).landing ≠ 5 ∧ flashOk = true) ∧
  (∃ (s : State) (cls : SvcClass) (flashOk : Bool) (c : SvcCall), s.awake ∧ s.found.updatesCall cls 0x0108 c ∧ flashOk = true) ∧
  (∃ (s : State) (t : Nat), s.awake ∧ s.found.upd.reboot = some t ∧ t ≤ s.found.ns ∧ s.found.mode = .cellar) ∧
  (∃ (s : State) (t : Nat), s.awake ∧ s.found.upd.reboot = some t ∧ t ≤ s.found.ns ∧ s.found.mode ≠ .cellar) :=
  ⟨⟨of (((r.put pSys SYS.MODE_CUR Mode.waking.code).put pStw STW.STAT_CORE 1).put pSys SYS.RST_CAUSE_CAUSE 4), by decide +kernel⟩,
   ⟨of (C (callE 0x100 8 [])), .ecall, callE 0x100 8 [], by decide +kernel⟩,
   ⟨of ((C (callE 0x101 8 [1, 0])).put pSys SYS.MODE_CUR Mode.maintenance.code), .ecall, true, callE 0x101 8 [1, 0], by decide +kernel⟩,
   ⟨of ((landed (C (callE 0x102 8 dataArgs))).put pUpd UPD.LAND_RX_BYTES 4), .ecall, callE 0x102 8 dataArgs, by decide +kernel⟩,
   ⟨of (landed (C (callE 0x102 8 dataArgs))), .ecall, true, callE 0x102 8 dataArgs, by decide +kernel⟩,
   ⟨of (((C (callE 0x103 8 [])).setLanding 2).put pSys SYS.MODE_CUR Mode.maintenance.code), .ecall, callE 0x103 8 [], by decide +kernel⟩,
   ⟨of ((r.keepRunning (callE 0x103 8 [])).setLanding 3), callE 0x103 8 [], by decide +kernel⟩,
   ⟨of (((C (callE 0x104 8 [0])).setLanding 4).put pSys SYS.MODE_CUR Mode.maintenance.code), .ecall, true, callE 0x104 8 [0], by decide +kernel⟩,
   ⟨of ((r.keepRunning (callE 0x104 8 [])).setLanding 5), true, callE 0x104 8 [], by decide +kernel⟩,
   ⟨of (trialHub (callE 0x105 8 [])), .ecall, true, callE 0x105 8 [], 0, by decide +kernel⟩,
   ⟨of (late (confirmable ((trialHub (callE 0x105 8 [])).putCfg pUpd UPD.CFG_AUTO_CONFIRM 1))), true, 0, 0, by decide +kernel⟩,
   ⟨of ((C (callE 0x106 8 [0])).writeRecord (fun q => { q.setSlot 0 2 with active := 0 })), .ecall, true, callE 0x106 8 [0], by decide +kernel⟩,
   ⟨of (C (callE 0x107 8 [])), .ecall, true, callE 0x107 8 [], by decide +kernel⟩,
   ⟨of ((C (callE 0x108 8 [0])).put pSys SYS.MODE_CUR Mode.maintenance.code), .ecall, true, callE 0x108 8 [0], by decide +kernel⟩,
   ⟨of ({ (r.put pSys SYS.MODE_CUR Mode.cellar.code) with upd := { r.upd with reboot := some 0 } }), 0, by decide +kernel⟩,
   ⟨of ({ r with upd := { r.upd with reboot := some 0 } }), 0, by decide +kernel⟩⟩

/-- Every hypothesis of SelfTestCommandsComplete is met: one state and operands for each clause that has any. -/
theorem witness_self_test_commands_complete :
  (∃ (s : State), s.awake ∧ 1 ≤ s.found.bist.phase ∧ s.found.bist.phase ≤ 4) ∧
  (∃ (s : State), s.awake ∧ s.found.bist.phase = 6 ∧ s.found.bist.failed = 0) ∧
  (∃ (s : State) (cls : SvcClass) (c : SvcCall), s.awake ∧ s.found.servesCall cls 0x0200 c ∧ (s.found.dropCall c).bistCaller c.req = true) ∧
  (∃ (s : State) (cls : SvcClass) (c : SvcCall), s.awake ∧ s.found.servesCall cls 0x0201 c ∧ (s.found.dropCall c).bistCaller c.req = true ∧
    (s.found.dropCall c).unitRefused (unitOf (testPage c)) (testItems c) = none) ∧
  (∃ (s : State) (cls : SvcClass) (c : SvcCall), s.awake ∧ s.found.servesCall cls 0x0202 c ∧ (s.found.dropCall c).bistCaller c.req = true) ∧
  (∃ (s : State), s.awake ∧ s.found.on pBist BIST.UNIT_BUSY = true ∧ s.found.bist.found = none ∧ s.found.bist.load = false) ∧
  (∃ (s : State), s.awake ∧ s.found.on pBist BIST.UNIT_BUSY = true ∧ s.found.bist.found = none ∧ s.found.bist.load = true) ∧
  (∃ (s : State) (f q d : Nat), s.awake ∧ s.found.on pBist BIST.UNIT_BUSY = true ∧ s.found.bist.found = some (f, q, d) ∧ (s.found.zone
    (instOf s.found.bist.unit)).probing = false) :=
  ⟨⟨of ({ r with bist := { r.bist with phase := 1, items := 1 } }), by decide +kernel⟩,
   ⟨of ({ r with bist := { r.bist with phase := 6 } }), by decide +kernel⟩,
   ⟨of (C (callE 0x200 8 [])), .ecall, callE 0x200 8 [], by decide +kernel⟩,
   ⟨of (unitTestable), .ecall, callE 0x201 8 [0x3C, 0, 1, 0], by decide +kernel⟩,
   ⟨of (C (callE 0x202 8 [])), .ecall, callE 0x202 8 [], by decide +kernel⟩,
   ⟨of (r.put pBist BIST.UNIT_BUSY 1), by decide +kernel⟩,
   ⟨of ({ (r.put pBist BIST.UNIT_BUSY 1) with bist := { r.bist with load := true } }), by decide +kernel⟩,
   ⟨of ({ (r.put pBist BIST.UNIT_BUSY 1) with bist := { r.bist with found := some (0, 0, 0) } }), 0, 0, 0, by decide +kernel⟩⟩

/-! ### The hypotheses of the other statements are met -/

def safeStopped : Hub := r.put pSys SYS.MODE_CUR Mode.safeStop.code
def committing : Hub := r.put pSys SYS.COMMIT_STATE_STATE 1
def lateHub : Hub := { committing with sys := { r.sys with commitCmd := 3 } }
def burning : Hub := { r with fuses := [(7, 1)], stw := { r.stw with otp := some (7, 2) } }
def waitingHub : Hub := (mailFull.put pMbx (MBX.STAT_WAITING 0) 1)

/-- A header with every field at its greatest value. -/
def fullHeader : Header :=
  { ver := 3, type := 63, dir := true, wrapped := true, dual := true, mirror := true, ten := 15, group := true, dst := 4095, src := 4095,
    seq := 65535, len := 16383, hops := 16383, flow := 65535, tag := 65535, aux := 65535 }

theorem witness_idle_step_is_a_clock_edge :
    (∃ s : State, s.pending = [] ∧ s.hub.coreRuns = false) ∧ (∃ s : State, s.pending = [] ∧ s.awake ∧
      s.hub.prismUnits = [] ∧ s.hub.cellsWait = false ∧ s.hub.brg.express = [] ∧ s.hub.brg.bulk = [] ∧ s.hub.brg.own = [] ∧ s.hub.ether.ends = []) :=
  ⟨⟨of (z.put pSys SYS.MODE_CUR Mode.shelf.code), by decide +kernel⟩, ⟨of r, by decide +kernel⟩⟩

theorem witness_only_keep_alive_acts_in_shelf :
    ∃ (c : Instr) (s : State), s.hub.mode = .shelf ∧ s.hub.coreRuns = false ∧ (∀ b, c ≠ .powerOn b) ∧ (∀ d mv, c ≠ .supplyPresent d mv) ∧
      (∀ d, c ≠ .supplyLost d) ∧ (∀ e, c ≠ .wakeEvent e) ∧ c ≠ .rstN ∧ c ≠ .rstNRelease ∧ c ≠ .powerOnHoldEnd ∧ (∀ b, c ≠ .referenceValid b) ∧
      c ≠ .referenceWaitLimit ∧ (∀ a b i n, c ≠ .corePllLock a b i n) ∧ c ≠ .ref25Lost ∧ c ≠ .corePllSwitchover ∧ c ≠ .ref156Lost ∧ c ≠ .clockLoss :=
  ⟨.commitInstant, of (z.put pSys SYS.MODE_CUR Mode.shelf.code), by decide +kernel, by decide +kernel, by simp⟩

/-- One witness with no mailbox WAITING and one with mailbox 0 WAITING for an absent host. -/
theorem witness_waiting_only_while_reader_absent :
    (∃ s t : State, s.hub.readersServed ∧ step s = .next t) ∧
    (∃ s t : State, s.hub.readersServed ∧ s.hub.on pMbx (MBX.STAT_WAITING 0) = true ∧ step s = .next t) :=
  ⟨⟨State.reset, _, by decide +kernel, rfl⟩, ⟨of waitingHub, _, by decide +kernel, by decide +kernel, rfl⟩⟩

theorem witness_header_round_trip : (∃ x : Header, x.wf = true) ∧ fullHeader.wf = true :=
  ⟨⟨{}, by decide +kernel⟩, by decide +kernel⟩

theorem witness_frame_arrives_whole : ∃ f : Frame, f.wf = true ∧ f.hdr.valid f.cls = true ∧ f.hdr.len ≤ f.cls.maxLen :=
  ⟨{ cls := .link, hdr := { type := 0x30, len := 24 }, payload := List.replicate 24 5 }, by decide +kernel⟩

/-- A host that is served over PCI Express. -/
def hosted : Hub := pcieUp

theorem witness_unused_page_is_refused :
    (∃ (s : State) (req : Req) (page off : Nat), usedPage page = false ∧ s.awake ∧ s.settled ∧ s.found.hostTurned req page = false ∧
      s.found.annexTurned req page off true = none) ∧
    (∃ (h : Hub) (req : Req) (page off : Nat), usedPage page = false ∧ h.hostTurned req page = false ∧ h.annexTurned req page off false = none) :=
  ⟨⟨of hosted, .host, 0xFFF, 0xFFC, by decide +kernel⟩, ⟨hosted, .host, 0xFFF, 0xFFC, by decide +kernel⟩⟩

theorem witness_ownership_refusal :
    ∃ (s : State) (req : Req) (page off : Nat), s.awake ∧ s.settled ∧ ¬ (page = pSys ∧ off = 0x084) ∧ s.found.hostTurned req page = false ∧
      s.found.annexTurned req page off true = none ∧ usedPage page = true ∧ badForm off 4 = false ∧ s.found.underTest page = false ∧
      s.found.mayWrite req page = false ∧ openTo req page off = false :=
  ⟨of (r.putCfg pTime PG.CTRL_OWNER 1), .tenant 5, pTime, 0x050, by decide +kernel⟩

theorem witness_turned_away_writes_change_nothing :
    (∃ (s : State) (req : Req) (page off size : Nat), s.awake ∧ s.settled ∧ req ≠ .annex ∧ ¬ (page = pSys ∧ off = 0x084) ∧
      (s.found.turnedAway req page off size).isSome = true) ∧
    (∀ off ∈ [0x008, 0x010, 0x01C, 0x024], ((of safeStopped).found.turnedAway (.tenant 0) pTime off 4).isSome = true) ∧
    (∃ s : State, s.awake ∧ s.settled ∧ s.found.hostServed = false) :=
  ⟨⟨of safeStopped, .secure, pTime, 0x050, 4, by decide +kernel⟩, by decide +kernel, ⟨of r, by decide +kernel⟩⟩

theorem witness_safe_stop_refuses_writes :
    ∃ (s : State) (req : Req) (page : Nat), s.awake ∧ s.settled ∧ s.hub.mode = .safeStop ∧ req ≠ .annex ∧
      page ≠ pFlt ∧ page ≠ pUpd ∧ page ≠ pMbx ∧ page ≠ pSys ∧ page ≠ pLc :=
  ⟨of safeStopped, .secure, pTime, by decide +kernel⟩

theorem witness_single_field_frame :
    ∃ s : State, s.awake ∧ s.settled ∧ s.found.chMode 0 ≠ 3 ∧ s.admits .secure pTime 0x008 ∧ s.admits .secure pTime 0x010 ∧
      s.admits .secure pHost 0x11C ∧ s.admits .secure (pCh 0) 0x058 := ⟨of r, by decide +kernel⟩

/-- One flag comes with the command, another was set by a command of the same edge before it. -/
theorem witness_irq_flag_survives_its_clearing :
    (∃ (s : State) (req : Req) (page setNow i : Nat), s.awake ∧ s.settled ∧ s.admits req page 0x010 ∧ i < 32 ∧
      bitOf (pageFlags page setNow) i = true) ∧
    (∃ (s : State) (req : Req) (page i : Nat), s.awake ∧ s.settled ∧ s.admits req page 0x010 ∧ i < 32 ∧
      bitOf (Map.getD s.found.edge.risen page 0) i = true) :=
  ⟨⟨of r, .secure, pTime, 0x80000000, 31, by decide +kernel⟩,
    ⟨of { r with edge := { groups := [2], more := true, risen := [(pTime, 1)] } }, .secure, pTime, 0, by decide +kernel⟩⟩

theorem witness_late_commit_is_refused :
    ∃ s : State, s.awake ∧ s.hub.get pSys SYS.COMMIT_STATE_STATE = 1 ∧ s.hub.sys.commitCmd = 3 := ⟨of lateHub, by decide +kernel⟩

theorem witness_no_commit_in_these_modes :
    (∀ m ∈ [Mode.waking, .cellar, .test, .safeStop],
      (of (r.put pSys SYS.MODE_CUR m.code)).awake ∧ (of (r.put pSys SYS.MODE_CUR m.code)).settled ∧
      (of (r.put pSys SYS.MODE_CUR m.code)).admits .secure pSys 0x040 ∧ (r.put pSys SYS.MODE_CUR m.code).commitBusy = false ∧
      (r.put pSys SYS.MODE_CUR m.code).mode = m) ∧
    (z.put pSys SYS.MODE_CUR Mode.shelf.code).mode = .shelf ∧ (z.put pSys SYS.MODE_CUR Mode.shelf.code).commitBusy = false := by decide +kernel

theorem witness_discard_is_refused_while_a_commit_runs :
    ∃ (s : State) (req : Req) (page : Nat), s.awake ∧ s.settled ∧ s.admits req page 0x024 ∧ s.hub.commitBusy = true :=
  ⟨of committing, .secure, pTime, by decide +kernel⟩

theorem witness_now_latches_one_value :
    ∃ (s : State) (req : Req), s.awake ∧ s.settled ∧ s.admitsRead req pTime 0x048 := ⟨of r, .secure, by decide +kernel⟩

/-- The values next to both ends of the permitted range. -/
theorem witness_fb_inc_out_of_range_is_refused :
    (∃ (s : State) (req : Req) (value : Nat), s.awake ∧ s.settled ∧ s.admits req pTime 0x064 ∧ 10 * value < 19 * 2 ^ 24) ∧
    (∃ (s : State) (req : Req) (value : Nat), s.awake ∧ s.settled ∧ s.admits req pTime 0x064 ∧ 21 * 2 ^ 24 < 10 * value) :=
  ⟨⟨of r, .secure, 31876710, by decide +kernel⟩, ⟨of hosted, .host, 35232154, by decide +kernel⟩⟩

theorem witness_source_count_is_not_written :
    ∃ (s : State) (req : Req) (channel : Nat), s.awake ∧ s.settled ∧ s.admits req (pCh channel) 0x058 ∧ s.found.chMode channel = 3 ∧
      s.found.sourcePair channel = true :=
  ⟨of ((((r.putCfg (pCh 0) CH.CFG_MODE 3).putCfg (pTrk 0) PG.CTRL_EN 1).putCfg (pTrk 0) TRK.CFG_ROLE 1).putCfg (pTrk 0) TRK.SRC_CFG_TYPE 1),
    .secure, 0, by decide +kernel⟩

theorem witness_send_to_a_full_mailbox_fails :
    ∃ (s : State) (req : Req) (mailbox : Nat), s.awake ∧ s.settled ∧ s.admits req pMbx 0x0C0 ∧ mailbox < 16 ∧ s.found.mailboxOn mailbox = true ∧
      req.code = s.found.mailCfg mailbox (MBX.CFG_WRITER mailbox) ∧ s.found.full mailbox = true :=
  ⟨of mailFull, .secure, 0, by decide +kernel⟩

theorem witness_fuses_stay_blown :
    ∃ (s t : State) (blown k i : Nat), s.settled ∧ exec (.otpProgDone blown) s = .next t ∧ i < 32 ∧ bitOf (s.hub.fuse k) i = true :=
  ⟨of burning, _, 2, 7, 0, by decide +kernel, rfl, by decide +kernel⟩

theorem witness_host_interrupt_line :
    (∃ h : Hub, h.hostIf ≠ 2) ∧
    (∃ h : Hub, h.hostIf = 2 ∧ h.get pHost HOST.VPEND_LO_PEND < 2 ^ 32 ∧ h.get pHost HOST.VPEND_HI_PEND < 2 ^ 32) :=
  ⟨⟨z, by decide +kernel⟩, ⟨qspiUp, by decide +kernel⟩⟩

theorem witness_vpend : ∃ s : State, s.awake ∧ s.settled ∧ s.admits .secure pHost 0x064 ∧ s.admits .secure pHost 0x060 := ⟨of r, by decide +kernel⟩

def fencedUart : Hub := (r.put (pUart 0) PG.STAT_FENCED 1).setSer (pUart 0) (fun x => { x with rx := [7, 8] })

theorem witness_serial_fifos_across_reset_and_fence :
    (∃ (s : State) (req : Req) (page : Nat), kindOf page ∈ [some Kind.uart, some Kind.spi, some Kind.i2c] ∧ s.awake ∧ s.admits req page 0x008) ∧
    (∃ (s : State) (req : Req) (page off : Nat), s.awake ∧ s.settled ∧ s.admits req page off ∧ pushPlace page off = true ∧
      s.hub.modeEff ≠ .held ∧ s.hub.fenced page = true) ∧
    (∃ (s : State) (req : Req) (page off e : Nat) (l : List Nat), s.awake ∧ s.settled ∧ s.admitsRead req page off ∧ popPlace page off = true ∧
      (s.hub.ser page).rx = e :: l ∧ (s.hub.ser page).i2c.due = []) :=
  ⟨⟨of fencedUart, .secure, pUart 0, by decide +kernel⟩, ⟨of fencedUart, .secure, pUart 0, 0x040, by decide +kernel⟩,
   ⟨of fencedUart, .secure, pUart 0, 0x044, 7, [8], by decide +kernel⟩⟩

theorem insert_failure_ne (c : Nat × Nat × Nat) (l : List (Nat × Nat × Nat)) : insertFailure c l ≠ [] := by
  cases l with
  | nil => simp [insertFailure]
  | cons d r => unfold insertFailure; split <;> simp

theorem insert_all_ne (xs a : List (Nat × Nat × Nat)) (h : a ≠ [] ∨ xs ≠ []) : xs.foldl (fun b c => insertFailure c b) a ≠ [] := by
  induction xs generalizing a with
  | nil => simpa using h
  | cons c r ih => exact ih _ (.inl (insert_failure_ne c a))

/-- LOCK_SAMPLES 0 is refused (R83). -/
def unsound : Hub := committing.put pSys SYS.MODE_CFG_LOCK_SAMPLES 0

theorem witness_refused_commit_keeps_the_configuration :
    (∃ s : State, s.awake ∧ s.hub.get pSys SYS.COMMIT_STATE_STATE = 1 ∧
      (s.found.sealCheck (s.found.sealMatches s.found.sealOf)).foldl (fun a x => insertFailure x a) s.found.failing ≠ []) ∧
    (∃ s : State, s.awake ∧ s.hub.get pSys SYS.COMMIT_STATE_STATE = 1 ∧ s.hub.sys.commitCmd = 3) :=
  ⟨⟨of unsound, by decide +kernel, by decide +kernel, insert_all_ne _ _ (.inr (by decide +kernel))⟩, ⟨of lateHub, by decide +kernel⟩⟩

/-- A run of one Prism instruction is no empty hypothesis: ADD W1 = W0 + W0 answers a next state, as every command does. -/
theorem witness_prism_result_frame :
    ∃ (s t : State) (unit : Nat), s.settled ∧ s.found.fetches unit 0x04 ∧ exec (.add unit) s = .next t :=
  ⟨of (prsAt 0x10800000), _, 0, by decide +kernel, by decide +kernel, rfl⟩

theorem witness_prism_store_frame : ∃ (s t : State) (unit : Nat), s.settled ∧ s.found.fetches unit 0x0F ∧ exec (.st unit) s = .next t :=
  ⟨of (prsAt 0x3C000000), _, 0, by decide +kernel, by decide +kernel, rfl⟩

theorem witness_buffer_write_frame :
    (∃ (s t : State) (req : Req) (unit i value : Nat), s.settled ∧ exec (.programMemoryWrite req unit (some i) value) s = .next t) ∧
    (∃ (s t : State) (req : Req) (off size value : Nat), s.settled ∧ exec (.mailboxDataWrite req off size value) s = .next t) ∧
    (∃ (s t : State) (req : Req) (offset size value : Nat), s.settled ∧ exec (.publishBufferWrite req offset size value) s = .next t) :=
  ⟨⟨of r, _, .secure, 0, 1023, 5, by decide +kernel, rfl⟩, ⟨of mailOn, _, .secure, 0xC00, 4, 5, by decide +kernel, rfl⟩,
   ⟨of r, _, .secure, 0, 4, 5, by decide +kernel, rfl⟩⟩

/-! ### Ill-formed commands are refused by the check, one for each kind of operand -/

theorem test_ill_formed :
    wellFormed (.validate (.tenant 8)) = false ∧
    wellFormed (.registerWrite .host 4096 0 4 0) = false ∧
    wellFormed (.registerWrite .host 0 4096 4 0) = false ∧
    wellFormed (.registerWrite .host 0 0 4096 0) = false ∧
    wellFormed (.registerWrite .host 0 0 4 (2 ^ 32)) = false ∧
    wellFormed (.supplyLost (.bank 16)) = false ∧
    wellFormed (.gateTakeEffect 12) = false ∧
    wellFormed (.add 32) = false ∧
    Header.wf { ver := 4 } = false ∧ Header.wf { type := 64 } = false ∧ Header.wf { ten := 16 } = false ∧ Header.wf { dst := 4096 } = false ∧
    Header.wf { src := 4096 } = false ∧ Header.wf { seq := 65536 } = false ∧ Header.wf { len := 16384 } = false ∧
    Header.wf { hops := 16384 } = false ∧ Header.wf { flow := 65536 } = false ∧ Header.wf { tag := 65536 } = false ∧
    Header.wf { aux := 65536 } = false ∧
    Frame.wf { hdr := { len := 1 } } = false ∧
    CanFrame.wf { id := 2048 } = false ∧ CanFrame.wf { ide := true, id := 2 ^ 29 } = false ∧ CanFrame.wf { dlc := 16 } = false ∧
    CanFrame.wf { data := List.replicate 9 0 } = false ∧ CanFrame.wf { fdf := true, dlc := 15, data := List.replicate 65 0 } = false ∧
    CanFrame.wf { fdf := true, rtr := true } = false ∧ CanFrame.wf { brs := true } = false := by decide +kernel

theorem test_well_formed :
    wellFormed (.validate (.tenant 7)) = true ∧ wellFormed (.registerWrite .annex 4095 4095 4095 (2 ^ 32 - 1)) = true ∧
    wellFormed (.gateTakeEffect 11) = true ∧ Header.wf { type := 63, ten := 15, dst := 4095, len := 16383 } = true ∧
    CanFrame.wf { ide := true, id := 2 ^ 29 - 1, fdf := true, dlc := 15, data := List.replicate 64 0 } = true := by decide +kernel

/-! ### Results that the manual states -/

/-- The check of Atrium slots and headers is CRC-16/CCITT; the catalogued check value of the bytes "123456789" is 0x29B1 (R243). -/
theorem test_crc16 : crc16 [0x31, 0x32, 0x33, 0x34, 0x35, 0x36, 0x37, 0x38, 0x39] = 0x29B1 := by decide +kernel

/-- The frame check is CRC-32 of IEEE 802.3, whose catalogued check value is 0xCBF43926. -/
theorem test_crc32 : crc32 [0x31, 0x32, 0x33, 0x34, 0x35, 0x36, 0x37, 0x38, 0x39] = 0xCBF43926 := by decide +kernel

/-- The examples under R425: BRP and N of four nominal rates, N of three data rates, TSEG1 7 and TSEG2 2 at 8 Mbit/s with SP 750. -/
theorem test_can_timing :
    [1000000, 500000, 125000, 10000].map (fun r => canPrescaler r 8 385) = [some (1, 80), some (1, 160), some (2, 320), some (25, 320)] ∧
    [2000000, 5000000, 8000000].map (fun r => canPrescaler r 5 49) = [some (1, 40), some (1, 16), some (1, 10)] ∧
    canTiming true 8000000 750 = some (1, 7, 2, 2) := by decide +kernel

/-- The instruction words of the worked example of the Prism chapter: SUB W3, W6, W4; JCC C, 27; LDI W3, 250,000; ADDI W3, W3, -5,000. -/
theorem test_prism_words :
    (opOf 0x15E80000, dOf 0x15E80000, sOf 0x15E80000, tOf 0x15E80000) = (0x05, 3, 6, 4) ∧
    (opOf 0x4600001B, dOf 0x4600001B, slice 0x4600001B 0 10) = (0x11, 4, 27) ∧
    (opOf 0x0583D090, dOf 0x0583D090, toSigned 20 (slice 0x0583D090 0 20)) = (0x01, 3, 250000) ∧
    (opOf 0x31B1EC78, dOf 0x31B1EC78, sOf 0x31B1EC78, toSigned 17 (slice 0x31B1EC78 0 17)) = (0x0C, 3, 3, -5000) := by decide +kernel

/-- The diverter of the worked example under R214: profile 0 of TRK[0]. -/
def diverterHub : Hub :=
  let g := (r.putCfg (pTrk 0) (TRK.LEAD_TIME_TICKS 0) 2000000).putCfg (pTrk 0) (TRK.PROF_CFG_NPTS 0) 8
  [(0, 625, 1800), (1, 1250, 1650), (2, 1750, 1540), (3, 2250, 1450), (4, 2750, 1380), (5, 3125, 1330), (6, 3500, 1290), (7, 3875, 1260)].foldl
    (fun g e => (g.putCfg (pTrk 0) (TRK.LEAD_TAB_SPEED e.1) e.2.1).putCfg (pTrk 0) (TRK.LEAD_TAB_LEAD e.1) e.2.2) g

/-- The queue words of the diverter's pulse, its velocity at the hit (28,005.36 counts/s), its lead (5,289.946 µs), as the manual works them
out, and its firing instant: 5,356,630.43 ticks less 2,644,973 ticks, to the nearest tick. (The manual's table goes to the grid from times
it has rounded to nanoseconds, and so lands one tick later.) -/
theorem test_diverter :
    (bindOf 0xA80CEA60 0xFFE00000 0x6F).target = 7340000 * 65536 ∧
    ({ qe0 := 0xA80CEA60 } : QEntry).op = 2 ∧ ({ qe0 := 0xA80CEA60 } : QEntry).value = 60000 ∧
    diverterHub.convert { pos := 7339700 * 65536, vel := 28000 * 256, acc := 500 * 256 } (bindOf 0xA80CEA60 0xFFE00000 0x6F)
      = some (2711657, 7169371, 2644973) := by decide +kernel

/-- A field of the hub that a command answers, if it answers a next state. -/
def after (o : Host.Outcome State Fault Refusal) (f : Hub → Nat) : Option Nat :=
  match o with
  | .next t => some (f t.hub)
  | _ => none

/-- ADD W1 = W0 + W0 with W0 = 0x80000000 wraps to 0 and sets Z and C (R407, R408). -/
theorem test_prism_add_wraps :
    let s := of ((prsAt 0x10800000).put (pPrs 0) (PRS.W_VALUE 0) 0x80000000)
    after (exec (.add 0) s) (fun h => h.get (pPrs 0) (PRS.W_VALUE 1)) = some 0 ∧
    after (exec (.add 0) s) (fun h => flag (h.eng 0).z + 2 * flag (h.eng 0).c) = some 3 := by decide +kernel

/-- The character A, 0x41, has two ones: its even parity bit is 0, its odd one 1, MARK is 1 and SPACE 0; low throughout, with the parity and
the stop bits, a character is a break (R369, R370). -/
theorem test_parity :
    [1, 2, 3, 4].map (fun k => parityWrong k 8 0x41 true) = [true, false, false, true] ∧
    judgeRx 1 8 (.char 0x41 false false) = some (0x41, false, false) ∧ judgeRx 1 8 (.char 0 false true) = none := by decide +kernel

/-- A write of a staged register changes the staged value and leaves the committed one (R46). -/
theorem test_staging :
    after (exec (.registerWrite .secure (pRport 0) 0x040 4 0xFFFFFFFF) (of r)) (fun h => flag (decide (h.staged ≠ r.staged)) + 2 * flag (decide
      (h.committed = r.committed)))
      = some 3 := by decide +kernel

/-- A read-only register keeps its value (R31). -/
theorem test_read_only : after (exec (.registerWrite .secure pSys 0x030 4 0) (of r)) (fun h => h.get pSys SYS.MODE_CUR) = some Mode.running.code := by
  decide +kernel

/-- The command at the front of the queue runs, with the queue's rest. -/
theorem test_front_of_the_queue : step { of r with pending := [.commitInstant, .nop 0] } = exec .commitInstant { of r with pending := [.nop 0] } := rfl

/-- Writes that reach one register on one edge take effect in the order Annex, TEN[7] to TEN[0], local host, secure world (R43). -/
theorem test_write_order :
    r.edgeOrder [.registerWrite .secure pTime 0x050 4 1, .registerWrite (.tenant 0) pTime 0x050 4 2, .registerWrite .host pTime 0x050 4 3,
        .registerWrite (.tenant 7) pTime 0x050 4 4, .registerWrite .annex pTime 0x050 4 5] =
      [.registerWrite .annex pTime 0x050 4 5, .registerWrite (.tenant 7) pTime 0x050 4 4, .registerWrite (.tenant 0) pTime 0x050 4 2,
        .registerWrite .host pTime 0x050 4 3, .registerWrite .secure pTime 0x050 4 1] := by decide +kernel

/-- A mailbox's commands of one edge take effect in the order ACK, RECALL, SEND, data write (R482). -/
theorem test_mailbox_order :
    r.edgeOrder [.mailboxDataWrite .host 0xC00 4 1, .send .host 0 4, .recall .host 0, .ack .secure 0 0] =
      [.ack .secure 0 0, .recall .host 0, .send .host 0 4, .mailboxDataWrite .host 0xC00 4 1] := by decide +kernel

/-- In Shelf a register write answers nothing and changes nothing (R101). -/
theorem test_shelf :
    after (exec (.registerWrite .secure pTime 0x050 4 5) (of (z.put pSys SYS.MODE_CUR Mode.shelf.code)))
      (fun h => h.out.length + flag (decide (h.live ≠ (z.put pSys SYS.MODE_CUR Mode.shelf.code).live))) = some 0 := by decide +kernel

end Sys2Proof.Tests
end

section
/-!
PROOFS. Registers and pages (02_registers_pages.md): accesses to unused pages (R32), interrupt flags that rise while they are cleared (R37), and a
commit whose instant comes too early (R53). Each proof says what the command itself does and carries it through the end of the command.
-/
namespace Sys2Proof.Machine

open Reg

/-! ### A write answered, and the command's end after it -/

/-- After the answer to a write and the command's end, only what records the answer and what that end may change can differ. -/
theorem State.keeps_ends_hear (s : State) (e : Hub) (req : Req) (addr st : Nat) (hd : e.sys.due = [])
    (hw : e.edge.more = true ∨ e.edge.want = none) :
    (s.ends (e.hear req addr st)).hub.keeps e (responsePlaces req ++ endPlaces) := by
  obtain ⟨hmore, hwant⟩ := e.hear_due req addr st
  have hend : ((e.hear req addr st).finish s.hub).keeps (e.hear req addr st) endPlaces :=
    Hub.keeps_finish _ _ (by rw [Hub.hear_sys, hd]) (by rwa [hmore, hwant])
  rw [State.ends_hub]
  exact Hub.keeps_trans _ _ _ _ (Hub.keeps_mono _ _ _ _ hend fun _ => List.mem_append_right _)
    (Hub.keeps_mono _ _ _ _ (e.keeps_hear req addr st) fun _ => List.mem_append_left _)

/-- An error response stands among what the command has sent out, for a host while it is served. -/
theorem State.ends_hear_error (s : State) (e : Hub) (req : Req) (addr st : Nat) (hd : e.sys.due = [])
    (hw : e.edge.more = true ∨ e.edge.want = none) (hst : st ≠ 0) (hh : req = .host → e.hostServed = true) :
    .resp req false ∈ (s.ends (e.hear req addr st)).hub.out := by
  obtain ⟨hmore, hwant⟩ := e.hear_due req addr st
  rw [State.ends_hub]
  exact Hub.out_finish _ _ _ (by rw [Hub.hear_sys, hd]) (by rwa [hmore, hwant]) (e.hear_error req addr st hst hh)

/-- The answer to a write is recorded in no register of SYS. -/
theorem sysPlace_not_mem_responsePlaces (req : Req) (f : Fld) : f.on pSys ∉ responsePlaces req := by
  have hpage : ∀ k ∈ responsePlaces .host, k.page ≠ pSys := by decide
  unfold responsePlaces
  split
  · exact fun hm => hpage _ hm rfl
  · exact List.not_mem_nil

/-! ### Accesses to unused pages (R32) -/

/-- What serves the host is settled on the host port's page, in the gates' state and in what waits to be ungated. -/
theorem Hub.hostServed_of_keeps (g h : Hub) (l : List Key) (hk : g.keeps h l) (hs : g.sys = h.sys)
    (hl : ∀ k ∈ [HOST.STAT_IF.on pHost, HOST.STAT_LINK_UP.on pHost, HOST.STAT_D3.on pHost, SYS.GATE_STAT_STATE.on pSys], k ∉ l) :
    g.hostServed = h.hostServed := by
  have hif := g.get_of_keeps h l hk pHost HOST.STAT_IF (hl _ (by simp))
  have hup := g.get_of_keeps h l hk pHost HOST.STAT_LINK_UP (hl _ (by simp))
  have hd3 := g.get_of_keeps h l hk pHost HOST.STAT_D3 (hl _ (by simp))
  have hgate := g.get_of_keeps h l hk pSys SYS.GATE_STAT_STATE (hl _ (by simp))
  simp only [Hub.hostServed, Hub.pcieServes, Hub.qspiServes, Hub.hostIf, Hub.on, Hub.gated, Hub.gateState, hif, hup, hd3, hgate, hs]

theorem Hub.hostServed_accErr (h : Hub) (req : Req) (p off : Nat) : (h.accErr req p off).hostServed = h.hostServed :=
  Hub.hostServed_of_keeps _ _ _ (h.keeps_accErr req p off) rfl (by decide)

theorem Hub.hostServed_of_not_turned (h : Hub) (req : Req) (p : Nat) (ht : h.hostTurned req p = false) :
    req = .host → h.hostServed = true := by
  rintro rfl
  simp only [Hub.hostTurned, beq_self_eq_true, Bool.true_and, Bool.or_eq_false_iff, Bool.not_eq_false'] at ht
  exact ht.1

theorem reqCode_lt (req : Req) : req.code < 2 ^ 4 := by
  cases req with
  | tenant t => exact Nat.lt_trans (Nat.mod_lt t (by decide)) (by decide)
  | host => decide
  | secure => decide
  | annex => decide

/-- ACC_ERR shows the requester, the page and the offset of the access it records. -/
theorem Hub.get_accErr (h : Hub) (req : Req) (p off : Nat) :
    (h.accErr req p off).get pSys SYS.ACC_ERR_REQ = req.code ∧ (h.accErr req p off).get pSys SYS.ACC_ERR_PAGE = p % 2 ^ 12 ∧
    (h.accErr req p off).get pSys SYS.ACC_ERR_OFFSET = off % 2 ^ 12 := by
  unfold Hub.accErr
  refine ⟨?_, ?_, Hub.get_put_same _ _ _ _⟩
  · rw [Hub.get_put_other _ _ _ _ _ _ (by decide), Hub.get_put_other _ _ _ _ _ _ (by decide), Hub.get_put_same]
    exact Nat.mod_eq_of_lt (reqCode_lt req)
  · rw [Hub.get_put_other _ _ _ _ _ _ (by decide), Hub.get_put_same]
    rfl

/-- A write to an unused page is recorded in ACC_ERR and answered with an error. -/
theorem Hub.regWrite_unused (h : Hub) (req : Req) (p off size v addr : Nat) (ready : Hub → Nat → Hub × Bool) (hu : usedPage p = false)
    (hh : h.hostTurned req p = false) (ha : h.annexTurned req p off true = none) :
    h.regWrite req p off size v (.reply req addr) ready = (h.accErr req p off).hear req addr (h.stopStatus req p off size true) := by
  have hp : p ≠ pSys := by
    rintro rfl
    exact absurd hu (by decide)
  have ht : h.turnedAway req p off size = some (h.accErr req p off) := by simp [Hub.turnedAway, hh, ha, hu]
  simp only [Hub.regWrite, hp, false_and, if_false, ht, Hub.stallEnds]

/-- A read of an unused page is recorded in ACC_ERR and answers 0 with an error status. -/
theorem Hub.regRead_unused (h : Hub) (req : Req) (p off size : Nat) (hu : usedPage p = false)
    (hh : h.hostTurned req p = false) (ha : h.annexTurned req p off false = none) :
    h.regRead req p off size = (h.stopStatus req p off size false, 0, h.accErr req p off) := by
  have ht : h.readTurnedAway req p off size = some (h.accErr req p off) := by simp [Hub.readTurnedAway, hh, ha, hu]
  simp only [Hub.regRead, ht]

/-- Settles O40: either access is stopped at its page, and ACC_ERR's places are none that the answer or the command's end may change. -/
theorem unusedPageIsRefused : Obligations.UnusedPageIsRefused := by
  refine ⟨fun s req page off size value hu hawake hset hh ha => ?_, fun h req page off size hu hh ha => ?_⟩
  · have hserved : req = .host → (s.found.accErr req page off).hostServed = true := by
      rw [Hub.hostServed_accErr]
      exact s.found.hostServed_of_not_turned req page hh
    have hanswer := s.ends_hear_error (s.found.accErr req page off) req (pageAddr page off) _ rfl hset
      (s.found.stopStatus_ne req page off size true) hserved
    have hafter := s.keeps_ends_hear (s.found.accErr req page off) req (pageAddr page off) (s.found.stopStatus req page off size true) rfl hset
    have hget (f : Fld) (hf : f.on pSys ∉ endPlaces) := Hub.get_of_keeps _ _ _ hafter pSys f
      (by simpa only [List.mem_append, hf, or_false] using sysPlace_not_mem_responsePlaces req f)
    obtain ⟨hreq, hpage, hoff⟩ := s.found.get_accErr req page off
    refine ⟨_, (run_awake s _ hawake).trans (by rw [Hub.regWrite_unused _ _ _ _ _ _ _ _ hu hh ha]), hanswer,
      (hget _ (by decide)).trans hreq, (hget _ (by decide)).trans hpage, (hget _ (by decide)).trans hoff, ?_⟩
    rw [List.append_assoc]
    exact Hub.keeps_trans _ _ _ _ (Hub.keeps_mono _ _ _ _ hafter fun _ => List.mem_append_right _)
      (Hub.keeps_trans _ _ _ _ (Hub.keeps_mono _ _ _ _ (s.found.keeps_accErr req page off) fun _ => List.mem_append_left _) (s.keeps_found _))
  · rw [Hub.regRead_unused _ _ _ _ _ hu hh ha]
    obtain ⟨hreq, hpage, hoff⟩ := h.get_accErr req page off
    exact ⟨h.stopStatus_ne req page off size false, rfl, hreq, hpage, hoff, h.keeps_accErr req page off⟩

/-! ### Interrupt flags through the end of a command (R36, R37) -/

/-- Every interrupt flag that is set in one hub is set in another. -/
def Hub.irqHeld (g h : Hub) : Prop :=
  ∀ p i, i < 32 → bitOf (h.get p PG.IRQ_RAW) i = true → bitOf (g.get p PG.IRQ_RAW) i = true

theorem Hub.irqHeld_refl (h : Hub) : h.irqHeld h := fun _ _ _ hb => hb

theorem Hub.irqHeld_trans {a b c : Hub} (h1 : a.irqHeld b) (h2 : b.irqHeld c) : a.irqHeld c :=
  fun p i hi hb => h1 p i hi (h2 p i hi hb)

theorem Hub.irqHeld_foldl {α : Type} (xs : List α) (f : Hub → α → Hub) (h : Hub) (hf : ∀ g x, (f g x).irqHeld g) :
    (xs.foldl f h).irqHeld h := by
  induction xs generalizing h with
  | nil => exact h.irqHeld_refl
  | cons x xs ih => exact Hub.irqHeld_trans (ih _) (hf h x)

/-- A field of another register put leaves every flag as it was. -/
theorem Hub.irqHeld_put (h : Hub) (p : Nat) (f : Fld) (v : Nat) (hf : f.off ≠ PG.IRQ_RAW.off) : (h.put p f v).irqHeld h := by
  intro q i _ hb
  rwa [Hub.get_put_other _ _ _ _ _ _ fun hk => hf (congrArg Key.off hk)]

/-- The field's 32 bits are all that a write of PG_IRQ_RAW can set. -/
theorem Hub.bitOf_get_put_irqRaw (h : Hub) (p v i : Nat) (hi : i < 32) (hb : bitOf v i = true) :
    bitOf ((h.put p PG.IRQ_RAW v).get p PG.IRQ_RAW) i = true := by
  rw [Hub.get_put_same, bitOf, Nat.testBit_mod_two_pow]
  exact Bool.and_eq_true_iff.2 ⟨decide_eq_true hi, hb⟩

theorem bitOf_or (m n i : Nat) : bitOf (m ||| n) i = (bitOf m i || bitOf n i) := Nat.testBit_or m n i

/-- A flag that is raised leaves the others set. -/
theorem Hub.irqHeld_irq (h : Hub) (p bit : Nat) : (h.irq p bit).irqHeld h := by
  intro q i hi hb
  rw [Hub.irq, Hub.get_noteRisen]
  by_cases hq : q = p
  · subst hq
    exact h.bitOf_get_put_irqRaw q _ i hi (by rw [withBit, bitOf_or, hb, Bool.true_or])
  · rwa [Hub.get_put_other _ _ _ _ _ _ fun hk => hq (congrArg Key.page hk).symm]

theorem Hub.irqHeld_signal (h : Hub) (v : Nat) : (h.signal v).irqHeld h := by
  unfold Hub.signal Hub.setPending
  split
  · exact h.irqHeld_refl
  · split
    · exact h.irqHeld_refl
    · exact h.irqHeld_put _ _ _ (by split <;> decide)

theorem Hub.irqHeld_edges (h old : Hub) : (h.edges old).irqHeld h := by
  unfold Hub.edges
  dsimp only
  generalize hbells : List.foldl _ h (List.range 4) = g
  have hg : g.irqHeld h := by
    rw [← hbells]
    refine Hub.irqHeld_foldl _ _ _ fun g s => ?_
    split
    · split
      · exact Hub.irqHeld_trans (Hub.irqHeld_signal _ _) (g.irqHeld_irq _ _)
      · exact g.irqHeld_irq _ _
    · exact g.irqHeld_refl
  split
  · exact Hub.irqHeld_trans (g.irqHeld_signal _) hg
  · exact hg

theorem Hub.irqHeld_noteReaders (h : Hub) : h.noteReaders.irqHeld h := by
  refine Hub.irqHeld_foldl _ _ _ fun g m => ?_
  split
  · exact g.irqHeld_put _ _ _ (by simp only [MBX.STAT_WAITING, PG.IRQ_RAW]; omega)
  · exact g.irqHeld_refl

theorem Hub.irqHeld_followHolds (h old : Hub) : (h.followHolds old).irqHeld h := by
  unfold Hub.followHolds
  split
  · exact h.irqHeld_refl
  · refine Hub.irqHeld_foldl _ _ _ fun g i => ?_
    split
    · exact g.irqHeld_refl
    · exact g.irqHeld_put _ _ _ (by decide)

/-- The end of a command that leaves nothing to be judged clears no interrupt flag. -/
theorem Hub.irqHeld_finish (h old : Hub) (hd : h.sys.due = []) (hw : h.edge.more = true ∨ h.edge.want = none) : (h.finish old).irqHeld h := by
  unfold Hub.finish
  rw [h.settled_eq hd hw]
  exact Hub.irqHeld_trans (Hub.irqHeld_followHolds _ _) (Hub.irqHeld_trans (Hub.irqHeld_noteReaders _) (h.irqHeld_edges old))

/-- An admitted write whose effect is always accepted is answered without an error. -/
theorem Hub.writeDo_admitted (h : Hub) (req : Req) (p off : Nat) (k : Hub → Hub) (ha : h.turnedAway req p off 4 = none) :
    h.writeDo req p off k = (k h).emit (.resp req true) := by
  simp only [Hub.writeDo, Hub.write, ha, if_true, Hub.hear_ok]

/-- Clearing flags by a mask leaves set what rises with the command, and what has risen on its edge before it. -/
theorem Hub.bitOf_clearIrq (h : Hub) (p mask setNow i : Nat) (hi : i < 32)
    (hb : bitOf (pageFlags p setNow) i = true ∨ bitOf (Map.getD h.edge.risen p 0) i = true) :
    bitOf ((h.clearIrq p mask setNow).get p PG.IRQ_RAW) i = true := by
  refine h.bitOf_get_put_irqRaw p _ i hi ?_
  rw [bitOf_or, bitOf_or]
  rcases hb with hb | hb <;> simp [hb]

/-- Settles O45: the write puts the flags of the cycle back, and the command's end clears none. -/
theorem irqFlagSurvivesItsClearing : Obligations.IrqFlagSurvivesItsClearing := by
  intro s req page mask setNow i hawake hset hadm hi hb
  have hheld := Hub.irqHeld_finish ((s.found.clearIrq page mask setNow).emit (.resp req true)) s.hub rfl hset
  refine ⟨_, (run_awake s _ hawake).trans (by rw [Hub.writeDo_admitted _ _ _ _ _ hadm]), ?_⟩
  rw [State.ends_hub]
  exact hheld page i hi (s.found.bitOf_clearIrq page mask setNow i hi hb)

/-! ### A commit attempt that is refused (R46, R51, R53) -/

/-- Leaving out entries of other places leaves a place's value. -/
theorem RegFile.find_filter (r : RegFile) (q : Key × Nat → Bool) (k : Key) (hq : ∀ v, q (k, v) = true) :
    RegFile.find (r.filter q) k = RegFile.find r k := by
  induction r with
  | nil => rfl
  | cons e r ih =>
    by_cases he : e.1 = k
    · have hkept : q e = true := by rw [show e = (k, e.2) from Prod.ext he rfl]; exact hq e.2
      simp [List.filter, hkept, RegFile.find, he]
    · by_cases hkept : q e = true <;> simp [List.filter, hkept, RegFile.find, he, ih]

/-- The expert levels are the XOPEN bits of PG_STAT; no other register holds one (R46). -/
theorem Hub.get_closeExpert (h : Hub) (p : Nat) (f : Fld) (hf : f.off ≠ PG.STAT_XOPEN.off) : h.closeExpert.get p f = h.get p f := by
  have hlive : RegFile.find h.closeExpert.live ⟨p, f.off, f.lo⟩ = RegFile.find h.live ⟨p, f.off, f.lo⟩ :=
    RegFile.find_filter _ _ _ fun _ => by simp only [beq_false_of_ne (show f.off ≠ 0x00C from hf), Bool.false_and, Bool.not_false]
  unfold Hub.get
  split
  · rfl
  · rw [hlive]

/-- The end of an attempt closes the expert levels over the result put and the state IDLE. -/
theorem Hub.get_endAttempt (h : Hub) (result p : Nat) (f : Fld) (hf : f.off ≠ PG.STAT_XOPEN.off) :
    (h.endAttempt result).get p f =
      ((h.put pSys SYS.COMMIT_STATE_LAST_RESULT result).put pSys SYS.COMMIT_STATE_STATE 0).get p f :=
  Hub.get_closeExpert _ p f hf

theorem Hub.get_refuseCode (h : Hub) (code : Nat) : (h.refuseCode code).get pSys SYS.REFUSE_CODE_CODE = code % 2 ^ 16 := by
  unfold Hub.refuseCode
  iterate 3 rw [Hub.get_put_other _ _ _ _ _ _ (by decide)]
  exact Hub.get_put_same _ _ _ _

/-- Settles O46: the attempt ends with the code put before its end, and only present values change. -/
theorem lateCommitIsRefused : Obligations.LateCommitIsRefused := by
  intro s hawake hstate hcmd
  refine ⟨(s.found.refuseCode 0x0A02).endAttempt 4, (run_awake s _ hawake).trans ?_, ?_, ?_, ?_, rfl, rfl⟩
  · rw [if_pos ⟨hstate, hcmd⟩, Hub.refuseAttempt]
  · rw [Hub.get_endAttempt _ _ _ _ (by decide), Hub.get_put_other _ _ _ _ _ _ (by decide), Hub.get_put_other _ _ _ _ _ _ (by decide),
      Hub.get_refuseCode]
    rfl
  · rw [Hub.get_endAttempt _ _ _ _ (by decide), Hub.get_put_other _ _ _ _ _ _ (by decide), Hub.get_put_same]
    rfl
  · rw [Hub.get_endAttempt _ _ _ _ (by decide), Hub.get_put_same]
    rfl

end Sys2Proof.Machine
end

section
/-!
PROOFS. What every command and every step does, whichever it is: a command is run in one of three ways (R96, R100, R101, R103), it answers a next
state and leaves the queue alone, and its end leaves no mailbox WAITING for a reader that is present (R483).
-/
namespace Sys2Proof.Machine

open Reg

/-! ### How a command comes to run -/

/-- The commands of the keep-alive domain, which act in every mode (R101). -/
def actsAlways : Instr → Bool
  | .powerOn _ | .supplyPresent _ _ | .supplyLost _ | .wakeEvent _ | .rstN | .rstNRelease => true
  | _ => false

/-- The references, the PLLs and the waits of start-up, which act outside Shelf (R101, R105). -/
def actsPowered : Instr → Bool
  | .powerOnHoldEnd | .referenceValid _ | .referenceWaitLimit | .corePllLock .. | .ref25Lost | .corePllSwitchover | .ref156Lost | .clockLoss => true
  | _ => false

/-- Every command is run in one of three ways: by the core, by start-up, or by the keep-alive domain. -/
theorem exec_cases (c : Instr) (s : State) :
    (∃ f, exec c s = run s f) ∨ (actsPowered c = true ∧ ∃ f, exec c s = runPowered s f) ∨
    (actsAlways c = true ∧ ∃ g, exec c s = .next (s.ends g)) := by
  cases c
  case powerOn | supplyPresent | supplyLost | wakeEvent | rstN | rstNRelease => exact .inr (.inr ⟨rfl, _, rfl⟩)
  case powerOnHoldEnd | referenceValid | referenceWaitLimit | corePllLock | ref25Lost | corePllSwitchover | ref156Lost | clockLoss =>
    exact .inr (.inl ⟨rfl, _, rfl⟩)
  all_goals exact .inl ⟨_, rfl⟩

/-- While the core runs a command ends in the state that its own effect is found to give. -/
theorem run_ends (s : State) (f : Hub → Hub) (g : Hub) (h : s.awake) (hf : f s.found = g) : run s f = .next (s.ends g) :=
  hf ▸ run_awake s f h

theorem runPowered_shelf (s : State) (f : Hub → Hub) (h : s.hub.mode = .shelf) : runPowered s f = .next { s with hub := s.hub.begin } :=
  if_pos h

theorem coreRuns_of_shelf (h : Hub) (hs : h.mode = .shelf) : h.coreRuns = false := by
  simp [Hub.coreRuns, hs]

/-- A command either ends as every command does, or it does nothing but clear what the last one sent out. -/
theorem exec_ends_or_begins (c : Instr) (s : State) :
    (∃ g, exec c s = .next (s.ends g)) ∨ exec c s = .next { s with hub := s.hub.begin } := by
  rcases exec_cases c s with ⟨f, hf⟩ | ⟨-, f, hf⟩ | ⟨-, hg⟩
  · by_cases hrun : s.awake
    · exact .inl ⟨_, hf.trans (run_awake s f hrun)⟩
    · exact .inr (hf.trans (run_asleep s f (Bool.eq_false_iff.2 hrun)))
  · by_cases hshelf : s.hub.mode = .shelf
    · exact .inr (hf.trans (runPowered_shelf s f hshelf))
    · exact .inl ⟨_, hf.trans (runPowered_ends s f hshelf)⟩
  · exact .inl hg

/-- Settles O32: all but the keep-alive domain's commands run by start-up, which Shelf stops, or by the core, which a lack of supply or clock stops. -/
theorem onlyKeepAliveActsInShelf : Obligations.OnlyKeepAliveActsInShelf := by
  intro c s hpower hcame hwent hwake hrst hrelease
  have hcore : actsAlways c = false := by
    cases c with
    | powerOn b => exact absurd rfl (hpower b)
    | supplyPresent d mv => exact absurd rfl (hcame d mv)
    | supplyLost d => exact absurd rfl (hwent d)
    | wakeEvent e => exact absurd rfl (hwake e)
    | rstN => exact absurd rfl hrst
    | rstNRelease => exact absurd rfl hrelease
    | _ => rfl
  refine ⟨fun hshelf => ?_, fun hstop hhold href hwait hlock h25 hswitch h156 hloss => ?_⟩
  · rcases exec_cases c s with ⟨f, hf⟩ | ⟨-, f, hf⟩ | ⟨hc, -⟩
    · exact hf.trans (run_asleep s f (coreRuns_of_shelf _ hshelf))
    · exact hf.trans (runPowered_shelf s f hshelf)
    · simp [hcore] at hc
  · have hstart : actsPowered c = false := by
      cases c with
      | powerOnHoldEnd => exact absurd rfl hhold
      | referenceValid b => exact absurd rfl (href b)
      | referenceWaitLimit => exact absurd rfl hwait
      | corePllLock a b i n => exact absurd rfl (hlock a b i n)
      | ref25Lost => exact absurd rfl h25
      | corePllSwitchover => exact absurd rfl hswitch
      | ref156Lost => exact absurd rfl h156
      | clockLoss => exact absurd rfl hloss
      | _ => rfl
    rcases exec_cases c s with ⟨f, hf⟩ | ⟨hc, -⟩ | ⟨hc, -⟩
    · exact hf.trans (run_asleep s f hstop)
    · simp [hstart] at hc
    · simp [hcore] at hc

/-! ### The queue of commands -/

/-- Settles O35: however it is run, a command answers a next state, made from the state's own queue. -/
theorem everyCommandAnswers : Obligations.EveryCommandAnswers := by
  intro c s
  rcases exec_ends_or_begins c s with ⟨g, hg⟩ | hb
  · exact ⟨_, hg, s.ends_pending g⟩
  · exact ⟨_, hb, rfl⟩

/-- Settles O29: the step's own case of a queue that is not empty. -/
theorem stepRunsTheFrontCommand : Obligations.StepRunsTheFrontCommand := fun _ _ _ => rfl

/-- Settles O36: by induction over the queue; each step takes one command from it and adds none. -/
theorem queueDrains : Obligations.QueueDrains := by
  rintro ⟨h, q⟩
  induction q generalizing h with
  | nil => exact ⟨_, rfl, rfl⟩
  | cons c q ih =>
    obtain ⟨⟨g, r⟩, ht, hq⟩ := everyCommandAnswers c ⟨h, q⟩
    obtain rfl : r = q := hq
    obtain ⟨u, hu, hempty⟩ := ih g
    have hstep : Sys2Proof.core.step ⟨h, c :: r⟩ = .next ⟨g, r⟩ := (stepRunsTheFrontCommand ⟨h, c :: r⟩ c r).trans ht
    refine ⟨u, ?_, hempty⟩
    simpa only [List.length_cons, Host.Core.run, hstep] using hu

/-! ### Mailboxes that wait for a reader (R483) -/

/-- A mailbox shows WAITING only while its reader is absent. -/
def Hub.mailboxServed (h : Hub) (m : Nat) : Prop :=
  h.on pMbx (MBX.STAT_WAITING m) = true → h.readerPresent (h.cfg pMbx (MBX.CFG_READER m)) = false

/-- One mailbox judged by `Hub.noteReaders`: its WAITING clears where its reader is present. -/
def Hub.noteReader (h : Hub) (m : Nat) : Hub :=
  if h.on pMbx (MBX.STAT_WAITING m) && h.readerPresent (h.cfg pMbx (MBX.CFG_READER m)) then h.put pMbx (MBX.STAT_WAITING m) 0 else h

theorem Hub.noteReaders_eq (h : Hub) : h.noteReaders = (List.range 16).foldl Hub.noteReader h := rfl

/-- Setting a field leaves every field of another page as it was. -/
theorem Hub.get_put_otherPage (h : Hub) (p q : Nat) (f g : Fld) (v : Nat) (hpq : p ≠ q) : (h.put p f v).get q g = h.get q g :=
  Hub.get_put_other _ _ _ _ _ _ fun hk => hpq (congrArg Key.page hk)

/-- No field of SYS or MBX tells whether a reader is present. -/
theorem Hub.readerPresent_put (h : Hub) (p : Nat) (f : Fld) (v code : Nat) (hp : p ∈ [pSys, pMbx]) :
    (h.put p f v).readerPresent code = h.readerPresent code := by
  have hother (q : Nat) (hq : p ≠ q) (g : Fld) := h.get_put_otherPage p q f g v hq
  have hhost := hother pHost (by rintro rfl; revert hp; decide)
  have hstw := hother pStw (by rintro rfl; revert hp; decide)
  have hten := hother (pTen code) (by
    rintro rfl
    simp only [pTen, pSys, pMbx, List.mem_cons, List.not_mem_nil, or_false] at hp
    omega)
  simp only [Hub.readerPresent, Hub.hostIf, Hub.pcieUp, Hub.on, Hub.tenantOn, Hub.active, Hub.fenced, Hub.cfgOn_put, hhost, hstw, hten]
  rfl

theorem Hub.on_put_same_zero (h : Hub) (p : Nat) (f : Fld) : (h.put p f 0).on p f = false := by
  rw [Hub.on, Hub.get_put_same, Nat.zero_mod]
  rfl

/-- A mailbox that has been judged is served. -/
theorem Hub.mailboxServed_noteReader (h : Hub) (m : Nat) : (h.noteReader m).mailboxServed m := by
  unfold Hub.noteReader
  split
  · intro hw
    rw [Hub.on_put_same_zero] at hw
    cases hw
  · rename_i hn
    intro hw
    simpa [hw] using hn

/-- Clearing one mailbox's WAITING leaves served what was served. -/
theorem Hub.mailboxServed_put_waiting (h : Hub) (k m : Nat) (hs : h.mailboxServed k) :
    (h.put pMbx (MBX.STAT_WAITING m) 0).mailboxServed k := by
  intro hw
  rw [Hub.readerPresent_put _ _ _ _ _ (by decide), Hub.cfg_put]
  refine hs ?_
  by_cases hk : MBX.STAT_WAITING k = MBX.STAT_WAITING m
  · rw [hk, Hub.on_put_same_zero] at hw
    cases hw
  · rwa [Hub.on, Hub.get_put_other] at hw
    intro he
    simp only [Key.mk.injEq] at he
    exact hk (by simp only [MBX.STAT_WAITING] at he ⊢; simp [he.2.1])

theorem Hub.mailboxServed_noteReader_other (h : Hub) (k m : Nat) (hs : h.mailboxServed k) : (h.noteReader m).mailboxServed k := by
  unfold Hub.noteReader
  split
  · exact h.mailboxServed_put_waiting k m hs
  · exact hs

theorem Hub.mailboxServed_foldl (l : List Nat) (h : Hub) (m : Nat) (hm : m ∈ l ∨ h.mailboxServed m) :
    (l.foldl Hub.noteReader h).mailboxServed m := by
  induction l generalizing h with
  | nil => exact hm.resolve_left List.not_mem_nil
  | cons k l ih =>
    refine ih (h.noteReader k) ?_
    rcases hm with hm | hm
    · rcases List.mem_cons.1 hm with rfl | hm
      · exact .inr (h.mailboxServed_noteReader m)
      · exact .inl hm
    · exact .inr (h.mailboxServed_noteReader_other m k hm)

/-- The holds on gates tell nothing of the mailboxes. -/
theorem Hub.mailboxServed_put_hold (h : Hub) (m v : Nat) (hs : h.mailboxServed m) : (h.put pSys SYS.GATE_HOLD_HOLD v).mailboxServed m := by
  intro hw
  rw [Hub.readerPresent_put _ _ _ _ _ (by decide), Hub.cfg_put]
  refine hs ?_
  rwa [Hub.on, Hub.get_put_otherPage _ _ _ _ _ _ (by decide)] at hw

theorem Hub.mailboxServed_followHolds (h old : Hub) (m : Nat) (hs : h.mailboxServed m) : (h.followHolds old).mailboxServed m := by
  unfold Hub.followHolds
  split
  · exact hs
  · refine List.foldlRecOn (motive := fun g : Hub => g.mailboxServed m) _ _ hs fun g hg i _ => ?_
    split
    · exact hg
    · exact g.mailboxServed_put_hold m _ hg

/-- The end of a command judges every mailbox. -/
theorem Hub.readersServed_finish (h old : Hub) : (h.finish old).readersServed := fun m hm =>
  Hub.mailboxServed_followHolds _ _ m (Hub.mailboxServed_foldl _ _ m (.inl (List.mem_range.2 hm)))

/-- An edge of the clock ends as a command does, or leaves the registers as they were. -/
theorem Hub.readersServed_tick (h : Hub) (hs : h.readersServed) : h.tick.readersServed := by
  unfold Hub.tick
  split
  · exact hs
  · exact Hub.readersServed_finish _ _

/-- A step is an edge of the clock, or the command at the front of the queue. -/
theorem step_cases (s t : State) (h : step s = .next t) :
    (s.pending = [] ∧ s.tick = t) ∨ ∃ c q, s.pending = c :: q ∧ exec c { s with pending := q } = .next t := by
  unfold step at h
  split at h
  · rename_i hq
    exact .inl ⟨hq, Host.Outcome.next.inj h⟩
  · rename_i c q hq
    exact .inr ⟨c, q, hq, h⟩

/-- Settles O37: what ends as every command does has judged every mailbox at its end; anything else leaves the registers as they were. -/
theorem waitingOnlyWhileReaderAbsent : Obligations.WaitingOnlyWhileReaderAbsent := by
  intro s t hs hstep
  rcases step_cases s t hstep with ⟨-, rfl⟩ | ⟨c, q, -, hc⟩
  · exact s.hub.readersServed_tick hs
  · rcases exec_ends_or_begins c { s with pending := q } with ⟨g, hg⟩ | hb
    · obtain rfl := Host.Outcome.next.inj (hg.symm.trans hc)
      rw [State.ends_hub]
      exact Hub.readersServed_finish _ _
    · obtain rfl := Host.Outcome.next.inj (hb.symm.trans hc)
      exact hs

end Sys2Proof.Machine
end

section
/-!
PROOFS. The encoding of LRL frames: the bytes of a number (R5), the two checks (R121), the header (R120) and a whole frame (R126).
-/
namespace Sys2Proof

/-! ### Little-endian bytes (R5) -/

/-- Bytes read back as the number that they spell, cut to their count. -/
theorem leNat_leBytes (k n : Nat) : leNat (leBytes k n) = n % 256 ^ k := by
  induction k generalizing n with
  | zero => simp [leBytes, leNat, Nat.mod_one]
  | succ k ih =>
    rw [leBytes, leNat, ih, BitVec.toNat_ofNat, show 2 ^ 8 = 256 from rfl, pow_succ', Nat.mod_mul]

theorem leNat_leBytes_of_lt (k n : Nat) (h : n < 256 ^ k) : leNat (leBytes k n) = n := by
  rw [leNat_leBytes, Nat.mod_eq_of_lt h]

/-- A field of bytes: what stands before it is dropped, what follows it is not taken. -/
theorem take_drop_field {α : Type} (a b c : List α) (i n : Nat) (ha : a.length = i) (hb : b.length = n) :
    ((a ++ b ++ c).drop i).take n = b := by
  rw [List.append_assoc, List.drop_left' ha, List.take_left' hb]

/-! ### The checks (R121) -/

theorem crcLeft_lt (n c : Nat) (h : c < 2 ^ 16) : crcLeft 0x1021 n c < 2 ^ 16 := by
  induction n generalizing c with
  | zero => exact h
  | succ n ih =>
    refine ih _ ?_
    split
    · exact Nat.xor_lt_two_pow (Nat.mod_lt _ (by decide)) (by decide)
    · exact Nat.mod_lt _ (by decide)

theorem crc16Run_lt (bs : List Byte) (c : Nat) (h : c < 2 ^ 16) : crc16Run 0x1021 bs c < 2 ^ 16 := by
  induction bs generalizing c with
  | nil => exact h
  | cons b bs ih =>
    refine ih _ (crcLeft_lt _ _ (Nat.xor_lt_two_pow h ?_))
    have := b.isLt
    omega

/-- The header check has 16 bits. -/
theorem crc16_lt (bs : List Byte) : crc16 bs < 2 ^ 16 := crc16Run_lt bs _ (by decide)

theorem crcRight_lt (n c : Nat) (h : c < 2 ^ 32) : crcRight 0xEDB88320 n c < 2 ^ 32 := by
  induction n generalizing c with
  | zero => exact h
  | succ n ih =>
    have hhalf : c / 2 < 2 ^ 32 := by omega
    refine ih _ ?_
    split
    · exact Nat.xor_lt_two_pow hhalf (by decide)
    · exact hhalf

theorem crcRun_lt (bs : List Byte) (c : Nat) (h : c < 2 ^ 32) : crcRun 0xEDB88320 bs c < 2 ^ 32 := by
  induction bs generalizing c with
  | nil => exact h
  | cons b bs ih => exact ih _ (crcRight_lt _ _ (Nat.xor_lt_two_pow h (Nat.lt_trans b.isLt (by decide))))

/-- The frame check has 32 bits. -/
theorem crc32_lt (bs : List Byte) : crc32 bs < 2 ^ 32 := Nat.xor_lt_two_pow (crcRun_lt bs _ (by decide)) (by decide)

/-! ### The header (R120) -/

theorem Header.bytes_length (x : Header) : x.bytes.length = 18 := by
  simp [Header.bytes, leBytes_length]

theorem Header.encode_length (x : Header) : x.encode.length = 20 := by
  simp [Header.encode, Header.bytes_length, leBytes_length]

/-- The header check holds of a header as it is sent, whatever follows it. -/
theorem headerCheck_encode_append (x : Header) (bs : List Byte) : headerCheck (x.encode ++ bs) = true := by
  have hbytes : (x.encode ++ bs).take 18 = x.bytes := by
    rw [Header.encode, List.append_assoc, List.take_left' x.bytes_length]
  have hcheck : leNat (((x.encode ++ bs).drop 18).take 2) = crc16 x.bytes := by
    rw [Header.encode, take_drop_field _ _ _ _ _ x.bytes_length (leBytes_length _ _)]
    exact leNat_leBytes_of_lt _ _ (crc16_lt _)
  rw [headerCheck, hbytes, hcheck, beq_self_eq_true]

/-- The four flags and the tenant share the second byte. -/
theorem flags_byte (dir wrapped dual mirror : Bool) (ten : Fin 16) :
    let w := flag dir * 128 + flag wrapped * 64 + flag dual * 32 + flag mirror * 16 + ten
    w < 256 ∧ bitOf w 7 = dir ∧ bitOf w 6 = wrapped ∧ bitOf w 5 = dual ∧ bitOf w 4 = mirror ∧ w % 16 = ten := by
  revert dir wrapped dual mirror ten
  decide

theorem flag_lt_two (b : Bool) : flag b < 2 := by
  cases b <;> decide

theorem bitOf_group (group : Bool) (dst : Nat) (h : dst < 4096) : bitOf (flag group * 4096 + dst) 12 = group := by
  rw [bitOf, Nat.testBit_eq_decide_div_mod_eq, show (flag group * 4096 + dst) / 2 ^ 12 % 2 = flag group by have := flag_lt_two group; omega]
  cases group <;> rfl

/-- One byte, and two, as their sum spells them. -/
theorem oneByte_eq (n : Nat) (h : n < 256) : n % 2 ^ 8 + 256 * 0 = n := by omega
theorem twoBytes_eq (n : Nat) (h : n < 2 ^ 16) : n % 2 ^ 8 + 256 * (n / 256 % 2 ^ 8 + 256 * 0) = n := by omega

/-- A header that fits is read back from its bytes, whatever follows them. -/
theorem Header.decode_encode_append (x : Header) (bs : List Byte) (h : x.wf = true) : Header.decode (x.encode ++ bs) = x := by
  obtain ⟨ver, type, dir, wrapped, dual, mirror, ten, group, dst, src, seq, len, hops, flow, tag, aux⟩ := x
  simp only [Header.wf, below, Bool.and_eq_true, decide_eq_true_eq] at h
  obtain ⟨⟨⟨⟨⟨⟨⟨⟨⟨⟨hver, htype⟩, hten⟩, hdst⟩, hsrc⟩, hseq⟩, hlen⟩, hhops⟩, hflow⟩, htag⟩, haux⟩ := h
  obtain ⟨hbyte, hdir, hwrapped, hdual, hmirror, hten'⟩ := flags_byte dir wrapped dual mirror ⟨ten, hten⟩
  have hgroup := flag_lt_two group
  simp only [Header.encode, Header.bytes, Header.decode, leBytes, List.cons_append, List.nil_append, List.drop, List.take, leNat,
    BitVec.toNat_ofNat, Header.mk.injEq]
  rw [Nat.mod_eq_of_lt htype, Nat.mod_eq_of_lt hten, Nat.mod_eq_of_lt hdst, Nat.mod_eq_of_lt hsrc,
    Nat.mod_eq_of_lt (b := 16384) hlen, Nat.mod_eq_of_lt (b := 16384) hhops,
    oneByte_eq (ver * 64 + type) (by omega), oneByte_eq _ hbyte, twoBytes_eq (flag group * 4096 + dst) (by omega), twoBytes_eq src (by omega),
    twoBytes_eq seq hseq, twoBytes_eq len (by omega), twoBytes_eq hops (by omega), twoBytes_eq flow hflow, twoBytes_eq tag htag,
    twoBytes_eq aux haux]
  exact ⟨by omega, by omega, hdir, hwrapped, hdual, hmirror, hten', bitOf_group group dst hdst, by omega, Nat.mod_eq_of_lt hsrc, rfl,
    Nat.mod_eq_of_lt hlen, Nat.mod_eq_of_lt hhops, rfl, rfl, rfl⟩

/-- Settles O38: the header alone, with nothing after it. -/
theorem headerRoundTrip : Obligations.HeaderRoundTrip := by
  intro x hx
  have hcheck := headerCheck_encode_append x []
  have hdecode := x.decode_encode_append [] hx
  rw [List.append_nil] at hcheck hdecode
  exact ⟨x.encode_length, hcheck, hdecode⟩

/-! ### Frames (R126) -/

/-- The bytes of a valid frame with any check of four bytes are judged by that check alone. -/
theorem judge_bytes_append (f : Frame) (chk : Nat) (hw : f.wf = true) (hv : f.hdr.valid f.cls = true) (hl : f.hdr.len ≤ f.cls.maxLen)
    (hc : chk < 2 ^ 32) : judge f.cls (f.bytes ++ leBytes 4 chk) = judgeWhole f.cls f.bytes chk := by
  simp only [Frame.wf, Bool.and_eq_true, beq_iff_eq] at hw
  obtain ⟨hwf, hlen⟩ := hw
  have hbytes : f.bytes.length = 20 + f.hdr.len := by rw [Frame.bytes, List.length_append, Header.encode_length, hlen]
  have hbody : (f.bytes ++ leBytes 4 chk).length = 24 + f.hdr.len := by
    rw [List.length_append, hbytes, leBytes_length]
    omega
  have happend : f.bytes ++ leBytes 4 chk = f.hdr.encode ++ (f.payload ++ leBytes 4 chk) := List.append_assoc _ _ _
  have hheader : headerCheck (f.bytes ++ leBytes 4 chk) = true := by rw [happend, headerCheck_encode_append]
  have hdecode : Header.decode (f.bytes ++ leBytes 4 chk) = f.hdr := by rw [happend, Header.decode_encode_append _ _ hwf]
  have hnotRunt : ¬ (24 + f.hdr.len < 20) := by omega
  simp only [judge, hbody, hnotRunt, if_false, hdecode, hheader, hv, Bool.not_true, Bool.or_self, Bool.false_eq_true, Nat.not_lt.2 hl, if_true,
    List.take_left' hbytes, List.drop_left' hbytes, leNat_leBytes_of_lt 4 chk hc]

/-- What a frame's bytes carry is the frame. -/
theorem carried_bytes (f : Frame) (hw : f.wf = true) :
    ({ cls := f.cls, hdr := Header.decode f.bytes, payload := f.bytes.drop 20 } : Frame) = f := by
  simp only [Frame.wf, Bool.and_eq_true] at hw
  rw [Frame.bytes, Header.decode_encode_append _ _ hw.1, List.drop_left' f.hdr.encode_length]

theorem xor_ne_self (c m : Nat) (h : m ≠ 0) : c ^^^ m ≠ c := fun hc => h (Nat.xor_right_injective (hc.trans (Nat.xor_zero c).symm))

/-- Settles O39: the receiver finds the header whole, and the check it finds is the frame's own or its complement. -/
theorem frameArrivesWhole : Obligations.FrameArrivesWhole := by
  intro f hw hv hl
  have hcrc := crc32_lt f.bytes
  have hcomplement : crc32 f.bytes ^^^ 0xFFFFFFFF < 2 ^ 32 := Nat.xor_lt_two_pow hcrc (by decide)
  constructor
  · rw [Frame.check, judge_bytes_append f _ hw hv hl hcrc, judgeWhole, if_pos rfl, carried_bytes f hw]
  · rw [judge_bytes_append f _ hw hv hl hcomplement, judgeWhole, if_neg (xor_ne_self _ _ (by decide)), if_pos rfl, carried_bytes f hw]

end Sys2Proof
end

section
/-!
PROOFS. Register accesses that are refused, and those that change one place (02_registers_pages.md, 03_modes_startup.md, 07_ring_time.md,
13_channels.md): a write that is turned away changes the records of refused accesses alone (R32 to R41, R92, R113, R463, R468), one that its
register refuses changes what counts it (R54, R172, R340), and one that stores a field changes that field.
-/
namespace Sys2Proof.Machine

open Reg

/-! ### A command's own effect, and its end -/

/-- The places that tell whether a host is served (R463). -/
def servedPlaces : List Key := [HOST.STAT_IF.on pHost, HOST.STAT_LINK_UP.on pHost, HOST.STAT_D3.on pHost, SYS.GATE_STAT_STATE.on pSys]

/-- A command's own effect that keeps all but some places, and asks for no fault to be judged and no change of mode. -/
structure State.MildEffect (s : State) (e : Hub) (l : List Key) : Prop where
  keeps : e.keeps s.found l
  sys : e.sys = s.found.sys
  edge : e.edge = s.found.edge

theorem State.MildEffect.due {s : State} {e : Hub} {l : List Key} (h : s.MildEffect e l) : e.sys.due = [] := by
  rw [h.sys]
  rfl

theorem State.MildEffect.quiet {s : State} {e : Hub} {l : List Key} (h : s.MildEffect e l) (hset : s.settled) :
    e.edge.more = true ∨ e.edge.want = none := by
  rwa [h.edge]

theorem State.MildEffect.refl (s : State) (l : List Key) : s.MildEffect s.found l := ⟨Hub.keeps_refl _ _, rfl, rfl⟩

theorem State.MildEffect.put {s : State} {e : Hub} {l : List Key} (h : s.MildEffect e l) (p : Nat) (f : Fld) (v : Nat) (hs : f.acc ≠ .stg)
    (hl : f.on p ∈ l) : s.MildEffect (e.put p f v) l := ⟨Hub.keeps_then_put _ _ _ _ _ _ hs hl h.keeps, h.sys, h.edge⟩

/-- A mild effect leaves the host served as it was. -/
theorem State.MildEffect.hostServed {s : State} {e : Hub} {l : List Key} (h : s.MildEffect e l) (hl : ∀ k ∈ servedPlaces, k ∉ l) :
    e.hostServed = s.found.hostServed := Hub.hostServed_of_keeps _ _ _ h.keeps h.sys hl

/-- After a mild effect, its answer and the command's end, all but its places and theirs is kept. -/
theorem State.MildEffect.keeps_answered {s : State} {e : Hub} {l : List Key} (h : s.MildEffect e l) (hset : s.settled) (req : Req) (addr st : Nat) :
    (s.ends (e.hear req addr st)).hub.keeps s.hub (l ++ responsePlaces req ++ endPlaces) := by
  have hafter := s.keeps_ends_hear e req addr st h.due (h.quiet hset)
  rw [List.append_assoc]
  exact Hub.keeps_trans _ _ _ _ (Hub.keeps_mono _ _ _ _ hafter fun _ => List.mem_append_right _)
    (Hub.keeps_trans _ _ _ _ (Hub.keeps_mono _ _ _ _ h.keeps fun _ => List.mem_append_left _) (s.keeps_found _))

/-- A place that neither the answer nor the command's end can change shows what the effect put there. -/
theorem State.MildEffect.get_answered {s : State} {e : Hub} {l : List Key} (h : s.MildEffect e l) (hset : s.settled) (req : Req) (addr st : Nat)
    (p : Nat) (f : Fld) (hr : f.on p ∉ responsePlaces req) (he : f.on p ∉ endPlaces) : (s.ends (e.hear req addr st)).hub.get p f = e.get p f :=
  Hub.get_of_keeps _ _ _ (s.keeps_ends_hear e req addr st h.due (h.quiet hset)) p f (by simp [hr, he])

theorem State.MildEffect.get_answered_sys {s : State} {e : Hub} {l : List Key} (h : s.MildEffect e l) (hset : s.settled) (req : Req)
    (addr st : Nat) (f : Fld) (he : f.on pSys ∉ endPlaces) : (s.ends (e.hear req addr st)).hub.get pSys f = e.get pSys f :=
  h.get_answered hset req addr st pSys f (sysPlace_not_mem_responsePlaces req f) he

/-- An effect refused is answered with an error. -/
theorem State.MildEffect.error_answered {s : State} {e : Hub} {l : List Key} (h : s.MildEffect e l) (hset : s.settled) (req : Req) (addr st : Nat)
    (hst : st ≠ 0) (hl : ∀ k ∈ servedPlaces, k ∉ l) (hh : req = .host → s.found.hostServed = true) :
    .resp req false ∈ (s.ends (e.hear req addr st)).hub.out :=
  s.ends_hear_error e req addr st h.due (h.quiet hset) hst (by rwa [h.hostServed hl])

/-! ### Accesses turned away, and accesses admitted -/

/-- A register write that is turned away is recorded and answered with the status of what stops it. -/
theorem Hub.regWrite_turned (h e : Hub) (req : Req) (p off size v addr : Nat) (ready : Hub → Nat → Hub × Bool)
    (hm : ¬ (p = pSys ∧ off = 0x084 ∧ size = 4 ∧ h.modeReqShut req = false)) (ht : h.turnedAway req p off size = some e) :
    h.regWrite req p off size v (.reply req addr) ready = e.hear req addr (h.stopStatus req p off size true) := by
  simp only [Hub.regWrite, hm, if_false, ht, Hub.stallEnds]

/-- A register command that is turned away is recorded and answered with the status of what stops it. -/
theorem Hub.write_turned (h e : Hub) (req : Req) (p off bad : Nat) (k : Hub → Hub × Bool) (ht : h.turnedAway req p off 4 = some e) :
    h.write req p off k bad = e.hear req (pageAddr p off) (h.stopStatus req p off 4 true) := by
  simp only [Hub.write, ht]

/-- An admitted register command is answered by what its register makes of it. -/
theorem Hub.write_admitted (h : Hub) (req : Req) (p off bad : Nat) (k : Hub → Hub × Bool) (ha : h.turnedAway req p off 4 = none) :
    h.write req p off k bad = (k h).1.hear req (pageAddr p off) (if (k h).2 then 0 else bad) := by
  simp only [Hub.write, ha]

/-- An admitted register command that its register refuses. -/
theorem Hub.write_refused (h g : Hub) (req : Req) (p off bad : Nat) (k : Hub → Hub × Bool) (ha : h.turnedAway req p off 4 = none)
    (hk : k h = (g, false)) : h.write req p off k bad = g.hear req (pageAddr p off) bad := by
  simp [h.write_admitted req p off bad k ha, hk]

/-- A host whose access is admitted is served. -/
theorem Hub.hostServed_of_admitted (h : Hub) (req : Req) (p off size : Nat) (ha : h.turnedAway req p off size = none) :
    req = .host → h.hostServed = true := by
  refine h.hostServed_of_not_turned req p (Bool.eq_false_iff.2 fun ht => ?_)
  simp [Hub.turnedAway, ht] at ha

theorem State.mildEffect_turned (s : State) (e : Hub) (req : Req) (p off size : Nat) (hr : s.found.annexTurned req p off true = none)
    (ht : s.found.turnedAway req p off size = some e) : s.MildEffect e errorPlaces := by
  obtain ⟨hk, hs, he⟩ := s.found.turnedAway_keeps e req p off size hr ht
  exact ⟨hk, hs, he⟩

/-! ### Ownership (R41) -/

theorem Hub.get_ownErr (h : Hub) (req : Req) (p off : Nat) :
    (h.ownErr req p off).get pSys SYS.OWN_ERR_REQ = req.code ∧ (h.ownErr req p off).get pSys SYS.OWN_ERR_PAGE = p % 2 ^ 12 ∧
    (h.ownErr req p off).get pSys SYS.OWN_ERR_OFFSET = off % 2 ^ 12 ∧ (h.ownErr req p off).get pSys SYS.OWN_ERR_CNT_COUNT =
      satAdd SYS.OWN_ERR_CNT_COUNT.w (h.get pSys SYS.OWN_ERR_CNT_COUNT) 1 % 2 ^ SYS.OWN_ERR_CNT_COUNT.w := by
  unfold Hub.ownErr Hub.inc Hub.addTo
  refine ⟨?_, ?_, ?_, ?_⟩
  · iterate 3 rw [Hub.get_put_other _ _ _ _ _ _ (by decide)]
    rw [Hub.get_put_same]
    exact Nat.mod_eq_of_lt (reqCode_lt req)
  · iterate 2 rw [Hub.get_put_other _ _ _ _ _ _ (by decide)]
    exact Hub.get_put_same _ _ _ _
  · rw [Hub.get_put_other _ _ _ _ _ _ (by decide)]
    exact Hub.get_put_same _ _ _ _
  · rw [Hub.get_put_same]
    iterate 3 rw [Hub.get_put_other _ _ _ _ _ _ (by decide)]

/-- Settles O41: the first check that stops the write is that of the owner, and its record stands when the command has ended. -/
theorem ownershipRefusal : Obligations.OwnershipRefusal := by
  intro s req page off value hawake hset hm hh ha hu hf ht hw ho
  have hturned : s.found.turnedAway req page off 4 = some (s.found.ownErr req page off) := by
    simp [Hub.turnedAway, hh, ha, hu, hf, ht, hw, ho]
  have hmild : s.MildEffect (s.found.ownErr req page off) _ := ⟨s.found.keeps_ownErr req page off, rfl, rfl⟩
  obtain ⟨hreq, hpage, hoff, hcnt⟩ := s.found.get_ownErr req page off
  have hget (f : Fld) (he : f.on pSys ∉ endPlaces) :=
    hmild.get_answered_sys hset req (pageAddr page off) (s.found.stopStatus req page off 4 true) f he
  refine ⟨_, run_ends s _ _ hawake (Hub.regWrite_turned _ _ _ _ _ _ _ _ _ (fun hc => hm ⟨hc.1, hc.2.1⟩) hturned), ?_,
    (hget _ (by decide)).trans hreq, (hget _ (by decide)).trans hpage, (hget _ (by decide)).trans hoff, (hget _ (by decide)).trans hcnt,
    hmild.keeps_answered hset req _ _⟩
  exact hmild.error_answered hset req _ _ (Hub.stopStatus_ne _ _ _ _ _ _) (by decide) (s.found.hostServed_of_not_turned req page hh)

/-! ### Writes that are turned away (R32, R33, R41, R92, R113, R463, R468, R487) -/

/-- A command that answers a write that was turned away. -/
theorem State.turned_answered (s : State) (hset : s.settled) (req : Req) (p off size : Nat) (e : Hub) (hr : req ≠ .annex)
    (ht : s.found.turnedAway req p off size = some e) :
    let t := s.ends (e.hear req (pageAddr p off) (s.found.stopStatus req p off size true))
    ((req = .host → s.found.hostServed = true) → .resp req false ∈ t.hub.out) ∧
      t.hub.keeps s.hub (errorPlaces ++ responsePlaces req ++ endPlaces) := by
  have hmild := s.mildEffect_turned e req p off size (s.found.annexTurned_other req p off true hr) ht
  exact ⟨fun hh => hmild.error_answered hset req _ _ (Hub.stopStatus_ne _ _ _ _ _ _) (by decide) hh, hmild.keeps_answered hset req _ _⟩

/-- Settles O42: each of the commands makes the common checks first; a host that is not served is stopped by the first of them. -/
theorem turnedAwayWritesChangeNothing : Obligations.TurnedAwayWritesChangeNothing := by
  intro s req page size off value mask now_ active hawake hset hreq
  refine ⟨fun hm hsome => ?_, fun c hc hsome => ?_, fun hserved => ?_⟩
  · obtain ⟨e, he⟩ := Option.isSome_iff_exists.1 hsome
    exact ⟨_, run_ends s _ _ hawake (Hub.regWrite_turned _ _ _ _ _ _ _ _ _ (fun hc => hm ⟨hc.1, hc.2.1⟩) he),
      s.turned_answered hset req page off size e hreq he⟩
  · obtain ⟨e, he⟩ := Option.isSome_iff_exists.1 hsome
    refine ⟨_, ?_, s.turned_answered hset req page c.2 4 e hreq he⟩
    simp only [List.mem_cons, List.not_mem_nil, or_false] at hc
    rcases hc with rfl | rfl | rfl | rfl | rfl | rfl
    all_goals exact run_ends s _ _ hawake (Hub.write_turned _ _ _ _ _ _ _ he)
  · have hturned : s.found.hostTurned .host page = true := by simp [Hub.hostTurned, hserved]
    have hshut : s.found.modeReqShut .host = true := by simp [Hub.modeReqShut, Hub.hostTurned, hserved]
    have hstop : s.found.turnedAway .host page off size = some s.found := by simp [Hub.turnedAway, hturned]
    refine run_ends s _ _ hawake ?_
    rw [Hub.regWrite_turned _ _ _ _ _ _ _ _ _ (by simp [hshut]) hstop, Hub.hear, if_pos ⟨rfl, Hub.stopStatus_ne _ _ _ _ _ _⟩, hserved]
    exact if_neg Bool.false_ne_true

/-- In Safe-stop every check lets a write through at most to that of the mode. -/
theorem Hub.turnedAway_safeStop (h : Hub) (req : Req) (p off size : Nat) (hm : h.mode = .safeStop) (hp : safeStopWritable p = false) :
    (h.turnedAway req p off size).isSome = true := by
  unfold Hub.turnedAway
  split_ifs with _ hannex _ _ _ _ _ hsafe
  exacts [rfl, hannex, rfl, rfl, rfl, rfl, rfl, rfl, absurd (by simp [hm, hp]) hsafe]

/-- Settles O43: a write to such a page is turned away. -/
theorem safeStopRefusesWrites : Obligations.SafeStopRefusesWrites := by
  intro s req page off size value hawake hset hmode hreq hflt hupd hmbx hsys hlc
  have hpage : safeStopWritable page = false := by simp [safeStopWritable, hflt, hupd, hmbx, hsys, hlc]
  exact (turnedAwayWritesChangeNothing s req page size off value 0 0 0 hawake hset hreq).1 (fun hc => hsys hc.1)
    (s.found.turnedAway_safeStop req page off size hmode hpage)

/-! ### Admitted writes that their registers refuse (R54, R172, R340) -/

/-- Settles O48. -/
theorem discardIsRefusedWhileACommitRuns : Obligations.DiscardIsRefusedWhileACommitRuns := by
  intro s req page hawake hset hadm hbusy
  have heffect : s.found.discardPage page = (s.found.blocked, false) := if_pos hbusy
  have hmild : s.MildEffect s.found.blocked [SYS.COMMIT_STATE_BLOCKED.on pSys] :=
    (State.MildEffect.refl s _).put _ _ _ (by decide) (List.mem_singleton.2 rfl)
  refine ⟨_, run_ends s _ _ hawake (Hub.write_refused _ _ _ _ _ _ _ hadm heffect), ?_, ?_, ?_⟩
  · exact hmild.error_answered hset req _ _ (by decide) (by decide) (s.found.hostServed_of_admitted req page _ _ hadm)
  · rw [hmild.get_answered_sys hset req _ _ _ (by decide)]
    exact Hub.get_put_same _ _ _ _
  · exact hmild.keeps_answered hset req _ _

/-- Settles O50: what is out of range is recorded as a bad access. -/
theorem fbIncOutOfRangeIsRefused : Obligations.FbIncOutOfRangeIsRefused := by
  intro s req value hawake hset hadm hrange
  have heffect : s.found.writeFbInc req value = (s.found.accErr req pTime 0x064, false) :=
    if_neg (by simp only [fbIncOk, Bool.and_eq_true, decide_eq_true_eq]; omega)
  have hmild : s.MildEffect (s.found.accErr req pTime 0x064) _ := ⟨s.found.keeps_accErr req pTime 0x064, rfl, rfl⟩
  have hkeeps := hmild.keeps_answered hset req (pageAddr pTime 0x064) stBusy
  refine ⟨_, run_ends s _ _ hawake (Hub.write_refused _ _ _ _ _ _ _ hadm heffect), ?_, ?_, ?_⟩
  · exact hmild.error_answered hset req _ _ (by decide) (by decide) (s.found.hostServed_of_admitted req _ _ _ hadm)
  · refine Hub.get_of_keeps _ _ _ hkeeps _ _ ?_
    have hplace : TIME.FB_INC_INC.on pTime ∉ responsePlaces req := by
      unfold responsePlaces
      split <;> decide
    simp only [List.mem_append, hplace, or_false, not_or]
    decide
  · exact hkeeps

/-- Settles O51. -/
theorem sourceCountIsNotWritten : Obligations.SourceCountIsNotWritten := by
  intro s req channel value hawake hset hadm hmode hpair
  have heffect : s.found.writeCount channel value = (s.found, false) := by rw [Hub.writeCount, if_pos hmode, if_pos hpair]
  have hmild := State.MildEffect.refl s []
  refine ⟨_, run_ends s _ _ hawake (Hub.write_refused _ _ _ _ _ _ _ hadm heffect), ?_, ?_⟩
  · exact hmild.error_answered hset req _ _ (by decide) (by simp) (s.found.hostServed_of_admitted req _ _ _ hadm)
  · exact hmild.keeps_answered hset req _ _

end Sys2Proof.Machine
end

section
/-!
PROOFS. Commands that are admitted and change a few places (02_registers_pages.md, 03_modes_startup.md, 07_ring_time.md, 13_channels.md,
18_host_mailboxes.md): single fields, the latched reading of ring time (R171), commit commands in modes that take none (R50), and a commit
attempt that is refused (R51, R53, R59).
-/
namespace Sys2Proof.Machine

open Reg

/-- After a mild effect, what it sends out and the command's end: that stays sent, and all but its places and the end's is kept. -/
theorem State.MildEffect.emitted {s : State} {e : Hub} {l : List Key} (h : s.MildEffect e l) (hset : s.settled) (o : Out) :
    o ∈ (s.ends (e.emit o)).hub.out ∧ (s.ends (e.emit o)).hub.keeps s.hub (l ++ endPlaces) := by
  refine ⟨?_, s.keeps_ends (e.emit o) l (Hub.keeps_trans _ _ _ _ (e.keeps_emit o l) h.keeps) h.due (h.quiet hset)⟩
  rw [State.ends_hub]
  exact Hub.out_finish _ _ _ h.due (h.quiet hset) (by simp)

/-- A place that the command's end cannot change shows what the effect put there. -/
theorem State.MildEffect.get_emitted {s : State} {e : Hub} {l : List Key} (h : s.MildEffect e l) (hset : s.settled) (o : Out) (p : Nat) (f : Fld)
    (he : f.on p ∉ endPlaces) : (s.ends (e.emit o)).hub.get p f = e.get p f := by
  rw [State.ends_hub]
  exact Hub.get_of_keeps _ _ _ (Hub.keeps_finish (e.emit o) s.hub h.due (h.quiet hset)) p f he

/-- A field that is put by an admitted command. -/
theorem State.mildEffect_put (s : State) (p : Nat) (f : Fld) (v : Nat) (hs : f.acc ≠ .stg) : s.MildEffect (s.found.put p f v) [f.on p] :=
  (State.MildEffect.refl s _).put p f v hs (List.mem_singleton.2 rfl)

/-! ### Commands that store one field -/

/-- An admitted command that puts one field answers without an error and changes that field alone. -/
theorem State.single_field (s : State) (c : Instr) (req : Req) (p : Nat) (f : Fld) (v : Nat) (hset : s.settled) (hs : f.acc ≠ .stg)
    (hc : exec c s = .next (s.ends ((s.found.put p f v).emit (.resp req true)))) :
    ∃ t, exec c s = .next t ∧ .resp req true ∈ t.hub.out ∧ t.hub.keeps s.hub (f.on p :: endPlaces) :=
  ⟨_, hc, (s.mildEffect_put p f v hs).emitted hset _⟩

/-- Settles O44: each of the commands puts its field with a value of its own. -/
theorem singleFieldFrame : Obligations.SingleFieldFrame := by
  intro s req page value mask now_ qp channel hawake hset hmode c hc hadm
  simp only [List.mem_cons, List.not_mem_nil, or_false] at hc
  rcases hc with rfl | rfl | rfl | rfl | rfl
  · exact s.single_field _ req page PG.STAT_XOPEN _ hset (by decide) (run_ends s _ _ hawake (Hub.writeDo_admitted _ _ _ _ _ hadm))
  · exact s.single_field _ req page PG.STAT_XOPEN _ hset (by decide) (run_ends s _ _ hawake (Hub.writeDo_admitted _ _ _ _ _ hadm))
  · exact s.single_field _ req page PG.IRQ_RAW _ hset (by decide) (run_ends s _ _ hawake (Hub.writeDo_admitted _ _ _ _ _ hadm))
  · exact s.single_field _ req pHost (HOST.QP_TX_PROD_IDX (qp % 8)) value hset (by simp [HOST.QP_TX_PROD_IDX])
      (run_ends s _ _ hawake (Hub.writeDo_admitted _ _ _ _ _ hadm))
  · refine s.single_field _ req (pCh channel) CH.CNT_COUNT (value + s.found.countedNow channel) hset (by decide) (run_ends s _ _ hawake ?_)
    rw [Hub.write_admitted _ _ _ _ _ _ hadm, Hub.writeCount, if_neg hmode]
    exact Hub.hear_ok _ _ _

/-! ### The latched reading of ring time (R171) -/

/-- An admitted read answers what its register shows. -/
theorem Hub.read_admitted (h : Hub) (req : Req) (p off : Nat) (k : Hub → Nat × Hub) (ha : h.readTurnedAway req p off 4 = none) :
    h.read req p off k = (k h).2.emit (.data req (k h).1) := by
  simp only [Hub.read, ha]

theorem Hub.nowSub_lt (h : Hub) : h.nowSub < 8 := by
  unfold Hub.nowSub
  split <;> exact Nat.mod_lt _ (by decide)

theorem Hub.get_readNow (h : Hub) :
    h.readNow.2.get pTime TIME.NOW_HI_THI = h.now / 2 ^ 32 % 2 ^ 32 ∧ h.readNow.2.get pTime TIME.NOW_SUB_SUB = h.nowSub ∧
    h.readNow.2.get pTime TIME.NOW_SUB_FB = flag (!h.mainInUse) := by
  refine ⟨?_, ?_, ?_⟩
  · refine (Hub.get_put_other _ _ _ _ _ _ (by decide)).trans ((Hub.get_put_other _ _ _ _ _ _ (by decide)).trans ((Hub.get_put_same _ _ _ _).trans ?_))
    simp only [TIME.NOW_HI_THI]
    omega
  · refine (Hub.get_put_same _ _ _ _).trans (Nat.mod_eq_of_lt ?_)
    exact h.nowSub_lt
  · refine (Hub.get_put_other _ _ _ _ _ _ (by decide)).trans ((Hub.get_put_same _ _ _ _).trans (Nat.mod_eq_of_lt ?_))
    exact flag_lt_two _

/-- Settles O49: one value of ring time is answered and latched. -/
theorem nowLatchesOneValue : Obligations.NowLatchesOneValue := by
  intro s req hawake hset hadm
  have hmild : s.MildEffect s.found.readNow.2 [TIME.NOW_HI_THI.on pTime, TIME.NOW_SUB_FB.on pTime, TIME.NOW_SUB_SUB.on pTime] :=
    (((State.MildEffect.refl s _).put _ _ _ (by decide) (by decide)).put _ _ _ (by decide) (by decide)).put _ _ _ (by decide) (by decide)
  obtain ⟨hhi, hsub, hfb⟩ := s.found.get_readNow
  obtain ⟨hout, hkeeps⟩ := hmild.emitted hset (.data req s.found.readNow.1)
  have hget (f : Fld) (hf : f.on pTime ∉ endPlaces) := hmild.get_emitted hset (.data req s.found.readNow.1) pTime f hf
  have hlow : s.found.readNow.1 = s.hub.now % 2 ^ 32 := by
    show s.hub.now % 2 ^ 64 % 2 ^ 32 = _
    omega
  exact ⟨_, run_ends s _ _ hawake (Hub.read_admitted _ _ _ _ _ hadm), hlow ▸ hout, (hget _ (by decide)).trans hhi, (hget _ (by decide)).trans hsub,
    (hget _ (by decide)).trans hfb, hkeeps⟩

/-! ### Commit attempts that are refused (R50, R51, R53, R59) -/

theorem Hub.mode_of_keeps (g h : Hub) (l : List Key) (hk : g.keeps h l) (hl : SYS.MODE_CUR.on pSys ∉ l) : g.mode = h.mode :=
  congrArg Mode.ofCode (Hub.get_of_keeps g h l hk pSys SYS.MODE_CUR hl)

/-- The places where a refusal is recorded (R60). -/
def refusePlaces : List Key :=
  [SYS.REFUSE_CODE_CODE.on pSys, SYS.REFUSE_LOC_COUNT.on pSys, SYS.REFUSE_LOC_PAGE.on pSys, SYS.REFUSE_LOC_OFFSET.on pSys]

theorem Hub.keeps_refuseCode (h : Hub) (code : Nat) : (h.refuseCode code).keeps h refusePlaces := by
  unfold Hub.refuseCode
  iterate 4 refine Hub.keeps_then_put _ _ _ _ _ _ (by decide) (by decide) ?_
  exact h.keeps_refl _

/-- The end of an attempt beyond the registers: no commit command runs. -/
theorem Hub.rest_endAttempt (h : Hub) (result : Nat) :
    (h.endAttempt result).rest = { h.rest with sys := { h.rest.sys with commitCmd := 0 } } := rfl

/-- What the end of an attempt shows. -/
theorem Hub.get_endAttempt_result (h : Hub) (result : Nat) :
    (h.endAttempt result).get pSys SYS.COMMIT_STATE_LAST_RESULT = result % 2 ^ SYS.COMMIT_STATE_LAST_RESULT.w ∧
    (h.endAttempt result).get pSys SYS.COMMIT_STATE_STATE = 0 := by
  constructor
  · rw [Hub.get_endAttempt _ _ _ _ (by decide), Hub.get_put_other _ _ _ _ _ _ (by decide), Hub.get_put_same]
  · rw [Hub.get_endAttempt _ _ _ _ (by decide), Hub.get_put_same, Nat.zero_mod]

/-- A place outside PG_STAT and COMMIT_STATE shows after the end of an attempt what it did before. -/
theorem Hub.get_endAttempt_other (h : Hub) (result p : Nat) (f : Fld) (hx : f.off ≠ PG.STAT_XOPEN.off) (hc : f.off ≠ SYS.COMMIT_STATE_STATE.off) :
    (h.endAttempt result).get p f = h.get p f := by
  have hplace : ∀ g : Fld, g.off = SYS.COMMIT_STATE_STATE.off → ∀ x : Hub, ∀ v, (x.put pSys g v).get p f = x.get p f := fun g hg x v =>
    Hub.get_put_other _ _ _ _ _ _ fun hk => hc ((congrArg Key.off hk).symm.trans hg)
  rw [Hub.get_endAttempt _ _ _ _ hx, hplace SYS.COMMIT_STATE_STATE rfl, hplace SYS.COMMIT_STATE_LAST_RESULT rfl]

/-- What a refused attempt leaves, its change of mode apart: `e` is the hub as its refusal is recorded. -/
theorem Hub.refused_attempt (e h : Hub) (l : List Key) (hk : e.keeps h l) (hm : SYS.MODE_CUR.on pSys ∉ l) (hs : SYS.SEAL_STATE_STATE.on pSys ∉ l) :
    (e.endAttempt 4).get pSys SYS.COMMIT_STATE_LAST_RESULT = 4 ∧ (e.endAttempt 4).get pSys SYS.COMMIT_STATE_STATE = 0 ∧
    (e.endAttempt 4).staged = h.staged ∧ (e.endAttempt 4).committed = h.committed ∧
    (e.endAttempt 4).get pSys SYS.SEAL_STATE_STATE = h.get pSys SYS.SEAL_STATE_STATE ∧ (e.endAttempt 4).mode = h.mode ∧
    (e.endAttempt 4).rest = { h.rest with sys := { h.rest.sys with commitCmd := 0 } } := by
  obtain ⟨hresult, hidle⟩ := e.get_endAttempt_result 4
  refine ⟨hresult, hidle, hk.1.1, hk.1.2.1, ?_, ?_, ?_⟩
  · rw [Hub.get_endAttempt_other _ _ _ _ (by decide) (by decide), e.get_of_keeps h l hk _ _ hs]
  · rw [Hub.mode, Hub.get_endAttempt_other _ _ _ _ (by decide) (by decide)]
    exact e.mode_of_keeps h l hk hm
  · rw [Hub.rest_endAttempt, hk.2]

/-- The places that a validation with failing checks records them in (R57, R60). -/
def checkPlaces : List Key := SYS.SEAL_CALC_CALC.on pSys :: refusePlaces ++ usedPages.map PG.SEAL_REFUSED.on

theorem not_mem_checkPlaces (f : Fld) (hc : f.on pSys ∉ SYS.SEAL_CALC_CALC.on pSys :: refusePlaces) (hf : f.off ≠ PG.SEAL_REFUSED.off) :
    f.on pSys ∉ checkPlaces := by
  unfold checkPlaces
  rw [List.mem_append, List.mem_map]
  rintro (hm | ⟨q, -, hq⟩)
  · exact hc hm
  · exact hf (congrArg Key.off hq).symm

theorem Hub.keeps_recordChecks (h : Hub) (computed : Nat) (l : List (Nat × Nat × Nat)) :
    ((h.put pSys SYS.SEAL_CALC_CALC computed).recordChecks l).keeps h checkPlaces := by
  have hcalc : (h.put pSys SYS.SEAL_CALC_CALC computed).keeps h checkPlaces :=
    Hub.keeps_put _ _ _ _ _ (by decide) (List.mem_cons_self ..)
  have hmark (g : Hub) : (g.markRefused l).keeps g checkPlaces := Hub.keeps_foldl _ _ _ _ fun g q hq =>
    g.keeps_put _ _ _ _ (by decide) (List.mem_append_right _ (List.mem_map.2 ⟨q, hq, rfl⟩))
  unfold Hub.recordChecks
  dsimp only
  iterate 4 refine Hub.keeps_then_put _ _ _ _ _ _ (by decide) (List.mem_append_left _ (List.mem_cons_of_mem _ (by decide))) ?_
  exact Hub.keeps_trans _ _ _ _ (hmark _) hcalc

/-- A validation that a check refuses ends the attempt with its failing checks recorded (R51, R60). -/
theorem Hub.endValidation_failed (h : Hub)
    (hf : (h.sealCheck (h.sealMatches h.sealOf)).foldl (fun a x => insertFailure x a) h.failing ≠ []) :
    ∃ l, h.endValidation = (((h.put pSys SYS.SEAL_CALC_CALC h.sealOf).recordChecks l).endAttempt 4).refusedMode := ⟨_, if_pos hf⟩

/-- Settles O59: either way the attempt ends with its refusal recorded in present values alone. -/
theorem refusedCommitKeepsTheConfiguration : Obligations.RefusedCommitKeepsTheConfiguration := by
  intro s hawake hstate c hc
  suffices hend : ∃ (e : Hub) (l : List Key), e.keeps s.found l ∧ SYS.MODE_CUR.on pSys ∉ l ∧ SYS.SEAL_STATE_STATE.on pSys ∉ l ∧
      exec c s = .next (s.ends (e.endAttempt 4).refusedMode) by
    obtain ⟨e, l, hk, hm, hs, hexec⟩ := hend
    obtain ⟨hresult, hidle, hstaged, hcommitted, hseal, hmode, hrest⟩ := e.refused_attempt s.found l hk hm hs
    rw [Hub.refusedMode, hmode] at hexec
    exact ⟨e.endAttempt 4, hexec, hresult, hidle, hstaged, hcommitted, hseal, hmode, hrest⟩
  rcases hc with ⟨rfl, hfail⟩ | ⟨rfl, hcmd⟩
  · obtain ⟨l, hl⟩ := s.found.endValidation_failed hfail
    refine ⟨_, checkPlaces, s.found.keeps_recordChecks s.found.sealOf l, not_mem_checkPlaces _ (by decide) (by decide),
      not_mem_checkPlaces _ (by decide) (by decide), run_ends s _ _ hawake ?_⟩
    rw [if_neg (by simpa using hstate), if_neg Bool.false_ne_true, hl]
  · exact ⟨_, refusePlaces, s.found.keeps_refuseCode 0x0A02, by decide, by decide, run_ends s _ _ hawake (if_pos ⟨hstate, hcmd⟩)⟩

/-- The hub as a commit command in a mode that takes none leaves it, its answer apart (R50). -/
def Hub.commitShut (h : Hub) : Hub := ((h.put pSys SYS.COMMIT_STATE_BLOCKED 0).put pSys SYS.COMMIT_DROPS_DROPS 0).refuseCode 0x0A04

/-- The places where such a refusal is recorded. -/
def commitShutPlaces : List Key := SYS.COMMIT_STATE_BLOCKED.on pSys :: SYS.COMMIT_DROPS_DROPS.on pSys :: refusePlaces

theorem Hub.keeps_commitShut (h : Hub) : h.commitShut.keeps h commitShutPlaces := by
  refine Hub.keeps_trans _ _ _ _ (Hub.keeps_mono _ _ _ _ (Hub.keeps_refuseCode _ _) (by decide)) ?_
  iterate 2 refine Hub.keeps_then_put _ _ _ _ _ _ (by decide) (by decide) ?_
  exact h.keeps_refl _

/-- In a mode that takes no commit command, one that would start an attempt is refused (R50). -/
theorem Hub.commitCommand_shut (h : Hub) (cmd : Nat) (hb : h.commitBusy = false) (hm : noCommit h.mode = true) :
    h.commitCommand cmd = h.commitShut.endAttempt 4 := by
  have hmode : ((h.put pSys SYS.COMMIT_STATE_BLOCKED 0).put pSys SYS.COMMIT_DROPS_DROPS 0).mode = h.mode :=
    congrArg Mode.ofCode ((Hub.get_put_other _ _ _ _ _ _ (by decide)).trans (Hub.get_put_other _ _ _ _ _ _ (by decide)))
  obtain ⟨-, -, -, -, -, hended, -⟩ := h.commitShut.refused_attempt h _ h.keeps_commitShut (by decide) (by decide)
  have hstay : (h.commitShut.endAttempt 4).refusedMode = h.commitShut.endAttempt 4 := by
    refine if_neg fun ht => ?_
    rw [hended] at ht
    simp [ht, noCommit] at hm
  rw [Hub.commitCommand, hb, if_neg Bool.false_ne_true]
  dsimp only
  rw [hmode, if_pos hm]
  exact hstay

theorem Hub.get_commitShut_code (h : Hub) : (h.commitShut.endAttempt 4).get pSys SYS.REFUSE_CODE_CODE = 0x0A04 := by
  rw [Hub.get_endAttempt_other _ _ _ _ (by decide) (by decide)]
  exact Hub.get_refuseCode _ _

/-- The four commands that start an attempt, as writes of SYS.COMMIT. -/
theorem exec_commit (s : State) (req : Req) (hawake : s.awake) (hadm : s.admits req pSys 0x040) (c : Instr)
    (hc : c ∈ [Instr.validate req, .commitNow req, .commitAt req, .commitEpoch req]) :
    ∃ cmd, exec c s = .next (s.ends ((s.found.commitCommand cmd).emit (.resp req true))) := by
  have hwrite (cmd : Nat) (hcmd : s.found.writeCommit req (0xA5C30000 + cmd) = (s.found.commitCommand cmd, true)) :
      s.found.write req pSys 0x040 (fun g => g.writeCommit req (0xA5C30000 + cmd)) = (s.found.commitCommand cmd).emit (.resp req true) := by
    rw [Hub.write_admitted _ _ _ _ _ _ hadm, hcmd]
    exact Hub.hear_ok _ _ _
  simp only [List.mem_cons, List.not_mem_nil, or_false] at hc
  rcases hc with rfl | rfl | rfl | rfl
  · exact ⟨1, run_ends s _ _ hawake (hwrite 1 rfl)⟩
  · exact ⟨2, run_ends s _ _ hawake (hwrite 2 rfl)⟩
  · exact ⟨3, run_ends s _ _ hawake (hwrite 3 rfl)⟩
  · exact ⟨4, run_ends s _ _ hawake (hwrite 4 rfl)⟩

/-- Settles O47: outside Shelf the refused attempt stands at the command's end; in Shelf the command does not run. -/
theorem noCommitInTheseModes : Obligations.NoCommitInTheseModes := by
  refine ⟨fun s req hawake hset hadm hbusy hmode c hc => ?_, fun s req cmd hshelf hbusy => ?_⟩
  · obtain ⟨cmd, hcmd⟩ := exec_commit s req hawake hadm c hc
    have hshut : noCommit s.found.mode = true := by
      have hall : ∀ m ∈ [Mode.waking, .cellar, .test, .safeStop], noCommit m = true := by decide
      exact hall _ hmode
    rw [s.found.commitCommand_shut cmd hbusy hshut] at hcmd
    obtain ⟨-, hidle, hstaged, hcommitted, -⟩ := s.found.commitShut.refused_attempt s.found _ s.found.keeps_commitShut (by decide) (by decide)
    have hend := Hub.keeps_finish ((s.found.commitShut.endAttempt 4).emit (.resp req true)) s.hub rfl hset
    refine ⟨_, hcmd, ?_, ?_, hend.1.1.trans hstaged, hend.1.2.1.trans hcommitted⟩
    · rw [State.ends_hub, Hub.get_of_keeps _ _ _ hend _ _ (by decide)]
      exact s.found.get_commitShut_code
    · rw [State.ends_hub, Hub.get_of_keeps _ _ _ hend _ _ (by decide)]
      exact hidle
  · have hshut : noCommit s.hub.mode = true := by
      rw [hshelf]
      rfl
    rw [s.hub.commitCommand_shut cmd hbusy hshut]
    obtain ⟨-, -, hstaged, hcommitted, -⟩ := s.hub.commitShut.refused_attempt s.hub _ s.hub.keeps_commitShut (by decide) (by decide)
    refine ⟨s.hub.get_commitShut_code, hstaged, hcommitted, fun c hc => ?_⟩
    simp only [List.mem_cons, List.not_mem_nil, or_false] at hc
    rcases hc with rfl | rfl | rfl | rfl
    all_goals exact run_asleep s _ (coreRuns_of_shelf _ hshelf)

end Sys2Proof.Machine
end

section
/-!
PROOFS. What commands of the blocks leave as it was: blown fuses (R552), the host's interrupt line and vectors (R471), the buffers of the Atrium,
the mailboxes and the Prism engines (R234, R396, R480), and the FIFOs of the serial controllers (R365).
-/
namespace Sys2Proof

/-! ### Bits taken away -/

/-- What is left of a number without the bits that it shares with another. -/
theorem bitOf_sub_and (a b i : Nat) : bitOf (a - (a &&& b)) i = (bitOf a i && !bitOf b i) := by
  unfold bitOf
  have hle (a b : Nat) : a &&& b ≤ a := Nat.and_le_left
  have hdiv (a b : Nat) : (a &&& b) / 2 = a / 2 &&& b / 2 := Nat.and_div_two
  have hmod (a b : Nat) : (a &&& b) % 2 = 1 ↔ a % 2 = 1 ∧ b % 2 = 1 := Nat.and_mod_two_eq_one
  induction i generalizing a b with
  | zero =>
    have hle := hle a b
    have hmod := hmod a b
    simp only [Nat.testBit_zero]
    by_cases ha : a % 2 = 1 <;> by_cases hb : b % 2 = 1 <;> simp [ha, hb] <;> omega
  | succ i ih =>
    have hle := hle a b
    have hmod := hmod a b
    have hhalf : (a - (a &&& b)) / 2 = a / 2 - (a / 2 &&& b / 2) := by
      rw [← hdiv]
      omega
    rw [Nat.testBit_succ, Nat.testBit_succ, Nat.testBit_succ, hhalf, ih]

/-- A number of `w` bits has a bit that another lacks, unless the other covers it. -/
theorem ne_and_iff (a b w : Nat) (ha : a < 2 ^ w) : a ≠ (a &&& b) ↔ ∃ i, i < w ∧ bitOf a i = true ∧ bitOf b i = false := by
  have heq : a = (a &&& b) ↔ ∀ i, bitOf a i = true → bitOf b i = true := by
    refine ⟨fun h i hi => ?_, fun h => Nat.eq_of_testBit_eq fun i => ?_⟩
    · rw [h, bitOf, Nat.testBit_and, Bool.and_eq_true] at hi
      exact hi.2
    · rw [Nat.testBit_and]
      have := h i
      unfold bitOf at this
      cases ha : a.testBit i <;> simp_all
  rw [ne_eq, heq]
  push Not
  constructor
  · rintro ⟨i, hi, hb⟩
    refine ⟨i, ?_, hi, by simpa using hb⟩
    by_contra hge
    have : a.testBit i = false := Nat.testBit_lt_two_pow (Nat.lt_of_lt_of_le ha (Nat.pow_le_pow_right (by decide) (by omega)))
    simp [bitOf, this] at hi
  · rintro ⟨i, -, hi, hb⟩
    exact ⟨i, hi, by simp [hb]⟩

end Sys2Proof

namespace Sys2Proof.Machine

open Reg

/-! ### What is known of a command that has answered -/

/-- A command of the core has run, or the core does not run and it has done nothing. -/
theorem run_inv (s t : State) (f : Hub → Hub) (h : run s f = .next t) :
    (s.awake ∧ t = s.ends (f s.found)) ∨ t = { s with hub := s.found } := by
  by_cases hrun : s.awake
  · rw [run_awake s f hrun] at h
    exact .inl ⟨hrun, (Host.Outcome.next.inj h).symm⟩
  · rw [run_asleep s f (Bool.eq_false_iff.2 hrun)] at h
    exact .inr (Host.Outcome.next.inj h).symm

/-- Nothing of a command is left to be judged at its end. -/
def Hub.quiet (g : Hub) : Prop := g.sys.due = [] ∧ (g.edge.more = true ∨ g.edge.want = none)

theorem State.quiet_found (s : State) (hset : s.settled) : s.found.quiet := ⟨rfl, hset⟩

theorem Hub.quiet_irq (g : Hub) (p bit : Nat) (h : g.quiet) : (g.irq p bit).quiet := by
  obtain ⟨hd, hw⟩ := h
  exact ⟨by rw [Hub.irq_sys, hd], by rwa [Hub.irq, Hub.noteRisen_more, Hub.noteRisen_want]⟩

theorem Hub.quiet_hear (g : Hub) (req : Req) (addr st : Nat) (h : g.quiet) : (g.hear req addr st).quiet := by
  obtain ⟨hd, hw⟩ := h
  obtain ⟨hmore, hwant⟩ := g.hear_due req addr st
  exact ⟨by rw [Hub.hear_sys, hd], by rwa [hmore, hwant]⟩

@[simp] theorem Hub.rest_irq (g : Hub) (p bit : Nat) : (g.irq p bit).rest = g.rest :=
  (g.keeps_irq p bit [PG.IRQ_RAW.on p] (List.mem_singleton.2 rfl)).2

@[simp] theorem Hub.rest_hear (g : Hub) (req : Req) (addr st : Nat) : (g.hear req addr st).rest = g.rest := (g.keeps_hear req addr st).2

/-- The end of a quiet command keeps everything but registers. -/
theorem State.rest_ends (s : State) (g : Hub) (h : g.quiet) : (s.ends g).hub.rest = g.rest := by
  rw [State.ends_hub]
  exact (g.keeps_finish s.hub h.1 h.2).2

/-- A property of what is no register holds after a command of the core where its effect gives it, and where it held before. -/
theorem run_frame (P : Hub → Prop) (hP : ∀ a b : Hub, a.rest = b.rest → P b → P a) (s t : State) (f : Hub → Hub) (h : run s f = .next t)
    (hs : P s.hub) (hf : (f s.found).quiet ∧ P (f s.found)) : P t.hub := by
  rcases run_inv s t f h with ⟨-, rfl⟩ | rfl
  · exact hP _ _ (s.rest_ends _ hf.1) hf.2
  · exact hP _ s.hub rfl hs

/-! ### Fuses (R552) -/

/-- Blowing bits of a word leaves blown what was. -/
theorem Hub.bitOf_fuse_blow (h : Hub) (word bits k i : Nat) (hi : i < 32) (hb : bitOf (h.fuse k) i = true) :
    bitOf ((h.blow word bits).fuse k) i = true := by
  by_cases hk : word = k
  · subst hk
    have hword : (h.blow word bits).fuse word = (h.fuse word ||| bits) % 2 ^ 32 := Map.getD_put_same _ _ _ _
    rw [hword, bitOf, Nat.testBit_mod_two_pow, decide_eq_true hi, Bool.true_and]
    exact (bitOf_or _ _ _).trans (by rw [hb, Bool.true_or])
  · have hword : (h.blow word bits).fuse k = h.fuse k := Map.getD_put_other _ _ _ _ _ hk
    rwa [hword]

theorem Hub.fuse_of_rest (g h : Hub) (hr : g.rest = h.rest) (k : Nat) : g.fuse k = h.fuse k :=
  congrArg (fun m => Map.getD m k 0) (congrArg Hub.fuses hr :)

/-- Settles O53: the operation under way blows bits of one word and nothing else. -/
theorem fusesStayBlown : Obligations.FusesStayBlown := by
  intro s t blown k i hset hexec hi hb
  refine run_frame (fun g => bitOf (g.fuse k) i = true) (fun a b hr hb => by rwa [a.fuse_of_rest b hr]) s t _ hexec hb ?_
  split
  · exact ⟨s.quiet_found hset, hb⟩
  · refine ⟨Hub.quiet_irq _ _ _ (s.quiet_found hset), ?_⟩
    rw [Hub.fuse_of_rest _ _ (Hub.rest_irq _ _ _)]
    exact Hub.bitOf_fuse_blow { s.found with stw := { s.found.stw with otp := none } } _ _ k i hi hb

/-! ### The host's interrupt line and its vectors (R471) -/

/-- Whether a word of pending vectors has one that is not masked. -/
theorem pending_unmasked_iff (pend mask : Nat) (h : pend < 2 ^ 32) :
    (pend != (pend &&& mask)) = true ↔ ∃ i, i < 32 ∧ bitOf pend i = true ∧ bitOf mask i = false :=
  bne_iff_ne.trans (ne_and_iff pend mask 32 h)

theorem Hub.hostIrqLow_iff (h : Hub) (hif : h.hostIf = 2) (hlo : h.get pHost HOST.VPEND_LO_PEND < 2 ^ 32)
    (hhi : h.get pHost HOST.VPEND_HI_PEND < 2 ^ 32) :
    h.hostIrqLow = true ↔ ∃ v, v < 64 ∧ h.vectorPending v = true ∧
      bitOf (h.get pHost (if v < 32 then HOST.VMASK_LO_MASK else HOST.VMASK_HI_MASK)) (v % 32) = false := by
  simp only [Hub.hostIrqLow, hif, beq_self_eq_true, Bool.true_and, Bool.or_eq_true, pending_unmasked_iff _ _ hlo, pending_unmasked_iff _ _ hhi,
    Hub.vectorPending]
  constructor
  · rintro (⟨i, hi, hp, hm⟩ | ⟨i, hi, hp, hm⟩)
    · refine ⟨i, by omega, ?_, ?_⟩
      · rwa [if_pos hi, Nat.mod_eq_of_lt hi]
      · rwa [if_pos hi, Nat.mod_eq_of_lt hi]
    · have hn : ¬ 32 + i < 32 := by omega
      have hmod : (32 + i) % 32 = i := by omega
      refine ⟨32 + i, by omega, ?_, ?_⟩
      · rwa [if_neg hn, hmod]
      · rwa [if_neg hn, hmod]
  · rintro ⟨v, hv, hp, hm⟩
    have hlt : v % 32 < 32 := Nat.mod_lt _ (by decide)
    split at hp
    · rw [if_pos ‹_›] at hm
      exact .inl ⟨v % 32, hlt, hp, hm⟩
    · rw [if_neg ‹_›] at hm
      exact .inr ⟨v % 32, hlt, hp, hm⟩

/-- Where no level has risen since a command began, none is passed on. -/
theorem Hub.edges_of_levels (h old : Hub) (hdb : ∀ k, h.doorbells k = old.doorbells k) (hirq : h.irqPend pHost = old.irqPend pHost) :
    h.edges old = h := by
  unfold Hub.edges
  dsimp only
  rw [List.foldl_fixed']
  · rw [if_neg (by simp [hirq])]
  · intro k
    rw [if_neg (by simp [hdb])]

theorem Hub.get_noteReaders (h : Hub) (p : Nat) (f : Fld) (hp : p ≠ pMbx) : h.noteReaders.get p f = h.get p f := by
  refine List.foldlRecOn (motive := fun g : Hub => g.get p f = h.get p f) _ _ rfl fun g hg m _ => ?_
  split
  · rw [Hub.get_put_otherPage _ _ _ _ _ _ (Ne.symm hp), hg]
  · exact hg

theorem Hub.get_followHolds (h old : Hub) (p : Nat) (f : Fld) (hp : p ≠ pSys) : (h.followHolds old).get p f = h.get p f := by
  unfold Hub.followHolds
  split
  · rfl
  · refine List.foldlRecOn (motive := fun g : Hub => g.get p f = h.get p f) _ _ rfl fun g hg i _ => ?_
    split
    · exact hg
    · rw [Hub.get_put_otherPage _ _ _ _ _ _ (Ne.symm hp), hg]

/-- The end of a quiet command under which no level has risen shows on the host port's page what was there before it. -/
theorem Hub.get_finish_of_levels (h old : Hub) (hq : h.quiet) (hdb : ∀ k, h.doorbells k = old.doorbells k)
    (hirq : h.irqPend pHost = old.irqPend pHost) (f : Fld) : (h.finish old).get pHost f = h.get pHost f := by
  unfold Hub.finish
  rw [h.settled_eq hq.1 hq.2, h.edges_of_levels old hdb hirq, Hub.get_followHolds _ _ _ _ (by decide), Hub.get_noteReaders _ _ _ (by decide)]

/-- The word of VPEND that a write names. -/
def vpendWord (high : Bool) : Fld := if high then HOST.VPEND_HI_PEND else HOST.VPEND_LO_PEND

theorem vpendWord_off (high : Bool) : (vpendWord high).off = if high then 0x064 else 0x060 := by
  cases high <;> rfl

/-- A write to VPEND clears the pending bits that it names in its word, and no others (R471). -/
theorem Hub.vectorPending_writeVpend (h : Hub) (high : Bool) (bits v : Nat) (hv : v < 64) :
    (h.writeVpend (vpendWord high) bits).vectorPending v =
      (h.vectorPending v && !(high == decide (32 ≤ v) && bitOf bits (v % 32))) := by
  have hlt : v % 32 < 32 := Nat.mod_lt _ (by decide)
  have hsame (f : Fld) (hw : f.w = 32) : bitOf ((h.writeVpend f bits).get pHost f) (v % 32) =
      (bitOf (h.get pHost f) (v % 32) && !bitOf bits (v % 32)) := by
    rw [Hub.writeVpend, Hub.get_put_same, hw, bitOf, Nat.testBit_mod_two_pow, decide_eq_true hlt, Bool.true_and]
    exact bitOf_sub_and _ _ _
  have hother (f g : Fld) (hk : (⟨pHost, f.off, f.lo⟩ : Key) ≠ ⟨pHost, g.off, g.lo⟩) : (h.writeVpend f bits).get pHost g = h.get pHost g :=
    Hub.get_put_other _ _ _ _ _ _ hk
  unfold Hub.vectorPending
  by_cases hlow : v < 32
  · have hge : ¬ 32 ≤ v := by omega
    cases high
    · simp [vpendWord, hlow, hge, hsame HOST.VPEND_LO_PEND rfl]
    · simp [vpendWord, hlow, hge, hother HOST.VPEND_HI_PEND HOST.VPEND_LO_PEND (by decide)]
  · have hge : 32 ≤ v := by omega
    cases high
    · simp [vpendWord, hlow, hge, hother HOST.VPEND_LO_PEND HOST.VPEND_HI_PEND (by decide)]
    · simp [vpendWord, hlow, hge, hsame HOST.VPEND_HI_PEND rfl]

/-- An admitted write to VPEND is answered without an error. -/
theorem exec_vpend (s : State) (req : Req) (high : Bool) (bits : Nat) (hawake : s.awake) (hadm : s.admits req pHost (vpendWord high).off) :
    exec (.vpend req high bits) s = .next (s.ends ((s.found.writeVpend (vpendWord high) bits).emit (.resp req true))) :=
  run_ends s _ _ hawake (Hub.writeDo_admitted s.found req pHost (vpendWord high).off _ hadm)

/-- A write to VPEND makes no level rise. -/
theorem Hub.levels_writeVpend (h : Hub) (high : Bool) (bits : Nat) :
    (∀ k, (h.writeVpend (vpendWord high) bits).doorbells k = h.doorbells k) ∧
    (h.writeVpend (vpendWord high) bits).irqPend pHost = h.irqPend pHost := by
  have hlevel (f : Fld) (hf : f.off ≠ 0x060 ∧ f.off ≠ 0x064) : (h.writeVpend (vpendWord high) bits).get pHost f = h.get pHost f := by
    refine Hub.get_put_other _ _ _ _ _ _ fun hk => ?_
    have hoff := (congrArg Key.off hk).symm.trans (vpendWord_off high)
    cases high
    · exact hf.1 hoff
    · exact hf.2 hoff
  refine ⟨fun k => ?_, ?_⟩
  · have hmbx (f : Fld) : (h.writeVpend (vpendWord high) bits).get pMbx f = h.get pMbx f := Hub.get_put_otherPage _ _ _ _ _ _ (by decide)
    rw [Hub.doorbells, hmbx, hmbx]
    rfl
  · rw [Hub.irqPend, hlevel PG.IRQ_RAW (by decide), hlevel PG.IRQ_EN (by decide)]
    rfl

/-- Settles O54: the line by the bits of both words; a write to VPEND makes no level rise, so that its end sets no vector. -/
theorem hostInterruptLine : Obligations.HostInterruptLine := by
  refine ⟨fun h hif => by simp [Hub.hostIrqLow, hif], fun h hif hlo hhi => h.hostIrqLow_iff hif hlo hhi,
    fun s req high bits v hv hawake hset hadm => ?_⟩
  obtain ⟨hdb, hirq⟩ := s.found.levels_writeVpend high bits
  refine ⟨_, exec_vpend s req high bits hawake (by rwa [vpendWord_off]), ?_⟩
  have hend := Hub.get_finish_of_levels ((s.found.writeVpend (vpendWord high) bits).emit (.resp req true)) s.hub (s.quiet_found hset) hdb hirq
  have hpending := s.found.vectorPending_writeVpend high bits v hv
  rw [State.ends_hub, Hub.vectorPending, hend]
  exact hpending

/-! ### Writes to buffers (R234, R396, R480) -/

/-- A hub that differs from another in registers at most, with nothing more to be judged. -/
structure Hub.Recorded (e h : Hub) : Prop where
  rest : e.rest = h.rest
  quiet : h.quiet → e.quiet

theorem Hub.Recorded.refl (h : Hub) : h.Recorded h := ⟨rfl, id⟩

theorem Hub.recorded_put (h : Hub) (p : Nat) (f : Fld) (v : Nat) : (h.put p f v).Recorded h := ⟨rfl, id⟩

theorem Hub.recorded_accErr (h : Hub) (req : Req) (p off : Nat) : (h.accErr req p off).Recorded h := ⟨rfl, id⟩

theorem Hub.recorded_ownErr (h : Hub) (req : Req) (p off : Nat) : (h.ownErr req p off).Recorded h := ⟨rfl, id⟩

theorem Hub.recorded_gateErr (h : Hub) (req : Req) (p off : Nat) : (h.gateErr req p off).Recorded h := ⟨rfl, id⟩

theorem Hub.recorded_hear (h : Hub) (req : Req) (addr st : Nat) : (h.hear req addr st).Recorded h := ⟨h.rest_hear req addr st, h.quiet_hear req addr st⟩

theorem Hub.Recorded.trans {a b c : Hub} (h1 : a.Recorded b) (h2 : b.Recorded c) : a.Recorded c :=
  ⟨h1.rest.trans h2.rest, fun hq => h1.quiet (h2.quiet hq)⟩

theorem Hub.recorded_memTurnedAway (h e : Hub) (req : Req) (u off : Nat) (ht : h.memTurnedAway req u off = some e) : e.Recorded h := by
  unfold Hub.memTurnedAway at ht
  dsimp only at ht
  split_ifs at ht <;> cases ht
  · exact .refl h
  · exact h.recorded_ownErr _ _ _
  · exact h.recorded_gateErr _ _ _
  · exact .refl h

/-- No check of the Annex's own stops it at the mailboxes with a fault (R538). -/
theorem Hub.annexTurned_mbx (h : Hub) (req : Req) (off : Nat) (w : Bool) :
    h.annexTurned req pMbx off w = none ∨ h.annexTurned req pMbx off w = some h := by
  unfold Hub.annexTurned
  split_ifs with hr hst hmay
  · exact .inl rfl
  · exact .inr rfl
  · exact .inl rfl
  · exact absurd rfl hmay

theorem Hub.recorded_turnedAway_mbx (h e : Hub) (req : Req) (off size : Nat) (ht : h.turnedAway req pMbx off size = some e) : e.Recorded h := by
  unfold Hub.turnedAway at ht
  split_ifs at ht with _ ha
  · cases ht
    exact .refl h
  · rcases h.annexTurned_mbx req off true with hn | hn
    · simp [hn] at ha
    · cases hn.symm.trans ht
      exact .refl h
  all_goals cases ht
  · exact h.recorded_accErr _ _ _
  · exact h.recorded_accErr _ _ _
  · exact .refl h
  · exact h.recorded_ownErr _ _ _
  · exact h.recorded_gateErr _ _ _
  · exact .refl h

/-- The Prism memories are as in another hub outside some bytes, and the host port's and the Atrium's state whole. -/
def Hub.prsMemBut (g h : Hub) (lo n : Nat) : Prop :=
  (∀ a, a < lo ∨ lo + n ≤ a → Mem.read g.prsMem a = Mem.read h.prsMem a) ∧ g.host = h.host ∧ g.atr = h.atr

/-- The mailboxes' data are as in another hub outside some bytes, and the Prism memories and the Atrium's state whole. -/
def Hub.mailBut (g h : Hub) (lo n : Nat) : Prop :=
  (∀ a, a < lo ∨ lo + n ≤ a → Mem.read g.host.mail a = Mem.read h.host.mail a) ∧ g.prsMem = h.prsMem ∧ g.atr = h.atr

/-- The publish buffer is as in another hub outside some bytes, and the Prism memories and the host port's state whole. -/
def Hub.shadowBut (g h : Hub) (lo n : Nat) : Prop :=
  (∀ a, a < lo ∨ lo + n ≤ a → Mem.read g.atr.shadow a = Mem.read h.atr.shadow a) ∧ g.prsMem = h.prsMem ∧ g.host = h.host

theorem Hub.buffers_of_rest {g k : Hub} (hr : g.rest = k.rest) : g.prsMem = k.prsMem ∧ g.host = k.host ∧ g.atr = k.atr := by
  have hmem : g.rest.prsMem = k.rest.prsMem := congrArg Hub.prsMem hr
  have hhost : g.rest.host = k.rest.host := congrArg Hub.host hr
  have hatr : g.rest.atr = k.rest.atr := congrArg Hub.atr hr
  exact ⟨hmem, hhost, hatr⟩

theorem Hub.prsMemBut_of_rest {g k : Hub} (hr : g.rest = k.rest) (h : Hub) (lo n : Nat) (hk : k.prsMemBut h lo n) : g.prsMemBut h lo n := by
  obtain ⟨hmem, hhost, hatr⟩ := Hub.buffers_of_rest hr
  rwa [Hub.prsMemBut, hmem, hhost, hatr]

theorem Hub.mailBut_of_rest {g k : Hub} (hr : g.rest = k.rest) (h : Hub) (lo n : Nat) (hk : k.mailBut h lo n) : g.mailBut h lo n := by
  obtain ⟨hmem, hhost, hatr⟩ := Hub.buffers_of_rest hr
  rwa [Hub.mailBut, hmem, hhost, hatr]

theorem Hub.shadowBut_of_rest {g k : Hub} (hr : g.rest = k.rest) (h : Hub) (lo n : Nat) (hk : k.shadowBut h lo n) : g.shadowBut h lo n := by
  obtain ⟨hmem, hhost, hatr⟩ := Hub.buffers_of_rest hr
  rwa [Hub.shadowBut, hmem, hhost, hatr]

theorem Hub.prsMemBut_refl (h : Hub) (lo n : Nat) : h.prsMemBut h lo n := ⟨fun _ _ => rfl, rfl, rfl⟩
theorem Hub.mailBut_refl (h : Hub) (lo n : Nat) : h.mailBut h lo n := ⟨fun _ _ => rfl, rfl, rfl⟩
theorem Hub.shadowBut_refl (h : Hub) (lo n : Nat) : h.shadowBut h lo n := ⟨fun _ _ => rfl, rfl, rfl⟩

/-- A program word written. -/
theorem Hub.writeProgWord_frame (h : Hub) (e off v : Nat) :
    (h.quiet → (h.writeProgWord e off v).1.quiet) ∧ (h.writeProgWord e off v).1.prsMemBut h (0x10000 * e + off) 4 := by
  unfold Hub.writeProgWord
  split
  · exact ⟨id, h.prsMemBut_refl _ _⟩
  · refine ⟨id, fun a ha => Mem.read_setWord_other _ _ _ _ _ ?_, rfl, rfl⟩
    rwa [leBytes_length]

/-- Mailbox data written. -/
theorem Hub.mailData_frame (h : Hub) (req : Req) (off size v : Nat) :
    (h.quiet → (h.mailData req off size v).1.quiet) ∧ (h.mailData req off size v).1.mailBut h (off - 0xC00) size := by
  unfold Hub.mailData
  dsimp only
  split
  · exact ⟨id, h.mailBut_refl _ _⟩
  · refine ⟨id, fun a ha => Mem.read_setWord_other _ _ _ _ _ ?_, rfl, rfl⟩
    rwa [leBytes_length]

/-- The publish buffer written. -/
theorem Hub.writeShadow_frame (h : Hub) (req : Req) (off : Nat) (bs : List Byte) :
    (h.quiet → (h.writeShadow req off bs).1.quiet) ∧ (h.writeShadow req off bs).1.shadowBut h off bs.length := by
  unfold Hub.writeShadow
  split_ifs
  · exact ⟨id, h.shadowBut_refl _ _⟩
  · exact ⟨id, h.shadowBut_refl _ _⟩
  · exact ⟨id, h.shadowBut_refl _ _⟩
  · exact ⟨id, fun a ha => Mem.read_writeN_other _ _ _ _ ha, rfl, rfl⟩

/-- Settles O57: beyond registers each write changes its own memory, where the operand says. -/
theorem bufferWriteFrame : Obligations.BufferWriteFrame := by
  refine ⟨fun s t req unit i value hset hexec => ?_, fun s t req off size value hset hexec => ?_, fun s t req offset size value hset hexec => ?_⟩
  · refine run_frame (fun g => g.prsMemBut s.hub (0x10000 * unit + 4 * i) 4) (fun a b hr => Hub.prsMemBut_of_rest hr _ _ _) s t _ hexec
      (s.hub.prsMemBut_refl _ _) ?_
    have hrecord (e : Hub) (he : e.Recorded s.found) (addr st : Nat) :
        (e.hear req addr st).quiet ∧ (e.hear req addr st).prsMemBut s.hub (0x10000 * unit + 4 * i) 4 :=
      have hh := (e.recorded_hear req addr st).trans he
      ⟨hh.quiet (s.quiet_found hset), Hub.prsMemBut_of_rest hh.rest _ _ _ (s.found.prsMemBut_refl _ _)⟩
    dsimp only
    split
    · rename_i e he
      exact hrecord e (s.found.recorded_memTurnedAway e _ _ _ he) _ _
    · split
      · exact hrecord _ (s.found.recorded_accErr _ _ _) _ _
      · obtain ⟨hq, hframe⟩ := s.found.writeProgWord_frame unit (4 * i) value
        exact ⟨Hub.quiet_hear _ _ _ _ (hq (s.quiet_found hset)), Hub.prsMemBut_of_rest (Hub.rest_hear _ _ _ _) _ _ _ hframe⟩
  · refine run_frame (fun g => g.mailBut s.hub (off - 0xC00) size) (fun a b hr => Hub.mailBut_of_rest hr _ _ _) s t _ hexec
      (s.hub.mailBut_refl _ _) ?_
    split
    · exact ⟨s.quiet_found hset, s.found.mailBut_refl _ _⟩
    · unfold Hub.writeMail
      split
      · rename_i e he
        have hh := (e.recorded_hear req (pageAddr pMbx off) (s.found.stopStatus req pMbx off size true)).trans
          (s.found.recorded_turnedAway_mbx e _ _ _ he)
        exact ⟨hh.quiet (s.quiet_found hset), Hub.mailBut_of_rest hh.rest _ _ _ (s.found.mailBut_refl _ _)⟩
      · obtain ⟨hq, hframe⟩ := s.found.mailData_frame req off size value
        exact ⟨Hub.quiet_hear _ _ _ _ (hq (s.quiet_found hset)), Hub.mailBut_of_rest (Hub.rest_hear _ _ _ _) _ _ _ hframe⟩
  · refine run_frame (fun g => g.shadowBut s.hub offset size) (fun a b hr => Hub.shadowBut_of_rest hr _ _ _) s t _ hexec
      (s.hub.shadowBut_refl _ _) ?_
    split
    · obtain ⟨hq, hframe⟩ := s.found.writeShadow_frame req offset (leBytes size value)
      rw [leBytes_length] at hframe
      exact ⟨Hub.quiet_hear _ _ _ _ (hq (s.quiet_found hset)), Hub.shadowBut_of_rest (Hub.rest_hear _ _ _ _) _ _ _ hframe⟩
    · have hh := (Hub.recorded_hear _ req (0x80300000 + offset) stBadSize).trans
        (s.found.recorded_accErr req ((0x300000 + offset) / 4096) (offset % 4096))
      exact ⟨hh.quiet (s.quiet_found hset), Hub.shadowBut_of_rest hh.rest _ _ _ (s.found.shadowBut_refl _ _)⟩

/-! ### The FIFOs of the serial controllers (R365) -/

theorem Hub.ser_setSer_same (h : Hub) (p : Nat) (f : SerState → SerState) : (h.setSer p f).ser p = f (h.ser p) := Map.getD_put_same _ _ _ _

/-- A soft reset of a serial controller leaves of its state what stands for the configuration before the last commit. -/
theorem Hub.ser_resetSer (h : Hub) (p : Nat) : ∃ x, ((h.resetSer p).ser p) = { prior := x } := ⟨_, Hub.ser_setSer_same _ _ _⟩

/-- A serial page is none of the management pages, and its hook is the controllers' own. -/
theorem Hub.softReset_serial (h : Hub) (p : Nat) (hk : kindOf p ∈ [some Kind.uart, some Kind.spi, some Kind.i2c]) :
    ∃ g : Hub, h.softReset p = g.resetSer p := by
  have hne (q : Nat) (hq : kindOf q ∉ [some Kind.uart, some Kind.spi, some Kind.i2c]) : p ≠ q := by
    rintro rfl
    exact hq hk
  have hsys := hne pSys (by decide)
  have hlc := hne pLc (by decide)
  have hstw := hne pStw (by decide)
  have hbist := hne pBist (by decide)
  simp only [List.mem_cons, List.not_mem_nil, or_false] at hk
  refine ⟨(h.softResetBefore p).softResetRegs p, ?_⟩
  rcases hk with hk | hk | hk
  all_goals simp [Hub.softReset, hsys, hlc, hstw, hbist, Hub.softResetHook, hk]

/-- RTS stays as it is, or it turns in the controller's UART state with the event of it. -/
theorem Hub.rtsFollow_cases (h : Hub) (p : Nat) :
    h.rtsFollow p = h ∨ ∃ r, h.rtsFollow p = (h.setUart p (fun u => { u with rts := r })).serialEvent p 3 := by
  unfold Hub.rtsFollow
  dsimp only
  generalize (if 56 ≤ (h.ser p).rx.length then false else if (h.ser p).rx.length < 48 then true else (h.ser p).uart.rts) = r
  split
  · exact .inl rfl
  · exact .inr ⟨r, rfl⟩

theorem Hub.serialEvent_ser (h : Hub) (p c : Nat) : (h.serialEvent p c).ser p = h.ser p := by
  unfold Hub.serialEvent
  split
  · split <;> rfl
  · rfl

theorem Hub.serialEvent_quiet (h : Hub) (p c : Nat) (hq : h.quiet) : (h.serialEvent p c).quiet := by
  unfold Hub.serialEvent
  split
  · split <;> exact hq
  · exact hq

theorem Hub.rtsFollow_ser (h : Hub) (p : Nat) : ∃ u, ((h.rtsFollow p).ser p) = { h.ser p with uart := u } := by
  obtain hsame | ⟨r, hturn⟩ := h.rtsFollow_cases p
  · exact ⟨(h.ser p).uart, by rw [hsame]⟩
  · exact ⟨{ (h.ser p).uart with rts := r }, by rw [hturn, Hub.serialEvent_ser, Hub.setUart, Hub.ser_setSer_same]⟩

theorem Hub.rtsFollow_quiet (h : Hub) (p : Nat) (hq : h.quiet) : (h.rtsFollow p).quiet := by
  obtain hsame | ⟨r, hturn⟩ := h.rtsFollow_cases p
  · rwa [hsame]
  · rw [hturn]
    exact Hub.serialEvent_quiet _ p 3 hq

/-- The oldest entry popped, where nothing waits for its room: it is answered, and the others stay. -/
theorem Hub.popRx_cons (h : Hub) (p e : Nat) (l : List Nat) (hrx : (h.ser p).rx = e :: l) (hdue : (h.ser p).i2c.due = []) :
    (h.popRx p).1 = e ∧ ((h.popRx p).2.ser p).rx = l ∧ (h.quiet → (h.popRx p).2.quiet) := by
  obtain ⟨u, hu⟩ := (h.setSer p (fun s => { s with rx := l })).rtsFollow_ser p
  rw [Hub.ser_setSer_same] at hu
  have hsettle (g : Hub) (hg : (g.ser p).i2c.due = []) : g.settleOwed p 1 = g := by simp only [Hub.settleOwed, hg]
  have hpop : h.popRx p = (e, (h.setSer p (fun s => { s with rx := l })).rtsFollow p) := by
    simp only [Hub.popRx, hrx]
    rw [hsettle _ (by rw [hu]; exact hdue)]
  rw [hpop]
  exact ⟨rfl, by rw [hu], fun hq => Hub.rtsFollow_quiet _ p hq⟩

theorem Hub.ser_of_rest {g k : Hub} (hr : g.rest = k.rest) (p : Nat) : g.ser p = k.ser p := by
  have hsers : g.rest.sers = k.rest.sers := congrArg Hub.sers hr
  exact congrArg (fun m => Map.getD m p {}) hsers

/-- Settles O58: the reset ends in fresh FIFOs; a fence refuses the push before it reaches the FIFO, and no pop asks for one. -/
theorem serialFifosAcrossResetAndFence : Obligations.SerialFifosAcrossResetAndFence := by
  refine ⟨fun s req page hkind hawake hadm => ?_, fun s req page off value hawake hset hadm hplace hmode hfence => ?_,
    fun s req page off e l hawake hset hadm hplace hrx hdue => ?_⟩
  · obtain ⟨g, hg⟩ := s.found.softReset_serial page hkind
    obtain ⟨x, hx⟩ := g.ser_resetSer page
    refine ⟨(g.resetSer page).emit (.resp req true), run_ends s _ _ hawake ((Hub.writeDo_admitted _ _ _ _ _ hadm).trans (by rw [hg])), ?_⟩
    rw [show ((g.resetSer page).emit (.resp req true)).ser page = (g.resetSer page).ser page from rfl, hx]
    exact ⟨rfl, rfl, rfl⟩
  · have hheld : ¬ s.found.modeEff = .held := hmode
    have hfenced : s.found.fenced page = true := hfence
    have hpush : s.found.pushTx page value (.reply req (pageAddr page off)) = s.found.hear req (pageAddr page off) 0x08 := by
      rw [Hub.pushTx, if_neg hheld, if_pos hfenced, Hub.stallEnds]
    have hmild := State.MildEffect.refl s []
    refine ⟨_, run_ends s _ _ hawake ?_, hmild.error_answered hset req (pageAddr page off) 0x08 (by decide) (by simp)
      (s.found.hostServed_of_admitted req page off 4 hadm), hmild.keeps_answered hset req _ _⟩
    simp only [show s.found.turnedAway req page off 4 = none from hadm, hplace, if_true, hpush]
  · obtain ⟨hfirst, hrest, hquiet⟩ := s.found.popRx_cons page e l hrx hdue
    have hq : ((s.found.popRx page).2.emit (.data req (s.found.popRx page).1)).quiet := hquiet (s.quiet_found hset)
    refine ⟨s.ends ((s.found.popRx page).2.emit (.data req (s.found.popRx page).1)), run_ends s _ _ hawake ?_, ?_, ?_⟩
    · simp only [show s.found.readTurnedAway req page off 4 = none from hadm, hplace, if_true]
    · rw [State.ends_hub]
      exact Hub.out_finish _ _ _ hq.1 hq.2 (by simp [hfirst])
    · rw [Hub.ser_of_rest (s.rest_ends _ hq)]
      exact hrest

end Sys2Proof.Machine
end

section
/-!
PROOFS. What an instruction of a Prism engine leaves as it was (R407, R408): every register but its destination and INSTR_COUNT, the other
engines, and of its own engine all but what the instruction counts and sets.
-/
namespace Sys2Proof.Machine

open Reg

/-! ### Views of an engine that an instruction leaves -/

/-- An engine but for its program counter, the bookkeeping of its ticks and its flags. -/
def PrsState.flagless (x : PrsState) : PrsState := { x.still with z := false, n := false, c := false }

/-- A view of an engine that shows what it waits for, but neither the end of an instruction nor the anchor of its ticks. -/
structure TickView (view : PrsState → PrsState) : Prop where
  wait : ∀ x, (view x).wait = x.wait
  completed : ∀ x pc n, x.wait = .none → view { x with pc := pc, wait := .none, ticks := n } = view x
  anchored : ∀ x c n f m, view { x with anchor := c, ticks := n, first := f, after := x.after.map (fun a => (a.1 - m, a.2)) } = view x

theorem tickView_still : TickView PrsState.still where
  wait _ := rfl
  completed x pc n h := by simp [PrsState.still, h]
  anchored x c n f m := by simp [PrsState.still, Function.comp_def]

theorem tickView_flagless : TickView PrsState.flagless where
  wait _ := rfl
  completed x pc n h := by rw [PrsState.flagless, tickView_still.completed x pc n h, PrsState.flagless]
  anchored x c n f m := by rw [PrsState.flagless, tickView_still.anchored, PrsState.flagless]

/-! ### The frame of an engine -/

/-- Of a hub only some registers, one engine outside a view, and the Prism memories outside a view differ from another. -/
def Hub.engineBut (view : PrsState → PrsState) (mem : Map Byte → Map Byte) (unit : Nat) (l : List Key) (g h : Hub) : Prop :=
  g.registersBut h l ∧ { g.rest with prs := [], prsMem := mem g.prsMem } = { h.rest with prs := [], prsMem := mem h.prsMem } ∧
  (∀ e, e ≠ unit → g.eng e = h.eng e) ∧ view (g.eng unit) = view (h.eng unit)

/-- As `Hub.engineBut`, with nothing added that is judged at the end of the command. -/
structure Hub.EngineFrame (view : PrsState → PrsState) (mem : Map Byte → Map Byte) (unit : Nat) (l : List Key) (g h : Hub) : Prop where
  but : g.engineBut view mem unit l h
  due : g.sys.due = h.sys.due
  edge : g.edge = h.edge

section

variable {view : PrsState → PrsState} {mem : Map Byte → Map Byte} {unit : Nat} {l : List Key} {a b c g h : Hub}

theorem Hub.engineBut_trans (h1 : a.engineBut view mem unit l b) (h2 : b.engineBut view mem unit l c) : a.engineBut view mem unit l c := by
  obtain ⟨hregs1, hrest1, hothers1, hview1⟩ := h1
  obtain ⟨hregs2, hrest2, hothers2, hview2⟩ := h2
  exact ⟨Hub.registersBut_trans _ _ _ _ hregs1 hregs2, hrest1.trans hrest2, fun e he => (hothers1 e he).trans (hothers2 e he), hview1.trans hview2⟩

theorem Hub.engineBut_of_keeps (hk : g.keeps h l) : g.engineBut view mem unit l h := by
  obtain ⟨hregs, hrest⟩ := hk
  have hprs : g.prs = h.prs := (congrArg Hub.prs hrest :)
  have hmem : g.prsMem = h.prsMem := (congrArg Hub.prsMem hrest :)
  have heng (e : Nat) : g.eng e = h.eng e := by rw [Hub.eng, Hub.eng, hprs]
  exact ⟨hregs, by rw [hrest, hmem], fun e _ => heng e, by rw [heng]⟩

theorem Hub.EngineFrame.refl (h : Hub) : h.EngineFrame view mem unit l h := ⟨Hub.engineBut_of_keeps (h.keeps_refl l), rfl, rfl⟩

theorem Hub.EngineFrame.trans (h1 : a.EngineFrame view mem unit l b) (h2 : b.EngineFrame view mem unit l c) : a.EngineFrame view mem unit l c :=
  ⟨Hub.engineBut_trans h1.but h2.but, h1.due.trans h2.due, h1.edge.trans h2.edge⟩

theorem Hub.EngineFrame.put (hf : g.EngineFrame view mem unit l h) (p : Nat) (f : Fld) (v : Nat) (hs : f.acc ≠ .stg) (hl : f.on p ∈ l) :
    (g.put p f v).EngineFrame view mem unit l h :=
  Hub.EngineFrame.trans ⟨Hub.engineBut_of_keeps (g.keeps_put p f v l hs hl), rfl, rfl⟩ hf

theorem Hub.EngineFrame.setEng (hf : g.EngineFrame view mem unit l h) (f : PrsState → PrsState) (hv : view (f (g.eng unit)) = view (g.eng unit)) :
    (g.setEng unit f).EngineFrame view mem unit l h := by
  refine Hub.EngineFrame.trans (b := g) ⟨⟨⟨rfl, rfl, fun _ _ => rfl⟩, rfl, fun e he => ?_, ?_⟩, rfl, rfl⟩ hf
  · exact Map.getD_put_other _ _ _ _ _ he.symm
  · rw [show (g.setEng unit f).eng unit = f (g.eng unit) from Map.getD_put_same _ _ _ _, hv]

/-- An engine that waits for nothing before waits for nothing after. -/
theorem Hub.EngineFrame.wait (hv : TickView view) (hf : g.EngineFrame view mem unit l h) : (g.eng unit).wait = (h.eng unit).wait := by
  rw [← hv.wait, hf.but.2.2.2, hv.wait]

/-! ### What instructions are made of -/

/-- The ticks of the instruction before are over: only the anchor moves. -/
theorem Hub.EngineFrame.reTick (hv : TickView view) (hf : g.EngineFrame view mem unit l h) : (g.reTick unit).EngineFrame view mem unit l h := by
  unfold Hub.reTick Hub.reAnchor
  exact hf.setEng _ (hv.anchored _ _ _ _ _)

theorem Hub.EngineFrame.completeTo (hv : TickView view) (hl : PRS.INSTR_COUNT.on (pPrs unit) ∈ l) (hw : (h.eng unit).wait = .none)
    (hf : g.EngineFrame view mem unit l h) (pc n : Nat) : (g.completeTo unit pc n).EngineFrame view mem unit l h :=
  (hf.setEng _ (hv.completed _ pc n ((hf.wait hv).trans hw))).put _ _ _ (by decide) hl

theorem Hub.EngineFrame.setW (hf : g.EngineFrame view mem unit l h) (i v : Nat) (hl : (PRS.W_VALUE (i % 8)).on (pPrs unit) ∈ l) :
    (g.setW unit i v).EngineFrame view mem unit l h := hf.put _ _ _ (fun h => nomatch h) hl

theorem Hub.EngineFrame.result (hf : g.EngineFrame PrsState.flagless mem unit l h) (d v : Nat) (c : Bool)
    (hl : (PRS.W_VALUE (d % 8)).on (pPrs unit) ∈ l) : (g.result unit d v c).EngineFrame PrsState.flagless mem unit l h :=
  (hf.setW d v hl).setEng _ rfl

/-- One instruction: where it executes, its own effect has the frame, so the command has. -/
theorem instruction_frame (hv : TickView view) (s t : State) (op : Nat) (k : Hub → Nat → Hub) (hset : s.settled) (hi : instruction op unit s k = .next t)
    (hk : ∀ g : Hub, (g.eng unit).wait = .none → (k g (s.found.fetched unit)).EngineFrame view mem unit (l ++ endPlaces) g) :
    t.hub.engineBut view mem unit (l ++ endPlaces) s.hub := by
  have hfound : s.found.engineBut view mem unit (l ++ endPlaces) s.hub := Hub.engineBut_of_keeps (s.keeps_found _)
  rcases run_inv s t _ hi with ⟨-, rfl⟩ | rfl
  · refine Hub.engineBut_trans ?_ hfound
    rw [State.ends_hub]
    dsimp only
    split
    case isFalse =>
      have hq := s.quiet_found hset
      exact Hub.engineBut_of_keeps (Hub.keeps_mono _ _ _ _ (s.found.keeps_finish s.hub hq.1 hq.2) fun _ => List.mem_append_right l)
    case isTrue hexec =>
      have hwait : (s.found.eng unit).wait = .none := by
        simp only [Hub.executing, Bool.and_eq_true, beq_iff_eq] at hexec
        exact hexec.1.1.1.2
      have htick : (s.found.reTick unit).EngineFrame view mem unit (l ++ endPlaces) s.found := (Hub.EngineFrame.refl s.found).reTick hv
      have hall := (hk (s.found.reTick unit) ((htick.wait hv).trans hwait)).trans htick
      have hq := s.quiet_found hset
      have hend := Hub.keeps_finish _ s.hub (hall.due.trans hq.1) (by rw [hall.edge]; exact hq.2)
      exact Hub.engineBut_trans (Hub.engineBut_of_keeps (Hub.keeps_mono _ _ _ _ hend fun _ => List.mem_append_right l)) hall.but
  · exact hfound

/-- The places of an instruction with a destination. -/
def resultPlaces (unit d : Nat) : List Key := [(PRS.W_VALUE (d % 8)).on (pPrs unit), PRS.INSTR_COUNT.on (pPrs unit)]

theorem count_mem_resultPlaces (unit d : Nat) : PRS.INSTR_COUNT.on (pPrs unit) ∈ resultPlaces unit d ++ endPlaces := by simp [resultPlaces]

theorem dest_mem_resultPlaces (unit d : Nat) : (PRS.W_VALUE (d % 8)).on (pPrs unit) ∈ resultPlaces unit d ++ endPlaces := by simp [resultPlaces]

/-- A result with its flags, then the next word. -/
theorem Hub.engineFrame_result (g : Hub) (hw : (g.eng unit).wait = .none) (d v n : Nat) (c : Bool) :
    ((g.result unit d v c).completedIn unit n).EngineFrame PrsState.flagless id unit (resultPlaces unit d ++ endPlaces) g :=
  ((Hub.EngineFrame.refl g).result _ _ _ (dest_mem_resultPlaces _ _)).completeTo tickView_flagless (count_mem_resultPlaces _ _) hw _ _

/-- A word loaded, then the word at a PC. -/
theorem Hub.engineFrame_load (g : Hub) (hw : (g.eng unit).wait = .none) (d v pc n : Nat) :
    ((g.setW unit d v).completeTo unit pc n).EngineFrame PrsState.still id unit (resultPlaces unit d ++ endPlaces) g :=
  ((Hub.EngineFrame.refl g).setW _ _ (dest_mem_resultPlaces _ _)).completeTo tickView_still (count_mem_resultPlaces _ _) hw _ _

/-- The word at a PC. -/
theorem Hub.engineFrame_jump (g : Hub) (hw : (g.eng unit).wait = .none) (pc n : Nat) :
    (g.completeTo unit pc n).EngineFrame PrsState.still mem unit ([PRS.INSTR_COUNT.on (pPrs unit)] ++ endPlaces) g :=
  (Hub.EngineFrame.refl g).completeTo tickView_still (List.mem_append_left _ (List.mem_singleton.2 rfl)) hw _ _

/-- A word of data memory stored. -/
theorem Hub.EngineFrame.setDataWord (hf : g.EngineFrame view (fun _ => []) unit l h) (j v : Nat) :
    (g.setDataWord unit j v).EngineFrame view (fun _ => []) unit l h :=
  Hub.EngineFrame.trans (b := g) ⟨⟨⟨rfl, rfl, fun _ _ => rfl⟩, rfl, fun _ _ => rfl, rfl⟩, rfl, rfl⟩ hf

end

/-- Settles O55: each instruction's effect is a result, a load or a jump, and each of these has its frame. -/
theorem prismResultFrame : Obligations.PrismResultFrame := by
  intro s t unit hset
  have result := instruction_frame (unit := unit) (mem := id) (l := resultPlaces unit (dOf (s.found.fetched unit))) tickView_flagless s t
  have load := instruction_frame (unit := unit) (mem := id) (l := resultPlaces unit (dOf (s.found.fetched unit))) tickView_still s t
  have jump := instruction_frame (unit := unit) (mem := id) (l := [PRS.INSTR_COUNT.on (pPrs unit)]) tickView_still s t
  refine ⟨fun c hc hexec => ?_, fun c hc hexec => ?_, fun c hc hexec => ?_⟩
  all_goals simp only [List.mem_cons, List.not_mem_nil, or_false] at hc
  · rcases hc with rfl | rfl | rfl | rfl | rfl | rfl | rfl | rfl | rfl | rfl
    · exact result _ _ hset (show execAdd unit s = .next t from hexec) fun g hw => g.engineFrame_result hw _ _ _ _
    · exact result _ _ hset (show execSub unit s = .next t from hexec) fun g hw => g.engineFrame_result hw _ _ _ _
    · exact result _ _ hset (show execAnd unit s = .next t from hexec) fun g hw => g.engineFrame_result hw _ _ _ _
    · exact result _ _ hset (show execOr unit s = .next t from hexec) fun g hw => g.engineFrame_result hw _ _ _ _
    · exact result _ _ hset (show execXor unit s = .next t from hexec) fun g hw => g.engineFrame_result hw _ _ _ _
    · exact result _ _ hset (show execShl unit s = .next t from hexec) fun g hw => g.engineFrame_result hw _ _ _ _
    · exact result _ _ hset (show execShr unit s = .next t from hexec) fun g hw => g.engineFrame_result hw _ _ _ _
    · exact result _ _ hset (show execSar unit s = .next t from hexec) fun g hw => g.engineFrame_result hw _ _ _ _
    · exact result _ _ hset (show execAddi unit s = .next t from hexec) fun g hw => g.engineFrame_result hw _ _ _ _
    · exact result _ _ hset (show execMul unit s = .next t from hexec) fun g hw => g.engineFrame_result hw _ _ _ _
  · rcases hc with rfl | rfl | rfl | rfl | rfl | rfl
    · exact load _ _ hset (show execLdi unit s = .next t from hexec) fun g hw => g.engineFrame_load hw _ _ _ _
    · exact load _ _ hset (show execLui unit s = .next t from hexec) fun g hw => g.engineFrame_load hw _ _ _ _
    · exact load _ _ hset (show execMov unit s = .next t from hexec) fun g hw => g.engineFrame_load hw _ _ _ _
    · exact load _ _ hset (show execLd unit s = .next t from hexec) fun g hw => g.engineFrame_load hw _ _ _ _
    · refine load _ _ hset (show execDjnz unit s = .next t from hexec) fun g hw => ?_
      dsimp only
      split
      · exact g.engineFrame_load hw _ _ _ _
      · exact g.engineFrame_load hw _ _ _ _
    · exact load _ _ hset (show execPin unit s = .next t from hexec) fun g hw => g.engineFrame_load hw _ _ _ _
  · rcases hc with rfl | rfl | rfl
    · exact jump _ _ hset (show execNop unit s = .next t from hexec) fun g hw => g.engineFrame_jump hw _ _
    · exact jump _ _ hset (show execJmp unit s = .next t from hexec) fun g hw => g.engineFrame_jump hw _ _
    · refine jump _ _ hset (show execJcc unit s = .next t from hexec) fun g hw => ?_
      split
      · exact g.engineFrame_jump hw _ _
      · exact g.engineFrame_jump hw _ _

/-- Settles O56: the word stored is the one at the address, and the rest of the instruction is the step to the next word. -/
theorem prismStoreFrame : Obligations.PrismStoreFrame := by
  intro s t unit hset hexec
  have hi : execSt unit s = .next t := hexec
  refine ⟨fun a ha => ?_, ?_⟩
  · refine run_frame (fun g => Mem.read g.prsMem a = Mem.read s.hub.prsMem a) (fun g k hr hk => ?_) s t _ hi rfl ?_
    · rwa [show g.prsMem = k.prsMem from (congrArg Hub.prsMem hr :)]
    · dsimp only
      split
      · exact ⟨s.quiet_found hset, Mem.read_setWord_other _ _ _ _ _ (by rwa [leBytes_length])⟩
      · exact ⟨s.quiet_found hset, rfl⟩
  · have hframe := instruction_frame (mem := fun _ => []) (l := [PRS.INSTR_COUNT.on (pPrs unit)]) tickView_still s t _ _ hset hi fun g hw =>
      ((Hub.EngineFrame.refl g).setDataWord _ _).completeTo tickView_still (List.mem_append_left _ (List.mem_singleton.2 rfl)) hw _ _
    exact hframe

end Sys2Proof.Machine
end

section
/-!
PROOFS. The completion statements: under the conditions of its rule each command answers the next state that the rule gives. A command is run
once by the lemma of its kind (an event of the core, a register write, a read), and its own conditions then choose its branch.
-/
namespace Sys2Proof.Machine

/-! ### The kinds of command -/

/-- A command of start-up outside Shelf. -/
theorem runPowered_gives (s : State) (f : Hub → Hub) (g : Hub) (h : s.powered) (hf : f s.found = g) : runPowered s f = .next (s.ends g) :=
  hf ▸ runPowered_ends s f h

/-- An admitted register command that completes with its effect. -/
theorem run_wrote (s : State) {req : Req} {p off : Nat} {f k : Hub → Hub} {g : Hub} (h : s.awake) (ha : s.admits req p off)
    (hf : f s.found = s.found.writeDo req p off k) (hk : k s.found = g) : run s f = .next (s.wrote req g) :=
  run_ends s f _ h (by rw [hf, Hub.writeDo_admitted _ _ _ _ _ ha, hk])

/-- An admitted register command that may fail, where it does not. -/
theorem run_wrote_ok (s : State) {req : Req} {p off bad : Nat} {f : Hub → Hub} {k : Hub → Hub × Bool} {g : Hub} (h : s.awake)
    (ha : s.admits req p off) (hf : f s.found = s.found.write req p off k bad) (hk : k s.found = (g, true)) : run s f = .next (s.wrote req g) :=
  run_ends s f _ h (by rw [hf, Hub.write_admitted _ _ _ _ _ _ ha, hk, if_pos rfl, Hub.hear_ok])

/-- An admitted read. -/
theorem run_told (s : State) {req : Req} {p off : Nat} {f : Hub → Hub} {k : Hub → Nat × Hub} {x : Nat × Hub} (h : s.awake)
    (ha : s.admitsRead req p off) (hf : f s.found = s.found.read req p off k) (hk : k s.found = x) : run s f = .next (s.told req x) :=
  run_ends s f _ h (by rw [hf, Hub.read_admitted _ _ _ _ _ ha, hk])

open Reg

/-! ### The register commands -/

/-- Settles O1: an admitted access reaches its register, and the conditions choose the register's branch. -/
theorem registerCommandsComplete : Obligations.RegisterCommandsComplete := by
  refine ⟨?_, ?_, ?_, ?_, ?_, ?_, ?_, ?_⟩
  · intro s req page off size value k hawake hpage hadm hkind
    refine run_ends s _ _ hawake ?_
    have hno : ¬ (page = pSys ∧ off = 0x084 ∧ size = 4 ∧ s.found.modeReqShut req = false) := fun h => hpage ⟨h.1, h.2.1⟩
    simp only [Hub.regWrite, if_neg hno, hadm, hkind]
  · intro s req page hawake hadm
    exact run_wrote s hawake hadm rfl rfl
  · intro s req page value hawake hadm hvalue
    exact run_wrote s hawake hadm rfl (by simp [Hub.xkey, hvalue, flag])
  · intro s req page hawake hadm hpage hfree
    have hopen : ¬ (page = pSys ∨ page = pLc ∨ page = pStw) := by simp [hpage]
    have hidle : ¬ (page = pBist ∧ s.found.on pBist BIST.UNIT_BUSY = true) := by
      rintro ⟨hp, hbusy⟩
      exact hfree.elim (absurd hp) (by simp [hbusy])
    exact run_wrote s hawake hadm rfl (by rw [Hub.softReset, if_neg hopen, if_neg hidle])
  · intro s req page hawake hadm hpage hbusy
    have hopen : ¬ (page = pSys ∨ page = pLc ∨ page = pStw) := by
      rw [hpage]
      decide
    exact run_wrote s hawake hadm rfl (by rw [Hub.softReset, if_neg hopen, if_pos ⟨hpage, hbusy⟩])
  · intro s req page mask setNow hawake hadm
    exact run_wrote s hawake hadm rfl rfl
  · intro s req page mask active hawake hadm hactive
    refine run_wrote s hawake hadm rfl ?_
    simp [Hub.clearFlt, hactive, bitOf, Hub.raiseAll]
  · intro s req page hawake hadm hidle
    exact run_wrote_ok s hawake hadm rfl (by simp [Hub.discardPage, hidle])

/-! ### Commits -/

/-- The refusals and drops of the attempt before, cleared. -/
def Hub.attemptCleared (h : Hub) : Hub := (h.put pSys SYS.COMMIT_STATE_BLOCKED 0).put pSys SYS.COMMIT_DROPS_DROPS 0

theorem Hub.get_attemptCleared (h : Hub) (p : Nat) (f : Fld) (hf : f.on p ∉ [SYS.COMMIT_STATE_BLOCKED.on pSys, SYS.COMMIT_DROPS_DROPS.on pSys]) :
    h.attemptCleared.get p f = h.get p f := by
  simp only [List.mem_cons, List.not_mem_nil, or_false, not_or] at hf
  exact (Hub.get_put_other _ _ _ _ _ _ (Ne.symm hf.2)).trans (Hub.get_put_other _ _ _ _ _ _ (Ne.symm hf.1))

theorem Hub.mode_attemptCleared (h : Hub) : h.attemptCleared.mode = h.mode := congrArg Mode.ofCode (h.get_attemptCleared _ _ (by decide))

theorem Hub.now_attemptCleared (h : Hub) : h.attemptCleared.now = h.now := by
  have hstate := h.get_attemptCleared pTime TIME.STAT_STATE (by decide)
  simp only [Hub.now, Hub.mainInUse, hstate]
  rfl

theorem Hub.commitTime_attemptCleared (h : Hub) : h.attemptCleared.commitTime = h.commitTime := by
  rw [Hub.commitTime, Hub.get64, h.get_attemptCleared _ _ (by decide), h.get_attemptCleared _ _ (by decide)]
  rfl

/-- A commit command that nothing shuts begins an attempt. -/
theorem Hub.commitCommand_started (h : Hub) (cmd : Nat) (hbusy : h.commitBusy = false) (hmode : noCommit h.mode = false)
    (htime : cmd = 3 → commitTimeOk h.now h.commitTime = true) : h.commitCommand cmd = h.commitStarted cmd := by
  have hlate : ¬ (cmd = 3 ∧ commitTimeOk h.attemptCleared.now h.attemptCleared.commitTime = false) := by
    rw [h.now_attemptCleared, h.commitTime_attemptCleared]
    rintro ⟨h3, hbad⟩
    exact absurd (hbad.symm.trans (htime h3)) (by decide)
  have hshut : ¬ noCommit h.attemptCleared.mode = true := by
    rw [h.mode_attemptCleared, hmode]
    decide
  have hcur : (h.attemptCleared.put pSys SYS.COMMIT_STATE_STATE 1).get pSys SYS.MODE_CUR = h.get pSys SYS.MODE_CUR :=
    (Hub.get_put_other _ _ _ _ _ _ (by decide)).trans (h.get_attemptCleared _ _ (by decide))
  rw [Hub.commitCommand, if_neg (by simp [hbusy])]
  refine (if_neg hshut).trans ((if_neg hlate).trans ?_)
  unfold Hub.commitStarted
  rw [← hcur]
  rfl

/-- Settles O2: each command's word begins its attempt or ends the one that waits; the events find the state that they ask for. -/
theorem commitCommandsComplete : Obligations.CommitCommandsComplete := by
  refine ⟨?_, ?_, ?_, ?_, ?_, ?_, ?_, ?_, ?_⟩
  · intro s req hawake hadm hbusy hmode
    exact run_wrote_ok s hawake hadm rfl (congrArg (·, true) (s.found.commitCommand_started 1 hbusy hmode nofun))
  · intro s req hawake hadm hbusy hmode
    exact run_wrote_ok s hawake hadm rfl (congrArg (·, true) (s.found.commitCommand_started 2 hbusy hmode nofun))
  · intro s req hawake hadm hbusy hmode htime
    exact run_wrote_ok s hawake hadm rfl (congrArg (·, true) (s.found.commitCommand_started 3 hbusy hmode fun _ => htime))
  · intro s req hawake hadm hbusy hmode
    exact run_wrote_ok s hawake hadm rfl (congrArg (·, true) (s.found.commitCommand_started 4 hbusy hmode nofun))
  · intro s req hawake hadm hstate
    exact run_wrote_ok s hawake hadm rfl (congrArg (·, true) (if_pos hstate))
  · intro s internalError hawake hstate herr
    exact run_ends s _ _ hawake (by simp [hstate, herr])
  · intro s internalError hawake hstate herr
    exact run_ends s _ _ hawake (by simp [hstate, herr])
  · intro s hawake hstate
    exact run_ends s _ _ hawake (if_pos hstate)
  · intro s hawake hstate hcmd
    exact run_ends s _ _ hawake (if_pos ⟨hstate, hcmd⟩)

/-! ### Requests for a mode -/

/-- A request that is granted is noted and performed. -/
theorem run_granted (s : State) (req : Req) (cmd v : Nat) (g : Hub) (hawake : s.awake) (hgrant : s.grants req cmd) (hkey : slice v 16 16 = 0x6D0E)
    (hcmd : v % 16 = cmd) (hg : (s.found.requestNoted cmd).performRequest cmd = g) :
    run s (fun h => h.modeRequest req v) = .next (s.wrote req g) := by
  obtain ⟨hshut, hmay, hres⟩ := hgrant
  have hopen : ((!(s.found.mayWrite req pSys || (req == .host && (0x6D0E : Nat) == 0x6D0E && (cmd == 5 || cmd == 7)))) = true) = False := by simp [hmay]
  refine run_ends s _ _ hawake ?_
  have hdone : s.found.writeModeReq req v = (g, true) := by
    simp only [Hub.writeModeReq, hkey, hcmd, hres, hopen, if_false, if_true]
    exact congrArg (·, true) hg
  simp only [Hub.modeRequest, hshut, hdone, Bool.false_eq_true, if_false, if_true, Hub.hear_ok]

/-- Settles O3: a granted request is performed, but for one that the mode wanted on this edge outranks. -/
theorem modeRequestsComplete : Obligations.ModeRequestsComplete := by
  refine ⟨?_, ?_, ?_, ?_, ?_, ?_, ?_, ?_, ?_, ?_, ?_⟩
  · intro s req hawake hgrant hrank
    exact run_granted s req 1 _ _ hawake hgrant rfl rfl (by simp [Hub.performRequest, hrank])
  · intro s req hawake hgrant hrank
    exact run_granted s req 1 _ _ hawake hgrant rfl rfl (by simp [Hub.performRequest, hrank])
  · intro s req hawake hgrant
    exact run_granted s req 2 _ _ hawake hgrant rfl rfl rfl
  · intro s req hawake hgrant hrank
    exact run_granted s req 3 _ _ hawake hgrant rfl rfl (by simp [Hub.performRequest, hrank])
  · intro s req hawake hgrant hrank
    exact run_granted s req 3 _ _ hawake hgrant rfl rfl (by simp [Hub.performRequest, hrank])
  · intro s req hawake hgrant hrank
    exact run_granted s req 4 _ _ hawake hgrant rfl rfl (by simp [Hub.performRequest, hrank])
  · intro s req hawake hgrant hrank
    exact run_granted s req 4 _ _ hawake hgrant rfl rfl (by simp [Hub.performRequest, hrank])
  · intro s req hawake hgrant
    exact run_granted s req 5 _ _ hawake hgrant rfl rfl rfl
  · intro s req hawake hgrant hrank
    exact run_granted s req 6 _ _ hawake hgrant rfl rfl (by simp [Hub.performRequest, hrank])
  · intro s req hawake hgrant hrank
    exact run_granted s req 6 _ _ hawake hgrant rfl rfl (by simp [Hub.performRequest, hrank])
  · intro s req hawake hgrant
    exact run_granted s req 7 _ _ hawake hgrant rfl rfl rfl

end Sys2Proof.Machine
end

section
/-!
PROOFS. The completion statements of the modes, start-up, the gates and the ring.
-/
namespace Sys2Proof.Machine

open Reg

/-! ### Modes and start-up -/

/-- A command of the keep-alive domain. -/
theorem next_ends (s : State) {f g : Hub} (h : f = g) : (.next (s.ends f) : Host.Outcome State Fault Refusal) = .next (s.ends g) := by rw [h]

/-- Start-up goes on from its third step with the 25 MHz reference (R105). -/
theorem Hub.proceed_ref25 (h : Hub) (hmode : h.mode = .waking) (hstep : h.sys.startup = 3) (hcore : h.corePresent = true) (hrst : h.sys.rstLow = false)
    (href : h.on pSys SYS.CLK_STAT_REF25 = true) : h.proceed = (h.put pSys SYS.CLK_STAT_REF_SRC 0).startupAt 4 := by
  simp [Hub.proceed, hmode, hstep, hcore, hrst, href]

/-- Without it, it goes on with the 156.25 MHz reference once the wait for the first one is over (R105). -/
theorem Hub.proceed_ref156 (h : Hub) (hmode : h.mode = .waking) (hstep : h.sys.startup = 3) (hcore : h.corePresent = true) (hrst : h.sys.rstLow = false)
    (hno : h.get pSys SYS.CLK_STAT_REF25 = 0) (hlate : h.sys.refLate = true) (href : h.on pSys SYS.CLK_STAT_REF156 = true) :
    h.proceed = ((h.put pSys SYS.CLK_STAT_REF_SRC 1).startupAt 4).raiseRef25 := by
  have hoff : h.on pSys SYS.CLK_STAT_REF25 = false := by simp [Hub.on, hno]
  simp [Hub.proceed, hmode, hstep, hcore, hrst, hoff, hlate, href]

/-- The supplies and the mode are shown in other fields than the references. -/
theorem Hub.startup_putRef25 (h : Hub) (v : Nat) :
    (h.put pSys SYS.CLK_STAT_REF25 v).mode = h.mode ∧ (h.put pSys SYS.CLK_STAT_REF25 v).corePresent = h.corePresent := by
  have hget (f : Fld) (hf : SYS.CLK_STAT_REF25.on pSys ≠ f.on pSys) : (h.put pSys SYS.CLK_STAT_REF25 v).get pSys f = h.get pSys f :=
    Hub.get_put_other _ _ _ _ _ _ hf
  refine ⟨congrArg Mode.ofCode (hget _ (by decide)), ?_⟩
  simp only [Hub.corePresent, List.all_cons, List.all_nil, Hub.present, hget SYS.SUPPLY_STAT_DOM (by decide)]

/-- Settles O4: each event finds the mode, the supply or the reference that it asks for. -/
theorem modeEventsComplete : Obligations.ModeEventsComplete := by
  refine ⟨?_, ?_, ?_, ?_, ?_, ?_, ?_, ?_, ?_, ?_, ?_, ?_, ?_, ?_, ?_, ?_, ?_, ?_, ?_, ?_, ?_, ?_⟩
  · intro s hawake hunmet hinstant hmode hfence
    exact run_ends s _ _ hawake (by simp [hunmet, hinstant, hmode, hfence])
  · intro s hawake hunmet hinstant hmode hfence
    exact run_ends s _ _ hawake (by simp [hunmet, hinstant, hmode, hfence])
  · intro s hawake hmode
    exact run_ends s _ _ hawake (if_pos hmode)
  · intro s hawake hlost hmode
    exact run_ends s _ _ hawake (if_pos ⟨hlost, hmode.imp_right .inl⟩)
  · intro s hawake hmode hjoined hvalid hrejoined hsamples hfence
    refine run_ends s _ _ hawake ((if_pos ⟨hmode, hjoined, hvalid, hrejoined, hsamples⟩).trans ?_)
    rw [hfence]
    rfl
  · intro s domain millivolts hpresent
    exact next_ends s (by simp [hpresent])
  · intro s domain hpresent
    exact next_ends s (if_pos hpresent)
  · intro s ioSel
    rfl
  · intro s event hmode hqualifies henabled
    exact next_ends s (by simp [hmode, Hub.wake, hqualifies, henabled])
  · intro s hpowered hmode hstep hcore
    exact runPowered_gives s _ _ hpowered (if_pos ⟨hmode, hstep, hcore⟩)
  · intro s is25 hpowered his25 hmode hstep hcore hrst
    obtain ⟨hputmode, hputcore⟩ := s.found.startup_putRef25 1
    refine runPowered_gives s _ _ hpowered ((if_pos his25).trans ?_)
    exact Hub.proceed_ref25 _ (hputmode.trans hmode) hstep (hputcore.trans hcore) hrst (by rw [Hub.on, Hub.get_put_same]; rfl)
  · intro s is25 hpowered his25  -- referenceValid
    exact runPowered_gives s _ _ hpowered (by simp [his25])
  · intro s cellarN bootsel ioSel hostsel hpowered hmode hstartup hcorePresent  -- corePllLock
    exact runPowered_gives s _ _ hpowered (if_pos ⟨hmode, hstartup, hcorePresent⟩)
  · intro s hpowered hclkStatRef25 hclkStatRef156  -- ref25Lost
    exact runPowered_gives s _ _ hpowered (by simp [hclkStatRef25, hclkStatRef156])
  · intro s hpowered hclkStatRef25 hclkStatRef156  -- corePllSwitchover
    exact runPowered_gives s _ _ hpowered (by simp [hclkStatRef25, hclkStatRef156])
  · intro s hpowered hclkStatRef156 hclkStatRef25  -- ref156Lost
    exact runPowered_gives s _ _ hpowered (by simp [hclkStatRef156, hclkStatRef25])
  · intro s hpowered hmode  -- clockLoss
    exact runPowered_gives s _ _ hpowered rfl
  · intro s pll hawake hclkStatRefSrc hpll  -- pllUnlock
    exact run_ends s _ _ hawake (by simp [hclkStatRefSrc, hpll])
  · intro s hmode  -- rstN
    exact next_ends s (if_neg hmode)
  · intro s hawake  -- perstN
    exact run_ends s _ _ hawake rfl
  · intro s hpowered hmode hstartup hcorePresent hrstLow hclkStatRef25 hclkStatRef156  -- referenceWaitLimit
    refine runPowered_gives s _ _ hpowered ((if_pos ⟨hmode, hstartup⟩).trans ?_)
    exact Hub.proceed_ref156 { s.found with sys := { s.found.sys with refLate := true } } hmode hstartup hcorePresent hrstLow hclkStatRef25 rfl
      hclkStatRef156
  · intro s hmode hstartup hcorePresent hclkStatRef25  -- rstNRelease
    have hrelease := Hub.proceed_ref25 { s.found with sys := { s.found.sys with rstLow := false } } hmode hstartup hcorePresent rfl hclkStatRef25
    exact next_ends s hrelease

/-! ### Gates -/

/-- Settles O5: an access that is let through is carried out; a group is gated or ungated where its request still holds. -/
theorem gateCommandsComplete : Obligations.GateCommandsComplete := by
  refine ⟨?_, ?_, ?_, ?_⟩
  · intro s req value hawake hadm  -- gateReq
    exact run_wrote s hawake hadm rfl rfl
  · intro s req value hawake hadm hreq  -- gateHold
    exact run_wrote s hawake hadm rfl (if_pos hreq)
  · intro s group hawake hgroup hgateWanted hgateHeld hgateUnitsIdle  -- gateTakeEffect
    exact run_ends s _ _ hawake (if_pos ⟨hgroup, hgateWanted, hgateHeld, hgateUnitsIdle⟩)
  · intro s group hawake hcontains  -- ungateComplete
    exact run_ends s _ _ hawake (if_pos hcontains)

/-! ### The ring links -/

/-- Settles O6: each frame or link event meets its port in the state that it asks for. -/
theorem ringReceptionCompletes : Obligations.RingReceptionCompletes := by
  refine ⟨?_, ?_, ?_, ?_, ?_, ?_, ?_, ?_, ?_, ?_, ?_, ?_, ?_, ?_, ?_, ?_, ?_, ?_, ?_, ?_, ?_, ?_, ?_, ?_, ?_, ?_, ?_, ?_, ?_, ?_, ?_, ?_⟩
  · intro s port stamp cut bad own mark hawake hport  -- transmitFrame
    exact run_ends s _ _ hawake (by simp only [hport, if_true])
  · intro s port stamp cut bad own mark e hawake hport hetherFree hown hnextXt hbad htakeLocal  -- transmitFrame
    refine run_ends s _ _ hawake ?_
    obtain ⟨q, hq⟩ := Option.ne_none_iff_exists'.1 hnextXt
    simp [hport, Hub.transmitEther, hetherFree, hown, hq, Hub.transmitLocal, htakeLocal, hbad]
  · intro s port stamp cut bad own mark hawake hport hetherFree hetherOpen hown  -- transmitFrame
    exact run_ends s _ _ hawake (by simp [Hub.transmitEther, hport, hetherFree, hetherOpen, hown])
  · intro s port stamp cut bad own mark e hawake habove hport htakeLocal hbad  -- transmitFrame
    have hring : ¬ port < 2 := by omega
    have hbeyond : ¬ 8 ≤ port := by omega
    have hether : port ≠ 2 := by omega
    exact run_ends s _ _ hawake (by simp [hring, hbeyond, hether, Hub.transmitLocal, htakeLocal, hbad])
  · intro s port stamp sd lane4 body c hawake hport hlink hlane4 hsdOf hunspoilt  -- transitFrame
    exact run_ends s _ _ hawake (by simp [Hub.takeSpoil, hport, hlink, hlane4, hsdOf, hunspoilt])
  · intro s port stamp sd lane4 body hawake hport hlink hlane4  -- transitFrame
    exact run_ends s _ _ hawake (by simp [hport, hlink, hlane4])
  · intro s port sd body m o hawake hport hlink hsdOf hrxOpen hunspoilt hnext  -- bulkFragment
    exact run_ends s _ _ hawake (by simp [hport, hlink, hsdOf, hrxOpen, hunspoilt, hnext])
  · intro s port sd body m hawake hport hlink hsdOf hrxOpen  -- bulkFragment
    exact run_ends s _ _ hawake (by simp [hport, hlink, hsdOf, hrxOpen])
  · intro s port los hawake hport hnoteLos hnoteLos2 hnoteLos3  -- receiveEnergy
    exact run_ends s _ _ hawake (by simp [hport, hnoteLos, hnoteLos2, hnoteLos3])
  · intro s port hawake hlink hcfgRate  -- autoDwell
    exact run_ends s _ _ hawake (by simp [hlink, hcfgRate])
  · intro s port hawake hlink hringWorks  -- blockLock
    refine run_ends s _ _ hawake ?_
    simp only [hringWorks, hlink, Bool.true_eq_false, if_false, if_true]
    rfl
  · intro s port hawake hlink hringWorks  -- blockLock
    refine run_ends s _ _ hawake ?_
    simp only [hringWorks, hlink, Bool.true_eq_false, if_false, if_true]
    rfl
  · intro s port hawake hlink  -- lockingTimeout
    exact run_ends s _ _ hawake (by simp only [hlink, if_true])
  · intro s port hawake hlink  -- helloSend
    exact run_ends s _ _ hawake (by simp only [hlink, if_true])
  · intro s port frame hawake hlink hrefusal hhellos hbitOf  -- hello
    exact run_ends s _ _ hawake (by simp [hlink, hrefusal, hhellos, hbitOf])
  · intro s port frame hawake hlink hnotePeer  -- hello
    exact run_ends s _ _ hawake (by simp [hlink, hnotePeer])
  · intro s port hawake hlink  -- helloTimeout
    exact run_ends s _ _ hawake (by simp only [hlink, if_true])
  · intro s port los symbols hawake hport hnoteLos  -- lossOfLock
    exact run_ends s _ _ hawake (by simp [hport, hnoteLos])
  · intro s port symbols hawake hport hcountSymbols hstatHiBer  -- hiBer
    exact run_ends s _ _ hawake (by simp [hport, hcountSymbols, hstatHiBer])
  · intro s port hawake hlink  -- settlingTimeout
    exact run_ends s _ _ hawake (by simp only [hlink, if_true])
  · intro s port hawake hlink  -- downHoldEnd
    exact run_ends s _ _ hawake (by simp only [hlink, if_true])
  · intro s port queue e q hawake hport hqueue hlink hgetD hcfgBulkHold  -- bulkHold
    refine run_ends s _ _ hawake ?_
    simp only [hgetD]
    exact if_pos ⟨hport, hqueue, hlink, hcfgBulkHold⟩
  · intro s port high hawake hport hhigh  -- txFault
    have hring : ¬ port ≥ 2 := by omega
    have hno : (s.found.put (pRport port) RPORT.STAT_SFP_TXFAULT 0).txFaulty port = false := by
      rw [Hub.txFaulty, Hub.on, Hub.get_put_same, Bool.and_comm]
      rfl
    exact run_ends s _ _ hawake (by simp [hring, hhigh, Hub.txFault, flag, hno])
  · intro s port high hawake hport hstatSfpTxfault hhigh hstatSfpTxfault2  -- txFault
    have hring : ¬ port ≥ 2 := by omega
    have hfault : (s.found.put (pRport port) RPORT.STAT_SFP_TXFAULT 1).txFaulty port = true := by
      rw [Hub.txFaulty, hstatSfpTxfault, Hub.on, Hub.get_put_same]
      rfl
    exact run_ends s _ _ hawake (by simp [hring, hhigh, Hub.txFault, flag, hfault, hstatSfpTxfault2])
  · intro s port absent acknowledged a0 hawake hport habsent hcfgSfpMgmt  -- modAbs
    have hring : ¬ port ≥ 2 := by omega
    subst habsent
    exact run_ends s _ _ hawake ((if_neg hring).trans (if_neg fun hoff => absurd (hcfgSfpMgmt.symm.trans hoff) (by decide)))
  · intro s port absent acknowledged a0 hawake hport habsent hstatSfpPresent hacknowledged  -- modAbs
    have hring : ¬ port ≥ 2 := by omega
    subst habsent
    subst hacknowledged
    exact run_ends s _ _ hawake ((if_neg hring).trans (if_neg fun hoff => absurd (hstatSfpPresent.symm.trans hoff) (by decide)))
  · intro s port acknowledged a2 hawake hport hmodulePresent hbitOf hacknowledged  -- sfpA2Read
    exact run_ends s _ _ hawake (by simp [hport, hmodulePresent, hbitOf, hacknowledged])
  · intro s port hawake hport hlink  -- keepAliveSend
    exact run_ends s _ _ hawake (by simp [hport, hlink])
  · intro s port frame hawake hport hlink hbitOf  -- keepAlive
    exact run_ends s _ _ hawake (by simp [hport, hlink, hbitOf])
  · intro s port frame hawake hport hlink hbitOf  -- keepAlive
    exact run_ends s _ _ hawake (by simp [hport, hlink, hbitOf])
  · intro s port hawake hlink  -- keepAliveLoss
    exact run_ends s _ _ hawake (by simp only [hlink, if_true])
  · intro s port hawake hport hclkStatRef156  -- serdesPllUnlock
    exact run_ends s _ _ hawake (by simp [hport, hclkStatRef156])

/-! ### Node IDs, announcements and heals -/

/-- Settles O7: each announcement is a valid one of its kind; the other events find the node in the state that they ask for. -/
theorem topologyEventsComplete : Obligations.TopologyEventsComplete := by
  refine ⟨?_, ?_, ?_, ?_, ?_, ?_, ?_, ?_, ?_, ?_, ?_, ?_, ?_, ?_⟩
  · intro s id hawake hstatIdState hnumberless hcandidate  -- idAssign
    refine run_ends s _ _ hawake ((if_neg hstatIdState).trans ?_)
    simp only [Hub.assignId, hnumberless, hcandidate, if_true]
  · intro s hawake hnumberless hforwards hownSeedOnly hownSeedOnly2  -- seed
    exact run_ends s _ _ hawake (by simp [hnumberless, hforwards, hownSeedOnly, hownSeedOnly2])
  · intro s id hawake hstatIdState hnumberless hcandidate  -- idRetake
    exact run_ends s _ _ hawake (by simp only [Hub.assignId, hstatIdState, hnumberless, hcandidate, if_true])
  · intro s hawake  -- presentSend
    exact run_ends s _ _ hawake rfl
  · intro s port frame hawake hport htype hfield hsrcPos hsrcMax hsrcOther  -- join
    exact run_ends s _ _ hawake (by simp [Hub.onAnnouncement, hport, htype, hfield, hsrcPos, hsrcMax, hsrcOther])
  · intro s port frame hawake hport htype hfield hsrcPos hsrcMax hsrcOther  -- present
    exact run_ends s _ _ hawake (by simp [Hub.onAnnouncement, hport, htype, hfield, hsrcPos, hsrcMax, hsrcOther])
  · intro s port frame hawake hport htype hfield hsrcPos hsrcMax hsrcOther  -- leave
    exact run_ends s _ _ hawake (by simp [Hub.onAnnouncement, hport, htype, hfield, hsrcPos, hsrcMax, hsrcOther])
  · intro s port frame hawake hport htype hfield hsrcPos hsrcMax hsrcOther hnamedPort  -- breakAnnouncement
    exact run_ends s _ _ hawake (by simp [Hub.onAnnouncement, hport, htype, hfield, hsrcPos, hsrcMax, hsrcOther, hnamedPort])
  · intro s port frame hawake hport htype hfield hsrcPos hsrcMax hsrcOther heventsHeals  -- heal
    exact run_ends s _ _ hawake (by simp [Hub.onAnnouncement, hport, htype, hfield, hsrcPos, hsrcMax, hsrcOther, heventsHeals])
  · intro s id port m hawake hmember hport  -- hopsExpire
    exact run_ends s _ _ hawake (by simp only [hmember, hport, if_true])
  · intro s port hawake hport hlink hportOpen hpeerStays hfind hfenced  -- linkStable
    exact run_ends s _ _ hawake (if_pos ⟨hport, hlink, hportOpen, hpeerStays, hfind, hfenced⟩)
  · intro s sender port hawake hsender hfind hlink hfenced  -- healInstant
    exact run_ends s _ _ hawake ((if_pos hsender).trans (if_pos ⟨hfind, hlink, hfenced⟩))
  · intro s flow hawake  -- steerHold
    exact run_ends s _ _ hawake rfl
  · intro s req value hawake hadm  -- wake
    exact run_wrote s hawake hadm rfl rfl

end Sys2Proof.Machine
end

section
/-!
PROOFS. The completion statements of ring time, the tracks, the Atrium engine, the bridge and the switch.
-/
namespace Sys2Proof.Machine

open Reg

/-! ### Ring time -/

/-- Settles O8: each event finds the state of ring time that it asks for. -/
theorem ringTimeCommandsComplete : Obligations.RingTimeCommandsComplete := by
  refine ⟨?_, ?_, ?_, ?_, ?_, ?_, ?_, ?_, ?_, ?_, ?_, ?_, ?_, ?_⟩
  · intro s port hawake hport hlink  -- neighbourDelayRequestSend
    exact run_ends s _ _ hawake (by simp [hport, hlink])
  · intro s port stamp frame hawake hport hlink  -- neighbourDelayRequest
    exact run_ends s _ _ hawake (if_pos ⟨hport, hlink⟩)
  · intro s port stamp frame id t1 hawake hwaiting hport hlink hfield  -- neighbourDelayResponse
    exact run_ends s _ _ hawake (by simp [hwaiting, hport, hlink, hfield])
  · intro s port x hawake hport  -- pdLost
    exact run_ends s _ _ hawake (by simp only [hport])
  · intro s hawake htimeState  -- syncSend
    exact run_ends s _ _ hawake (by simp only [htimeState, if_true])
  · intro s port stamp frame d hawake hdIn hpllHeld hignoresRank  -- timeSync
    exact run_ends s _ _ hawake (by simp [hdIn, hpllHeld, hignoresRank])
  · intro s port stamp frame hawake hdIn  -- timeSync
    exact run_ends s _ _ hawake (by simp only [hdIn])
  · intro s hawake htimeState  -- syncTo
    exact run_ends s _ _ hawake (by simp only [htimeState])
  · intro s hawake htimeState  -- syncTo
    rcases htimeState with htime | htime
    · exact run_ends s _ _ hawake (by simp only [htime])
    · exact run_ends s _ _ hawake (by simp only [htime])
  · intro s hawake htimeCandidate htimeState  -- masterClaim
    exact run_ends s _ _ hawake (by simp [htimeCandidate, htimeState])
  · intro s hawake htimeState htimeState2  -- holdValid
    exact run_ends s _ _ hawake (by simp [htimeState, htimeState2])
  · intro s hawake hmainInUse  -- fallBackLoad
    exact run_ends s _ _ hawake (by simp only [hmainInUse, if_true])
  · intro s req hawake hadm  -- nowLo
    exact run_told s hawake hadm rfl rfl
  · intro s req value hawake hadm hfbIncOk  -- fbInc
    exact run_wrote_ok s hawake hadm rfl (if_pos hfbIncOk)

/-! ### Tracks -/

/-- Settles O9: each event finds its track in the state that it asks for. -/
theorem trackCommandsComplete : Obligations.TrackCommandsComplete := by
  refine ⟨?_, ?_, ?_, ?_, ?_, ?_, ?_, ?_, ?_, ?_, ?_, ?_, ?_⟩
  · intro s track hawake htrack hsourceRuns hsampleDue htrack2 hsrcCfgType  -- sampleInstant
    refine run_ends s _ _ hawake ((if_pos ⟨htrack, hsourceRuns, hsampleDue, by simp only [htrack2, Bool.not_false]⟩).trans ?_)
    unfold Hub.gridNoted at hsrcCfgType ⊢
    simp only [hsrcCfgType]
  · intro s track hawake htrack hsourceRuns hsampleDue htrack2 hsrcCfgType  -- sampleInstant
    refine run_ends s _ _ hawake ((if_pos ⟨htrack, hsourceRuns, hsampleDue, by simp only [htrack2, Bool.not_false]⟩).trans ?_)
    unfold Hub.gridNoted at hsrcCfgType ⊢
    simp only [hsrcCfgType]
  · intro s frame hawake  -- trackSample
    exact run_ends s _ _ hawake rfl
  · intro s track smp hawake htrack hhead htrackState  -- conversionPass
    have hno : s.found.passConverts track = false := by simp only [Hub.passConverts, htrackState]
    refine run_ends s _ _ hawake ?_
    simp only [htrack, hhead, hno, ne_eq, not_true_eq_false, Bool.false_eq_true, if_false]
    rfl
  · intro s track smp hawake htrack hhead hpassConverts  -- conversionPass
    refine run_ends s _ _ hawake ?_
    simp only [htrack, hhead, hpassConverts, ne_eq, not_true_eq_false, if_false, if_true]
    rfl
  · intro s owner number e smp hawake hfind hconversionSample  -- conversion
    exact run_ends s _ _ hawake (by simp only [hfind, hconversionSample])
  · intro s track a hawake htrackAge htrackState hageLim  -- ageLim
    exact run_ends s _ _ hawake (by simp [htrackAge, htrackState, hageLim])
  · intro s track hawake htrackState hbeyondLim2  -- ageLim2
    exact run_ends s _ _ hawake (by simp [htrackState, hbeyondLim2])
  · intro s req track value hawake hadm hkey hbitOf hisSource  -- presetCmd
    exact run_wrote s hawake hadm rfl (if_pos ⟨hkey, hbitOf, hisSource⟩)
  · intro s req track mask hawake hadm  -- statsClr
    exact run_wrote s hawake hadm rfl rfl
  · intro s track profile x hawake hfind hfeedbackWindow  -- fbMiss
    exact run_ends s _ _ hawake (by simp [hfind, hfeedbackWindow])
  · intro s req track hawake hadm  -- smpTsLo
    exact run_told s hawake hadm rfl rfl
  · intro s req track hawake hadm  -- nowPosLo
    exact run_told s hawake hadm rfl rfl

/-! ### The Atrium engine -/

/-- Settles O10: the instants and frames that the engine takes, and its accesses. -/
theorem atriumCommandsComplete : Obligations.AtriumCommandsComplete := by
  refine ⟨?_, ?_, ?_, ?_, ?_, ?_, ?_, ?_⟩
  · intro s epoch hawake hfromTransparent hmayOpen hatrOn  -- samplingInstant
    refine run_ends s _ _ hawake ?_
    simp only [hfromTransparent, hmayOpen, hatrOn, Bool.not_true, Bool.or_self, Bool.false_eq_true, if_false, if_true]
    rfl
  · intro s epoch hawake hfromTransparent hmayOpen hatrOn  -- samplingInstant
    refine run_ends s _ _ hawake ?_
    simp only [hfromTransparent, hmayOpen, hatrOn, Bool.not_true, Bool.or_self, Bool.false_eq_true, if_false]
    rfl
  · intro s n hawake hopen hcloseTick hatrOn hfenced hsampled  -- closeInstant
    refine run_ends s _ _ hawake ?_
    simp only [hopen, Hub.closeOpen, hatrOn, hfenced, hsampled, Bool.not_false, Bool.and_self, if_true]
    exact if_neg (by omega)
  · intro s frame hawake hatrOn hfenced hjudgeSlot hmodeEff  -- atriumSlot
    exact run_ends s _ _ hawake (by simp [hatrOn, hfenced, hjudgeSlot, hmodeEff])
  · intro s frame hawake hatrOn hfenced hjudgeSlot  -- atriumSlot
    exact run_ends s _ _ hawake (by simp [hatrOn, hfenced, hjudgeSlot])
  · intro s req hawake hadm  -- ready
    exact run_wrote s hawake hadm rfl rfl
  · intro s req offset size value hawake hsize hoffset hoffset2 hwriteShadow  -- publishBufferWrite
    exact run_ends s _ _ hawake (by simp [hsize, hoffset, hoffset2, hwriteShadow])
  · intro s req hawake hadm  -- epochLo
    exact run_told s hawake hadm rfl rfl

/-! ### The bridge -/

/-- Settles O11: each message is of the kind that the bridge takes. -/
theorem bridgeCommandsComplete : Obligations.BridgeCommandsComplete := by
  refine ⟨?_, ?_, ?_, ?_, ?_, ?_, ?_, ?_, ?_, ?_, ?_, ?_, ?_, ?_, ?_⟩
  · intro s req n window node bulk addr acc data x hawake hrequesterUp haccessOf  -- remoteWriteIssue
    exact run_ends s _ _ hawake (by simp [hrequesterUp, haccessOf])
  · intro s req n window node bulk addr acc len x hawake hrequesterUp haccessOf  -- remoteReadIssue
    exact run_ends s _ _ hawake (by simp [hrequesterUp, haccessOf])
  · intro s frame hawake htype  -- remoteWrite
    exact run_ends s _ _ hawake (by simp only [htype, if_true])
  · intro s frame uncorr hawake htype  -- remoteReadRequest
    exact run_ends s _ _ hawake (by simp only [htype, if_true])
  · intro s frame hawake htype hfenced hmatchedRead  -- readResponse
    exact run_ends s _ _ hawake (by simp [htype, hfenced, hmatchedRead])
  · intro s frame i x hawake htype hfenced hmatchedRead hfield hfield2  -- readResponse
    exact run_ends s _ _ hawake (by simp [htype, hfenced, hmatchedRead, hfield, hfield2])
  · intro s slot x hawake hslot  -- rdTo
    exact run_ends s _ _ hawake (by simp only [hslot])
  · intro s slot hawake  -- tagSlotRelease
    exact run_ends s _ _ hawake rfl
  · intro s entry hawake hentry hirqOutSrcSw hirqOutSrcPage  -- interruptMessageSend
    exact run_ends s _ _ hawake (if_pos ⟨hentry, hirqOutSrcSw, hirqOutSrcPage⟩)
  · intro s req value hawake hadm  -- irqSend
    exact run_wrote s hawake hadm rfl rfl
  · intro s port frame hawake htype hfenced hcls  -- interruptMessage
    exact run_ends s _ _ hawake (by simp [htype, hfenced, hcls])
  · intro s src seq e hawake hheldMessage hotherCaughtUp  -- irqHeldRelease
    exact run_ends s _ _ hawake (by simp only [hheldMessage, hotherCaughtUp, if_true])
  · intro s src seq e hawake hheldMessage  -- irqHold
    exact run_ends s _ _ hawake (by simp only [hheldMessage])
  · intro s frame e hawake htype hfenced hroutedLenOk hrange  -- routedMessage
    exact run_ends s _ _ hawake (by simp [htype, hfenced, hroutedLenOk, hrange])
  · intro s entry hawake hentry hgetD hirqOutOn hfenced  -- mergedInterruptMessage
    have hlast : ¬ entry ≥ 32 := by omega
    exact run_ends s _ _ hawake ((if_neg hlast).trans (if_pos ⟨hgetD, hirqOutOn, hfenced⟩))

/-! ### The switch -/

/-- Settles O12: each arrival or event meets what its branch asks for. -/
theorem switchCommandsComplete : Obligations.SwitchCommandsComplete := by
  refine ⟨?_, ?_, ?_, ?_, ?_, ?_, ?_, ?_, ?_, ?_, ?_, ?_, ?_, ?_⟩
  · intro s a q hawake hbulk  -- bulkAdmission
    exact run_ends s _ _ hawake (by simp only [hbulk])
  · intro s a q hawake htaps hold hsetSw  -- expressAdmission
    refine run_ends s _ _ hawake ?_
    simp only [htaps, Hub.underPrior, hold, Bool.false_eq_true, if_false]
    exact if_pos hsetSw
  · intro s a q hawake htaps hold hsetSw hegress hsetSw2  -- expressAdmission
    have hopen : ¬ (a.egress = 2 ∧ (s.found.setSw (fun x => { x with taps := q })).etherOpen = false) := by
      rintro ⟨hport, hshut⟩
      exact hegress.elim (absurd hport) fun hup => absurd (hshut.symm.trans hup) (by decide)
    refine run_ends s _ _ hawake ?_
    simp only [htaps, Hub.underPrior, hold, Bool.false_eq_true, if_false]
    exact (if_neg (by rw [hsetSw]; decide)).trans ((if_neg hopen).trans (if_neg (by omega)))
  · intro s flow p hawake hfind hlensCfgPinAge  -- pinAge
    exact run_ends s _ _ hawake (by simp only [hfind, hlensCfgPinAge, if_true])
  · intro s hawake  -- lensEpoch
    exact run_ends s _ _ hawake rfl
  · intro s passed mr4 hawake hstatState hpassed  -- trainingEnd
    exact run_ends s _ _ hawake (by simp [hstatState, hpassed])
  · intro s passed mr4 hawake hstatState hpassed  -- trainingEnd
    exact run_ends s _ _ hawake (by simp [hstatState, hpassed])
  · intro s req hawake hadm  -- qdDepth
    exact run_told s hawake hadm rfl rfl
  · intro s hawake hrefilled  -- tokenRefill
    exact run_ends s _ _ hawake (if_neg hrefilled)
  · intro s hawake  -- dramTimeout
    exact run_ends s _ _ hawake rfl
  · intro s frame hawake htype hpscRxEn  -- mirrorCopy
    exact run_ends s _ _ hawake (by simp [htype, hpscRxEn])
  · intro s frame hawake htype hpscRxEn  -- mirrorCopy
    exact run_ends s _ _ hawake (by simp [htype, hpscRxEn])
  · intro s frame buffers cut hawake htype hmin hfield hlen htunRxEn  -- tunnelledEthernetFrame
    exact run_ends s _ _ hawake (by simp [htype, hmin, hfield, hlen, htunRxEn])
  · intro s frame buffers cut hawake htype hfield  -- tunnelledEthernetFrame
    exact run_ends s _ _ hawake (by simp [htype, hfield])

end Sys2Proof.Machine
end

section
/-!
PROOFS. The completion statements of the channels, the serial and CAN controllers, and the registers of the Prism engines.
-/
namespace Sys2Proof.Machine

open Reg

/-! ### Channels -/

/-- Settles O13: each edge, access or instant meets what its branch asks for. -/
theorem channelCommandsComplete : Obligations.ChannelCommandsComplete := by
  refine ⟨?_, ?_, ?_, ?_, ?_, ?_, ?_, ?_, ?_, ?_, ?_, ?_, ?_, ?_, ?_, ?_, ?_, ?_, ?_, ?_, ?_⟩
  · intro s channel level hawake hchannel hfilterDone hfollow hraw hfilt  -- rawEdge
    have hmain : ¬ 128 ≤ channel := by omega
    refine run_ends s _ _ hawake ((if_neg hmain).trans ?_)
    unfold Hub.balled at hfilterDone hfollow hraw hfilt ⊢
    simp only [hfilterDone, hfollow, beq_eq_false_iff_ne.2 hraw.symm, hfilt.symm, Bool.not_true, Bool.or_self, Bool.false_eq_true, if_false]
  · intro s channel level hawake hchannel hfollow  -- rawEdge
    have hmain : ¬ 128 ≤ channel := by omega
    refine run_ends s _ _ hawake ((if_neg hmain).trans ?_)
    unfold Hub.balled at hfollow ⊢
    simp only [hfollow, Bool.not_false, Bool.true_or, if_true]
  · intro s channel withPair hawake hwithPair hfilterDone  -- filteredEdge
    exact run_ends s _ _ hawake (by simp [hwithPair, hfilterDone])
  · intro s req channel level hawake hadm hmodeEff hchMode  -- outLevel
    exact run_wrote_ok s hawake hadm rfl ((if_neg hmodeEff).trans (if_pos hchMode))
  · intro s req channel duty hawake hadm hmodeEff hchMode  -- outDuty
    have hpulse : s.found.chMode channel ≠ 1 := by omega
    exact run_wrote_ok s hawake hadm rfl ((if_neg hmodeEff).trans ((if_neg hpulse).trans (if_pos hchMode)))
  · intro s req channel tag hawake hadm hpushEntry  -- qE3
    exact run_wrote_ok s hawake hadm rfl (Prod.ext rfl hpushEntry)
  · intro s channel e i hawake hdueEntry hmodeEff hpos  -- queueEntryFire
    exact run_ends s _ _ hawake (by simp [hdueEntry, hmodeEff, hpos])
  · intro s channel e i hawake hdueEntry hmodeEff  -- queueEntryFire
    exact run_ends s _ _ hawake (by simp only [hdueEntry, hmodeEff, if_true])
  · intro s channel src level i hawake hch hdue  -- pendingEnd
    exact run_ends s _ _ hawake (by simp only [hch, hdue, if_true])
  · intro s req channel hawake hadm  -- flush
    exact run_wrote s hawake hadm rfl rfl
  · intro s req channel hawake hadm  -- rearm
    exact run_wrote s hawake hadm rfl rfl
  · intro s req channel hawake hadm  -- capClr
    exact run_wrote s hawake hadm rfl rfl
  · intro s req channel n hawake hadm hn  -- capAck
    exact run_wrote_ok s hawake hadm rfl (if_pos hn)
  · intro s req channel value hawake hadm hchMode  -- cnt
    exact run_wrote_ok s hawake hadm rfl (by simp [Hub.writeCount, hchMode])
  · intro s req channel value hawake hadm hchMode hsourcePair  -- cnt
    exact run_wrote_ok s hawake hadm rfl (by simp [Hub.writeCount, hchMode, hsourcePair])
  · intro s req channel hawake hadm  -- capLo
    exact run_told s hawake hadm rfl rfl
  · intro s req channel hawake hadm  -- fireInfo
    exact run_told s hawake hadm rfl rfl
  · intro s channel hawake hchannel hreadBackRuns  -- readback
    exact run_ends s _ _ hawake (by simp [hchannel, hreadBackRuns])
  · intro s bank hawake hbank hbankReads hstatVmeas  -- supplyRange
    exact run_ends s _ _ hawake (if_pos ⟨hbank, hbankReads, by rw [hstatVmeas]; rfl⟩)
  · intro s bank millivolts hawake hbank  -- bankMeasurement
    exact run_ends s _ _ hawake (by simp only [hbank, if_true])
  · intro s channel d m hawake hch hchMode hpwmNumber  -- pwmPeriod
    exact run_ends s _ _ hawake (by simp [hch, hchMode, hpwmNumber])

/-! ### Serial controllers -/

/-- Settles O14: each character, frame or access meets what its branch asks for. -/
theorem serialCommandsComplete : Obligations.SerialCommandsComplete := by
  refine ⟨?_, ?_, ?_, ?_, ?_, ?_, ?_, ?_, ?_, ?_, ?_, ?_, ?_, ?_, ?_, ?_, ?_, ?_, ?_, ?_, ?_, ?_, ?_, ?_, ?_, ?_, ?_, ?_, ?_⟩
  · intro s req page off value hawake hturnedAway hpushPlace  -- txd
    exact run_ends s _ _ hawake (by simp only [hturnedAway, hpushPlace, if_true])
  · intro s page hawake hkindOf  -- stallTo
    exact run_ends s _ _ hawake (by simp only [hkindOf, if_true])
  · intro s page hawake hkindOf  -- stallTo
    exact run_ends s _ _ hawake (by simp [hkindOf])
  · intro s req page off hawake hadm hpopPlace  -- rxd
    refine run_ends s _ _ hawake ?_
    simp only [show s.found.readTurnedAway req page off 4 = none from hadm, hpopPlace, if_true]
  · intro s req page hawake hadm  -- txFlush
    exact run_wrote s hawake hadm rfl rfl
  · intro s req page hawake hadm  -- rxFlush
    exact run_wrote s hawake hadm rfl rfl
  · intro s req page hawake hadm  -- tsClr
    exact run_wrote s hawake hadm rfl rfl
  · intro s req page value hawake hadm hvalue  -- tsAck
    exact run_wrote_ok s hawake hadm rfl (by simp [Hub.writeTsAck, hvalue])
  · intro s page hawake hser hfifoCfgRxTo  -- rxTo
    exact run_ends s _ _ hawake (if_pos ⟨hser, hfifoCfgRxTo⟩)
  · intro s unit rx ago old hawake  -- uartCharacterReceive
    exact run_ends s _ _ hawake rfl
  · intro s unit hawake hruns hserHeld hframeFlow  -- uartCharacterTransmit
    exact run_ends s _ _ hawake (by simp [hruns, hserHeld, hframeFlow])
  · intro s unit hawake hruns  -- messageEnd
    exact run_ends s _ _ hawake (by simp only [hruns, if_true])
  · intro s req unit value hawake hadm  -- wakeIol
    exact run_wrote s hawake hadm rfl rfl
  · intro s unit hawake hser  -- respTo
    exact run_ends s _ _ hawake (by simp only [hser, if_true])
  · intro s req unit value hawake hturnedAway  -- frame
    exact run_ends s _ _ hawake (by simp only [hturnedAway])
  · intro s unit data old hawake hworks hclkRole  -- spiWord
    exact run_ends s _ _ hawake (by simp [hworks, hclkRole])
  · intro s unit partWord hawake hclkRole hstatFrameOpen hpartWord  -- csDeassert
    exact run_ends s _ _ hawake (by simp [Hub.endSelection, hclkRole, hstatFrameOpen, hpartWord])
  · intro s unit partWord hawake hclkRole hstatFrameOpen hpartWord  -- csDeassert
    exact run_ends s _ _ hawake (by simp [Hub.endSelection, hclkRole, hstatFrameOpen, hpartWord])
  · intro s req unit value hawake hadm  -- ssiCtlRead
    exact run_wrote s hawake hadm rfl rfl
  · intro s unit raw first last k hawake hworks hclkRole hhears hssiTrack hendSsi hsrcCfgSsiBits hendSsi2  -- ssiReadEnd
    exact run_ends s _ _ hawake (by simp [hworks, hclkRole, hhears, hssiTrack, hendSsi, hsrcCfgSsiBits, hendSsi2])
  · intro s unit raw first last hawake hworks hclkRole hhears hssiTrack hser hendSsi hendSsi2  -- ssiReadEnd
    exact run_ends s _ _ hawake (by simp [hworks, hclkRole, hhears, hssiTrack, hser, hendSsi, hendSsi2])
  · intro s unit ack arb bytes ago e l hawake hworks hcfgRole hser hser2 hserHeld hser3  -- i2cTransmitEntry
    exact run_ends s _ _ hawake (by simp [hworks, hcfgRole, hser, hser2, hserHeld, hser3])
  · intro s unit hawake hser htimeoutStretchTo  -- stretchTo
    exact run_ends s _ _ hawake (if_pos ⟨hser, htimeoutStretchTo⟩)
  · intro s unit read ago hawake hslaveRuns hser hser2  -- ownAddressMatched
    exact run_ends s _ _ hawake (by simp [hslaveRuns, hser, hser2])
  · intro s unit nack hawake hslaveRuns hser hser2 hserHeld hnack  -- slvStretchMax
    exact run_ends s _ _ hawake (by simp [hslaveRuns, hser, hser2, hserHeld, hnack])
  · intro s unit hawake hser  -- iolStageTimer
    exact run_ends s _ _ hawake (by simp only [hser])
  · intro s unit ago hawake hruns hclkRole hhears  -- csAssert
    exact run_ends s _ _ hawake (by simp [hruns, hclkRole, hhears])
  · intro s unit data nack hawake hslaveRuns hser hser2 hser3  -- i2cSlaveByte
    exact run_ends s _ _ hawake (by simp [hslaveRuns, hser, hser2, hser3])
  · intro s unit hawake hstatAddressed  -- i2cBusStop
    exact run_ends s _ _ hawake (if_pos hstatAddressed)

/-! ### The registers and instants of the Prism engines -/

/-- A group command that is open, with its instant in range where it has one. -/
theorem run_group (s : State) (req : Req) (unit value cmd : Nat) (hawake : s.awake) (hadm : s.admits req (pPrs unit) 0x0A0)
    (hopen : s.found.groupOpen req value cmd) (hcmd : 0 < cmd ∧ cmd ≤ 5)
    (hahead : cmd = 2 ∨ cmd = 5 → 5000 ≤ s.found.groupAhead unit ∧ s.found.groupAhead unit ≤ 5000000000) :
    groupWrite req unit value cmd s = .next (s.wrote req ((s.found.groupMembers (slice (value / 16 * 16 + cmd) 8 8)).foldl
      (fun g e => g.groupDo cmd (s.found.groupInstant unit) e) s.found)) := by
  obtain ⟨hkey, hgroups, hmay, hheld⟩ := hopen
  have hlow : (value / 16 * 16 + cmd) % 16 = cmd := by omega
  have hword : ¬ (slice (value / 16 * 16 + cmd) 16 16 ≠ 0x47A1 ∨ cmd = 0 ∨ 5 < cmd ∨ slice (value / 16 * 16 + cmd) 8 8 = 0) := by
    simp only [hkey, hgroups, ne_eq, not_true_eq_false, or_false, false_or]
    omega
  have hlate : ¬ ((cmd = 2 ∨ cmd = 5) ∧ (s.found.groupAhead unit < 5000 ∨ 5000000000 < s.found.groupAhead unit)) := by
    rintro ⟨hat, hout⟩
    have := hahead hat
    omega
  refine run_wrote_ok s hawake hadm rfl ?_
  simp only [Hub.writeGroup, hlow, if_neg hword, hmay, Bool.false_eq_true, if_false, hheld, false_and]
  exact if_neg hlate

/-- Settles O15: each access is open, each instant has come. -/
theorem prismRegisterCommandsComplete : Obligations.PrismRegisterCommandsComplete := by
  refine ⟨?_, ?_, ?_, ?_, ?_, ?_, ?_, ?_, ?_, ?_, ?_, ?_, ?_, ?_, ?_, ?_, ?_, ?_, ?_, ?_, ?_, ?_, ?_⟩
  · intro s req unit hawake hadm hstartCheck  -- start
    exact run_wrote_ok s hawake hadm rfl (if_pos hstartCheck)
  · intro s req unit hawake hadm hprsState  -- stop
    exact run_wrote s hawake hadm rfl (if_pos hprsState)
  · intro s req unit hawake hadm  -- evtClr
    exact run_wrote s hawake hadm rfl rfl
  · intro s req unit value hawake hadm hgroupOpen  -- groupStart
    exact run_group s req unit value 1 hawake hadm hgroupOpen (by decide) fun hat => absurd hat (by decide)
  · intro s req unit value hawake hadm hgroupOpen hgroupMin hgroupAhead  -- startAt
    exact run_group s req unit value 2 hawake hadm hgroupOpen (by decide) fun _ => ⟨hgroupMin, hgroupAhead⟩
  · intro s unit hawake hprsState hdue  -- startInstant
    exact run_ends s _ _ hawake (by simp [hprsState, hdue])
  · intro s req unit value hawake hadm hgroupOpen  -- groupStop
    exact run_group s req unit value 3 hawake hadm hgroupOpen (by decide) fun hat => absurd hat (by decide)
  · intro s req unit value hawake hadm hgroupOpen  -- groupRestart
    exact run_group s req unit value 4 hawake hadm hgroupOpen (by decide) fun hat => absurd hat (by decide)
  · intro s req unit value hawake hadm hgroupOpen hgroupMin hgroupAhead  -- restartAt
    exact run_group s req unit value 5 hawake hadm hgroupOpen (by decide) fun _ => ⟨hgroupMin, hgroupAhead⟩
  · intro s req unit word value hawake hadm hword hloadable  -- programMemoryWrite
    subst hword
    exact run_wrote_ok s hawake hadm rfl (if_neg (by rw [hloadable]; decide))
  · intro s req unit word value i hawake hword hi hmemTurnedAway hloadable  -- programMemoryWrite
    exact run_ends s _ _ hawake (by simp [Hub.writeProgWord, hword, hi, hmemTurnedAway, hloadable])
  · intro s unit hawake hloadable  -- sumCalc
    exact run_ends s _ _ hawake (by simp only [hloadable, if_true])
  · intro s req unit index value hawake hadm hindex hloadable  -- w
    exact run_wrote_ok s hawake hadm rfl (by simp [hindex, hloadable])
  · intro s req unit off value hawake hturnedAway hoff  -- inq
    exact run_ends s _ _ hawake (by simp only [hturnedAway, hoff, if_true])
  · intro s req unit off v l hawake hreadTurnedAway hoff hchained heng  -- outq
    have hpop : s.found.popOut unit = some (v, s.found.setEng unit (fun x => { x with outq := l })) := by
      simp only [Hub.popOut, hchained, Bool.false_eq_true, if_false, heng]
    have hplace : ¬ (off ≠ 0x098 ∧ (!inWin 0xD00 off) = true) := by
      rintro ⟨hne, hout⟩
      exact hoff.elim hne fun hin => by simp [hin] at hout
    refine run_ends s _ _ hawake ?_
    simp only [hreadTurnedAway, hpop]
    exact if_neg hplace
  · intro s req unit hawake hadm  -- inFlush
    exact run_wrote s hawake hadm rfl rfl
  · intro s req unit hawake hadm hchained  -- outFlush
    have hin : bitOf 2 0 = false := by decide
    have hout : bitOf 2 1 = true := by decide
    exact run_wrote s hawake hadm rfl (by simp only [Hub.writeQctl, hin, hout, hchained, Bool.false_eq_true, if_false, if_true])
  · intro s req unit hawake hadm  -- stampLo
    exact run_told s hawake hadm rfl rfl
  · intro s unit hawake hexecuting hillegalAt  -- illegalInstruction
    exact run_ends s _ _ hawake (by simp [hexecuting, hillegalAt])
  · intro s unit slot x i hawake hfind hinstant hdue hmodeEff hpos  -- actionSlotFire
    refine run_ends s _ _ hawake ?_
    simp only [hfind, hinstant, hdue, Bool.not_true, Bool.false_eq_true, if_false, if_neg hmodeEff, hpos]
  · intro s unit n v got past hawake heng hticksOver  -- shiftEnd
    exact run_ends s _ _ hawake (by simp [heng, hticksOver])
  · intro s unit n v got past hawake heng hticksOver  -- shiftEnd
    exact run_ends s _ _ hawake (by simp [heng, hticksOver])
  · intro s unit pin l hawake hfind hpinReady  -- pinDeferEnd
    exact run_ends s _ _ hawake (by simp only [hfind, hpinReady, if_true])

/-! ### CAN -/

/-- A field at another offset or another bit keeps its value, whichever page is written. -/
theorem Hub.get_put_otherField (h : Hub) (p q : Nat) (f g : Fld) (v : Nat) (hf : f.off ≠ g.off ∨ f.lo ≠ g.lo) :
    (h.put p f v).get q g = h.get q g :=
  Hub.get_put_other _ _ _ _ _ _ fun hk => hf.elim (fun hne => hne (congrArg Key.off hk)) (fun hne => hne (congrArg Key.lo hk))

/-- Settles O19: each bus event finds its controller in the state that it asks for. -/
theorem canCommandsComplete : Obligations.CanCommandsComplete := by
  refine ⟨?_, ?_, ?_, ?_, ?_, ?_, ?_, ?_, ?_, ?_, ?_, ?_, ?_⟩
  · intro s req unit value hawake hadm hmodeEff hgoRefused hobjType  -- go
    exact run_wrote_ok s hawake hadm rfl (by simp [Hub.writeGo, hmodeEff, hgoRefused, hobjType])
  · intro s req unit value hawake hadm hmodeEff hgoRefused hobjType  -- go
    exact run_wrote_ok s hawake hadm rfl (by simp [Hub.writeGo, hmodeEff, hgoRefused, hobjType])
  · intro s req unit value hawake hadm hobjOwned hcan  -- canCancel
    exact run_wrote s hawake hadm rfl (by simp [Hub.writeCancel, hobjOwned, hcan])
  · intro s req unit value hawake hadm hobjOwned hcan hobjType  -- canCancel
    exact run_wrote s hawake hadm rfl (by simp [Hub.writeCancel, hobjOwned, hcan, hobjType])
  · intro s req unit value hawake hadm hbitOf hcanState  -- recover
    exact run_wrote s hawake hadm rfl (if_pos ⟨hbitOf, hcanState⟩)
  · intro s unit hawake hcanState hgated hcan  -- integratingEnd
    exact run_ends s _ _ hawake (by simp [hcanState, hgated, hcan])
  · intro s unit hawake hcanState hcan  -- busOffRecovery
    exact run_ends s _ _ hawake (by simp [hcanState, hcan])
  · intro s unit idle i hawake hidle hcanState hcfgListen hcan hchooseObject hstatTxBusy  -- transmitChoice
    subst hidle
    have hopen : ¬ ((s.found.canState unit ≠ 2 ∧ s.found.canState unit ≠ 3) ∨ s.found.canOn unit CAN.CFG_LISTEN = true ∨
        (s.found.can unit).sending ≠ none) := by
      simp only [hcfgListen, hcan, not_or, not_and_or, not_not]
      exact ⟨hcanState, by decide, trivial⟩
    refine run_ends s _ _ hawake ((if_neg hopen).trans ?_)
    simp only [Bool.false_eq_true, if_false, hchooseObject]
    exact if_neg (by rw [hstatTxBusy]; decide)
  · intro s unit ago delay i hawake hcan hmeasures  -- canTransmissionEnd
    refine run_ends s _ _ hawake ?_
    simp only [hcan, hmeasures, Bool.false_eq_true, if_false]
    rfl
  · intro s unit i hawake hcan  -- arbitrationLost
    refine run_ends s _ _ hawake ?_
    simp only [hcan]
    rfl
  · intro s unit eights delay i hawake hcan  -- transmissionError
    exact run_ends s _ _ hawake (by simp only [hcan])
  · intro s unit frame ago own hawake hcanReceives hown hfdf hstatRxBusy  -- canFrameReceive
    exact run_ends s _ _ hawake (by simp [hcanReceives, hown, hfdf, hstatRxBusy])
  · intro s unit first eights exception hawake hcanReceives hexception hcanState  -- receptionError
    subst hexception
    refine run_ends s _ _ hawake ((if_pos hcanReceives).trans ?_)
    have hstate : ((s.found.put (pCan unit) CAN.STAT_RX_BUSY 0).inc (pCan unit) CAN.RX_ERR_COUNT).canState unit = s.found.canState unit :=
      (Hub.get_put_otherField _ _ _ _ _ _ (by decide)).trans (Hub.get_put_otherField _ _ _ _ _ _ (by decide))
    simp only [Hub.badReception, Bool.false_and, Bool.false_eq_true, if_false]
    exact if_neg (hstate ▸ hcanState)

end Sys2Proof.Machine
end

section
/-!
PROOFS. The completion statements of the instructions of the Prism engines.
-/
namespace Sys2Proof.Machine

open Reg

/-! ### The instructions of the Prism engines -/

/-- An instruction that an engine fetches is run. -/
theorem Hub.fetches.runs {h : Hub} {unit op : Nat} (hf : h.fetches unit op) :
    (h.executing unit && !h.illegalAt unit && opOf (h.progWord unit (h.eng unit).pc) == op) = true := by
  obtain ⟨hexec, hlegal, hop⟩ := hf
  simp [hexec, hlegal, hop]

/-- Settles O16: each is the legal one that the engine fetches. -/
theorem prismArithmeticCompletes : Obligations.PrismArithmeticCompletes := by
  refine ⟨?_, ?_, ?_, ?_, ?_, ?_, ?_, ?_, ?_, ?_, ?_, ?_, ?_, ?_, ?_, ?_⟩
  · intro s unit hawake hfetches  -- nop
    exact run_ends s _ _ hawake (if_pos hfetches.runs)
  · intro s unit hawake hfetches  -- ldi
    exact run_ends s _ _ hawake (if_pos hfetches.runs)
  · intro s unit hawake hfetches  -- lui
    exact run_ends s _ _ hawake (if_pos hfetches.runs)
  · intro s unit hawake hfetches  -- mov
    exact run_ends s _ _ hawake (if_pos hfetches.runs)
  · intro s unit hawake hfetches  -- add
    exact run_ends s _ _ hawake (if_pos hfetches.runs)
  · intro s unit hawake hfetches  -- sub
    exact run_ends s _ _ hawake (if_pos hfetches.runs)
  · intro s unit hawake hfetches  -- and
    exact run_ends s _ _ hawake (if_pos hfetches.runs)
  · intro s unit hawake hfetches  -- or
    exact run_ends s _ _ hawake (if_pos hfetches.runs)
  · intro s unit hawake hfetches  -- xor
    exact run_ends s _ _ hawake (if_pos hfetches.runs)
  · intro s unit hawake hfetches  -- shl
    exact run_ends s _ _ hawake (if_pos hfetches.runs)
  · intro s unit hawake hfetches  -- shr
    exact run_ends s _ _ hawake (if_pos hfetches.runs)
  · intro s unit hawake hfetches  -- sar
    exact run_ends s _ _ hawake (if_pos hfetches.runs)
  · intro s unit hawake hfetches  -- addi
    exact run_ends s _ _ hawake (if_pos hfetches.runs)
  · intro s unit hawake hfetches  -- mul
    exact run_ends s _ _ hawake (if_pos hfetches.runs)
  · intro s unit hawake hfetches  -- ld
    exact run_ends s _ _ hawake (if_pos hfetches.runs)
  · intro s unit hawake hfetches  -- st
    exact run_ends s _ _ hawake (if_pos hfetches.runs)

/-! ### Jumps, waits and queues of the Prism engines -/

/-- Settles O17: an instruction that the engine fetches takes the branch of its operands; a wait ends when its cause has come. -/
theorem prismControlCompletes : Obligations.PrismControlCompletes := by
  refine ⟨?_, ?_, ?_, ?_, ?_, ?_, ?_, ?_, ?_, ?_, ?_, ?_, ?_, ?_, ?_, ?_, ?_, ?_, ?_, ?_, ?_⟩
  · intro s unit hawake hfetches  -- jmp
    exact run_ends s _ _ hawake (if_pos hfetches.runs)
  · intro s unit hawake hfetches hcond  -- jcc
    exact run_ends s _ _ hawake (by simp [hfetches, hcond])
  · intro s unit hawake hfetches hcond  -- jcc
    exact run_ends s _ _ hawake (by simp [hfetches, hcond])
  · intro s unit hawake hfetches hcount  -- djnz
    refine run_ends s _ _ hawake ((if_pos hfetches.runs).trans ?_)
    dsimp only
    rw [if_neg hcount]
  · intro s unit hawake hfetches hcount  -- djnz
    refine run_ends s _ _ hawake ((if_pos hfetches.runs).trans ?_)
    dsimp only
    rw [if_pos hcount, hcount]
  · intro s unit hawake hfetches  -- call
    exact run_ends s _ _ hawake (if_pos hfetches.runs)
  · intro s unit hawake hfetches  -- ret
    exact run_ends s _ _ hawake (if_pos hfetches.runs)
  · intro s unit hawake hfetches  -- halt
    exact run_ends s _ _ hawake (if_pos hfetches.runs)
  · intro s unit hawake hfetches hreached  -- waitt
    exact run_ends s _ _ hawake ((if_pos hfetches.runs).trans (if_pos hreached))
  · intro s unit hawake hfetches hahead  -- waitt
    exact run_ends s _ _ hawake ((if_pos hfetches.runs).trans (if_neg (Nat.not_le.2 hahead)))
  · intro s unit t hawake heng hwaitMayEnd ht  -- waittEnd
    refine run_ends s _ _ hawake ?_
    simp only [heng]
    exact if_pos ⟨hwaitMayEnd, ht⟩
  · intro s unit hawake hfetches  -- delay
    exact run_ends s _ _ hawake (if_pos hfetches.runs)
  · intro s unit hawake heng hticksOver  -- delayEnd
    exact run_ends s _ _ hawake (by simp [heng, hticksOver])
  · intro s unit hawake hfetches hinq  -- pull
    exact run_ends s _ _ hawake (by simp [hfetches, hinq])
  · intro s unit hawake hfetches hinq hblocking  -- pull
    exact run_ends s _ _ hawake (by simp [hfetches, hinq, hblocking])
  · intro s unit hawake hfetches hinq hblocking  -- pull
    exact run_ends s _ _ hawake (by simp [hfetches, hinq, hblocking])
  · intro s unit d hawake heng hwaitMayEnd heng2  -- pullWaitEnd
    exact run_ends s _ _ hawake (by simp [heng, hwaitMayEnd, heng2])
  · intro s unit hawake hfetches hroom  -- push
    exact run_ends s _ _ hawake (by simp [hfetches, hroom])
  · intro s unit v hawake heng hwaitMayEnd houtRoom  -- pushWaitEnd
    exact run_ends s _ _ hawake (by simp [heng, hwaitMayEnd, houtRoom])
  · intro s unit hawake hfetches  -- pub
    exact run_ends s _ _ hawake (if_pos hfetches.runs)
  · intro s unit hawake hfetches  -- irq
    exact run_ends s _ _ hawake (if_pos hfetches.runs)

/-! ### Pins, stamps and slots of the Prism engines -/

/-- Settles O18: as the other instructions and waits. -/
theorem prismPinsAndSlotsComplete : Obligations.PrismPinsAndSlotsComplete := by
  refine ⟨?_, ?_, ?_, ?_, ?_, ?_, ?_, ?_, ?_, ?_, ?_, ?_, ?_, ?_, ?_, ?_, ?_, ?_, ?_, ?_, ?_, ?_, ?_, ?_, ?_⟩
  · intro s unit hawake hfetches  -- pdir
    exact run_ends s _ _ hawake (if_pos hfetches.runs)
  · intro s unit hawake hfetches  -- pout
    exact run_ends s _ _ hawake (if_pos hfetches.runs)
  · intro s unit hawake hfetches  -- poutr
    exact run_ends s _ _ hawake (if_pos hfetches.runs)
  · intro s unit hawake hfetches  -- pin
    exact run_ends s _ _ hawake (if_pos hfetches.runs)
  · intro s unit hawake hfetches hhigh hlevel  -- waitp
    exact run_ends s _ _ hawake (by simp [hfetches, hhigh, hlevel])
  · intro s unit hawake hfetches hedge hnoTimeout  -- waitp
    refine run_ends s _ _ hawake ((if_pos hfetches.runs).trans ?_)
    refine (if_neg fun hmet => absurd hmet.1 (Nat.not_lt.2 hedge)).trans ?_
    simp only [hnoTimeout, Bool.false_eq_true, false_and, if_false]
  · intro s unit p t q hawake hwaitMayEnd heng hpinLevel  -- waitpEnd
    exact run_ends s _ _ hawake (by simp [Hub.waitpMet, hwaitMayEnd, heng, hpinLevel])
  · intro s unit p t x hawake hwaitMayEnd heng hpassed  -- waitpEnd
    refine run_ends s _ _ hawake ((if_pos hwaitMayEnd).trans ?_)
    simp only [Hub.waitpMet, heng, if_pos hpassed, Option.getD_some, Nat.reduceLT, if_false, beq_self_eq_true]
  · intro s unit p c hawake heng hedge hticksOver  -- waitpTimeout
    refine run_ends s _ _ hawake ?_
    simp only [heng, hticksOver, if_true, Hub.waitpMet, if_neg (Nat.not_lt.2 hedge), Option.getD_none]
  · intro s unit hawake hfetches  -- shifto
    exact run_ends s _ _ hawake (if_pos hfetches.runs)
  · intro s unit hawake hfetches  -- shifti
    exact run_ends s _ _ hawake (if_pos hfetches.runs)
  · intro s unit hawake hfetches  -- time
    exact run_ends s _ _ hawake (if_pos hfetches.runs)
  · intro s unit hawake hfetches  -- stamp
    exact run_ends s _ _ hawake (if_pos hfetches.runs)
  · intro s unit hawake hfetches hahead  -- armt
    have hfar : ¬ (2 ^ 40 ≤ (s.ticked unit).armAhead unit (s.found.fetched unit) ∧ (s.ticked unit).armAhead unit (s.found.fetched unit) < 2 ^ 63) := by
      omega
    have hpast : ¬ 2 ^ 63 ≤ (s.ticked unit).armAhead unit (s.found.fetched unit) := by omega
    refine run_ends s _ _ hawake ((if_pos hfetches.runs).trans ((if_neg hfar).trans ?_))
    exact congrArg (fun h => (Hub.setC h unit false).completedIn unit 2) (if_neg hpast)
  · intro s unit hawake hfetches hfar hahead  -- armt
    exact run_ends s _ _ hawake ((if_pos hfetches.runs).trans (if_pos ⟨hfar, hahead⟩))
  · intro s unit hawake hfetches hlost  -- armp
    exact run_ends s _ _ hawake (by simp [hfetches, hlost])
  · intro s unit hawake hfetches hfollowed hpolicy hnoOffset htarget  -- armp
    have hopen : ¬ (!(s.ticked unit).followed ((s.ticked unit).posBindAt unit (s.found.fetched unit)).track ||
        ((s.ticked unit).posBindAt unit (s.found.fetched unit)).policy == 3 ||
        slice ((s.ticked unit).posDesc unit (s.found.fetched unit)) 16 6 != 0) = true := by
      simp [hfollowed, hpolicy, Hub.posDesc, hnoOffset]
    exact run_ends s _ _ hawake ((if_pos hfetches.runs).trans ((if_neg hopen).trans (if_neg fun hbad => absurd (htarget.symm.trans hbad) (by decide))))
  · intro s unit hawake hfetches hflag  -- waite
    exact run_ends s _ _ hawake (by simp [hfetches, hflag])
  · intro s unit hawake hfetches hflag  -- waite
    exact run_ends s _ _ hawake (by simp [hfetches, hflag])
  · intro s unit d m hawake heng hwaitMayEnd hanyFlag  -- waiteEnd
    exact run_ends s _ _ hawake (by simp [heng, hwaitMayEnd, hanyFlag])
  · intro s unit hawake hfetches  -- cancel
    exact run_ends s _ _ hawake (if_pos hfetches.runs)
  · intro s unit hawake hfetches hstamp  -- tpos
    exact run_ends s _ _ hawake (by simp [hfetches, hstamp])
  · intro s unit x v hawake hfetches hstamp hpos  -- tpos
    exact run_ends s _ _ hawake (by simp [hfetches, hstamp, hpos])
  · intro s unit hawake hfetches hlost  -- tnow
    exact run_ends s _ _ hawake (by simp [hfetches, hlost])
  · intro s unit hawake hfetches hfollowed  -- tnow
    exact run_ends s _ _ hawake (by simp [hfetches, hfollowed])

end Sys2Proof.Machine
end

section
/-!
PROOFS. The completion statements of the Ethernet port, the host port, the mailboxes, the power zones, the fault collector and the temperature unit.
-/
namespace Sys2Proof.Machine

open Reg

/-! ### The local Ethernet port -/

/-- Settles O20: each frame or event meets what its branch asks for. -/
theorem ethernetCommandsComplete : Obligations.EthernetCommandsComplete := by
  refine ⟨?_, ?_, ?_, ?_, ?_, ?_, ?_, ?_, ?_, ?_, ?_, ?_, ?_, ?_⟩
  · intro s rx c8 bs hawake hstatLink hetherRuns hrx  -- ethernetFrameReceive
    exact run_ends s _ _ hawake (by simp [Hub.takeEther, hstatLink, hetherRuns, hrx])
  · intro s rx c8 hawake hstatLink hetherRuns hrx  -- ethernetFrameReceive
    exact run_ends s _ _ hawake (by simp [hstatLink, hetherRuns, hrx])
  · intro s bytes hawake hetherRuns hmode hctrlTen hdrop hcontrolOwnWrite  -- controlRequest
    refine run_ends s _ _ hawake ?_

    have hten : ¬ (s.found.tenantOn (s.found.cfg pEth ETH.CTRL_TEN) = false ∨
        (bytes.drop 6).take 6 ≠ macBytes (s.found.cfg pEth ETH.CTRL_MAC_HI) (s.found.cfg pEth ETH.CTRL_MAC_LO_ADDR)) := by
      rw [hctrlTen]
      exact fun hbad => hbad.elim (by decide) fun hne => hne hdrop
    obtain ⟨hwrite, hhere⟩ := Bool.and_eq_true_iff.1 hcontrolOwnWrite
    have hread : (leNat (((controlBody bytes).2.drop 10).take 1) % 2 == 1) = false := by
      simpa using hwrite
    refine (if_neg (by rw [hetherRuns]; simpa using hmode)).trans ((if_neg hten).trans ?_)
    simp only [hread, Bool.false_eq_true, false_and, if_false]
    exact if_pos hhere
  · intro s bytes hawake hetherType  -- ethernetServiceFrame
    exact run_ends s _ _ hawake (by simp [hetherType])
  · intro s bytes hawake hetherType hsecureServes hnoResponse hetherCall  -- ethernetServiceFrame
    have hserved : ¬ ((!s.found.secureServes) = true ∨ leNat (((bytes.drop (etherType bytes).2).drop 4).take 1) % 2 = 1) := by
      rw [hsecureServes, hnoResponse]
      decide
    have hopen (b : Bool) : ¬ (!b && (s.found.etherCall bytes).code != 1 && (s.found.etherCall bytes).code != 2) = true := by
      rcases hetherCall with hcode | hcode
      · simp [hcode]
      · simp [hcode]
    exact run_ends s _ _ hawake ((if_neg (not_not.2 hetherType)).trans ((if_neg hserved).trans (if_neg (hopen _))))
  · intro s word hawake hetherRuns hserdesReady hstatLink hstatWakeTxBusy hcfgMode  -- ethLinkUp
    have hup : ¬ (s.found.etherRuns = false ∨ s.found.serdesReady = false ∨ s.found.on pEth ETH.STAT_LINK = true ∨
        s.found.on pEth ETH.STAT_WAKE_TX_BUSY = true) := by
      rw [hetherRuns, hserdesReady, hstatLink, hstatWakeTxBusy]
      decide
    refine run_ends s _ _ hawake ((if_neg hup).trans ?_)
    simp only [hcfgMode, flag, if_true, Nat.reduceBEq, Bool.false_and, Bool.false_eq_true, if_false]
  · intro s word hawake hetherRuns hserdesReady hstatLink hstatWakeTxBusy hcfgMode hcfgAnEn  -- ethLinkUp
    have hup : ¬ (s.found.etherRuns = false ∨ s.found.serdesReady = false ∨ s.found.on pEth ETH.STAT_LINK = true ∨
        s.found.on pEth ETH.STAT_WAKE_TX_BUSY = true) := by
      rw [hetherRuns, hserdesReady, hstatLink, hstatWakeTxBusy]
      decide
    refine run_ends s _ _ hawake ((if_neg hup).trans ?_)
    simp only [hcfgMode, hcfgAnEn, flag, beq_self_eq_true, Bool.and_self, if_true, Nat.reduceEqDiff, if_false]
  · intro s hawake  -- ethLinkDown
    exact run_ends s _ _ hawake rfl
  · intro s hawake hstatPreempt hpreemptVerifyTime hverifies  -- verifyTime
    have hdue : ¬ (s.found.get pEth ETH.STAT_PREEMPT ≠ 1 ∨
        s.found.clock < s.found.ether.verifyAt + 500000 * s.found.cfg pEth ETH.PREEMPT_VERIFY_TIME) := by
      omega
    exact run_ends s _ _ hawake ((if_neg hdue).trans (if_pos hverifies))
  · intro s hawake hstatPreempt hpreemptVerifyTime htries  -- verifyTime
    have hdue : ¬ (s.found.get pEth ETH.STAT_PREEMPT ≠ 1 ∨
        s.found.clock < s.found.ether.verifyAt + 500000 * s.found.cfg pEth ETH.PREEMPT_VERIFY_TIME) := by
      omega
    exact run_ends s _ _ hawake ((if_neg hdue).trans (if_neg (Nat.not_lt.2 htries)))
  · intro s req value hawake hadm hmdioStatBusy  -- mdio
    exact run_wrote_ok s hawake hadm rfl (by simp [Hub.writeMdio, hmdioStatBusy])
  · intro s data hawake hmdioStatBusy hmdioStatBusy2  -- mdioFrameEnd
    exact run_ends s _ _ hawake (by simp only [hmdioStatBusy, hmdioStatBusy2, if_true])
  · intro s req value hawake hadm hbitOf hstatWakeTxBusy hetherRuns hserdesReady  -- wakeTx
    exact run_wrote s hawake hadm rfl (if_pos ⟨hbitOf, hstatWakeTxBusy, hetherRuns, hserdesReady⟩)
  · intro s hawake hstatWakeTxBusy hwakeAt  -- wakeTxEnd
    exact run_ends s _ _ hawake (if_pos ⟨hstatWakeTxBusy, hwakeAt⟩)

/-- A read of the QSPI interface of a length and at an address that it serves. -/
theorem Hub.qspiRead_in_range (h : Hub) (n addr len : Nat) (hs : h.qspiServes = true) (h0 : 0 < len) (hlen : len ≤ 1024) (ha : addr < 2 ^ 36) :
    h.qspiRead n addr len false = (h.awaits n len).hostRead (qspiTarget addr) n (addr % 2 ^ 36) len := by
  have hfits : ¬ (len = 0 ∨ 1024 < len) := by omega
  simp only [Hub.qspiRead, hs, Bool.true_eq_false, if_false, if_neg hfits, if_pos ha, Bool.false_eq_true]

/-- A write of the QSPI interface of a length and at an address that it serves. -/
theorem Hub.qspiWrite_in_range (h : Hub) (n addr len : Nat) (data : List Byte) (hs : h.qspiServes = true) (h0 : 0 < len) (hlen : len ≤ 1024)
    (ha : addr < 2 ^ 36) (hd : data.length = len) : h.qspiWrite n addr len data = h.hostWrite (qspiTarget addr) n (addr % 2 ^ 36) data := by
  have hfits : ¬ (data.length ≠ len ∨ len = 0 ∨ 1024 < len) := by omega
  simp only [Hub.qspiWrite, hs, Bool.true_eq_false, if_false, if_neg hfits, if_pos ha]

/-! ### The host port -/

/-- Settles O21: each access, descriptor or link event meets what its branch asks for. -/
theorem hostPortCommandsComplete : Obligations.HostPortCommandsComplete := by
  refine ⟨?_, ?_, ?_, ?_, ?_, ?_, ?_, ?_, ?_, ?_, ?_, ?_, ?_, ?_, ?_, ?_, ?_, ?_, ?_, ?_, ?_, ?_, ?_, ?_⟩
  · intro s n bar off data hawake hpcieServes htlpFits  -- pcieWriteTlp
    exact run_ends s _ _ hawake (by simp [hpcieServes, htlpFits])
  · intro s n bar off len hawake hpcieServes htlpFits  -- pcieReadTlp
    exact run_ends s _ _ hawake (by simp [hpcieServes, htlpFits])
  · intro s n addr len abandoned hawake hqspiServes hpos hlen haddr habandoned  -- qspiRead
    exact run_ends s _ _ hawake (habandoned ▸ s.found.qspiRead_in_range n addr len hqspiServes hpos hlen haddr)
  · intro s n addr len abandoned hawake hqspiServes hpos hlen haddr habandoned  -- qspiQuadRead
    exact run_ends s _ _ hawake (habandoned ▸ s.found.qspiRead_in_range n addr len hqspiServes hpos hlen haddr)
  · intro s n addr len data hawake hqspiServes hpos hlen haddr hlength  -- qspiWrite
    exact run_ends s _ _ hawake (s.found.qspiWrite_in_range n addr len data hqspiServes hpos hlen haddr hlength)
  · intro s n addr len data hawake hqspiServes hpos hlen haddr hlength  -- qspiQuadWrite
    exact run_ends s _ _ hawake (s.found.qspiWrite_in_range n addr len data hqspiServes hpos hlen haddr hlength)
  · intro s hawake hhostIf  -- qspiBad
    exact run_ends s _ _ hawake (by simp only [hhostIf, if_true])
  · intro s req qp value hawake hadm  -- txProd
    exact run_wrote s hawake hadm rfl rfl
  · intro s qp words hawake hfetchTurn hpos hmax  -- descriptorFetch
    have hop : ¬ (slice (words.getD 0 0) 28 4 = 0 ∨ 3 < slice (words.getD 0 0) 28 4) := by omega
    refine run_ends s _ _ hawake ((if_neg (not_not.2 hfetchTurn)).trans ?_)
    simp only [hop, decide_false, if_false]
    rfl
  · intro s qp buffer d hawake hpendingDesc hdescOk  -- descriptorWrite
    exact run_ends s _ _ hawake (by simp only [hpendingDesc, hdescOk, if_true])
  · intro s qp d hawake hpendingDesc hdescOk  -- descriptorRead
    exact run_ends s _ _ hawake (by simp only [hpendingDesc, hdescOk, if_true])
  · intro s qp buffer d hawake hpendingDesc hmin hmax hissueHostTen hmarkIssued  -- descriptorTunnel
    refine run_ends s _ _ hawake ?_

    have hlen : ¬ (d.word 0 % 65536 < 60 ∨ 9212 < d.word 0 % 65536) := by omega
    simp only [hpendingDesc]
    exact (if_neg hlen).trans (if_neg (by rw [hissueHostTen]; decide))
  · intro s qp d l st hawake hqp hstatus hqpState hbitOf  -- descriptorComplete
    refine run_ends s _ _ hawake ?_

    simp only [hqp, hstatus]
    exact (if_neg (not_not.2 hqpState)).trans (if_neg (by rw [hbitOf]; decide))
  · intro s req qp value hawake hadm  -- rxTail
    exact run_wrote s hawake hadm rfl rfl
  · intro s qp err hawake hqp herr herr2 hqpState  -- qpStop
    exact run_ends s _ _ hawake (by simp [hqp, herr, herr2, hqpState])
  · intro s qp err hawake hqp herr  -- qpStop
    exact run_ends s _ _ hawake (by simp [hqp, herr])
  · intro s qp hawake hqpState hqp  -- drainEnd
    exact run_ends s _ _ hawake (by simp [hqpState, hqp])
  · intro s req high bits hawake hadm hhigh  -- vpend
    subst hhigh
    exact run_wrote s hawake hadm rfl rfl
  · intro s req high bits hawake hadm hhigh  -- vpend
    subst hhigh
    exact run_wrote s hawake hadm rfl rfl
  · intro s vector hawake hvector hvectorPending hpcieUp hvectorMasked  -- msiXSend
    exact run_ends s _ _ hawake (by simp [hvector, hvectorPending, hpcieUp, hvectorMasked])
  · intro s change b hawake hhostIf hstatLinkUp hchange  -- pcieConfigurationRequest
    exact run_ends s _ _ hawake (by simp [hhostIf, hstatLinkUp, hchange])
  · intro s change off v hawake hhostIf hstatLinkUp hchange hconfigFixed hoff hoff2  -- pcieConfigurationRequest
    exact run_ends s _ _ hawake (by simp [Hub.writeConfig, hhostIf, hstatLinkUp, hchange, hconfigFixed, hoff, hoff2])
  · intro s rate width hawake hhostIf hmode hserdesReady hgated hrateMin hrateMax hwidthMin hwidthMax  -- pcieLinkUp
    have hup : ¬ (s.found.hostIf ≠ 1 ∨ s.found.mode = .waking ∨ s.found.serdesReady = false ∨ s.found.gated pHost = true ∨
        rate % 4 = 0 ∨ 3 < rate ∨ width = 0 ∨ 2 < width) := by
      simp only [hhostIf, hmode, hserdesReady, hgated, ne_eq, not_true_eq_false, Bool.true_eq_false, Bool.false_eq_true, false_or]
      omega
    exact run_ends s _ _ hawake (if_neg hup)
  · intro s hawake  -- pcieLinkDown
    exact run_ends s _ _ hawake rfl

/-! ### Mailboxes and doorbells -/

/-- Settles O22: each command is one that its register carries out. -/
theorem mailboxCommandsComplete : Obligations.MailboxCommandsComplete := by
  refine ⟨?_, ?_, ?_, ?_, ?_, ?_⟩
  · intro s req mailbox len hawake hadm hmailCommand  -- send
    exact run_wrote_ok s hawake hadm rfl (Prod.ext rfl hmailCommand)
  · intro s req mailbox rc hawake hadm hmailCommand  -- ack
    exact run_wrote_ok s hawake hadm rfl (Prod.ext rfl hmailCommand)
  · intro s req mailbox hawake hadm hmailCommand  -- recall
    exact run_wrote_ok s hawake hadm rfl (Prod.ext rfl hmailCommand)
  · intro s req off size value hawake hdataArea hoff hturnedAway hmailDataCause  -- mailboxDataWrite
    have hplace : ¬ (off < 0xC00 ∨ 0x1000 ≤ off) := by omega
    refine run_ends s _ _ hawake ((if_neg hplace).trans ?_)
    simp only [Hub.writeMail, hturnedAway, Hub.mailData, hmailDataCause, if_true, Hub.hear_ok]
  · intro s req side bits hawake hadm hsideOf  -- ring
    exact run_wrote s hawake hadm rfl (by simp [Hub.writeRing, hsideOf])
  · intro s req side bits hawake hadm hsideOf hfenced  -- dbRawClear
    exact run_wrote_ok s hawake hadm rfl (by simp [Hub.writeDbRaw, hsideOf, hfenced])

/-! ### Power zones -/

/-- Settles O23: each sample, access or instant meets what its branch asks for. -/
theorem zoneCommandsComplete : Obligations.ZoneCommandsComplete := by
  refine ⟨?_, ?_, ?_, ?_, ?_, ?_, ?_, ?_, ?_, ?_, ?_, ?_, ?_, ?_, ?_, ?_, ?_, ?_, ?_, ?_, ?_⟩
  · intro s req unit value hawake hadm  -- on
    exact run_wrote s hawake hadm rfl rfl
  · intro s req unit hawake hadm hzoneIs  -- unlatch
    have henergy : bitOf 2 2 = false := by decide
    have hunlatch : bitOf 2 1 = true := by decide
    exact run_wrote s hawake hadm rfl (by simp only [Hub.writeZoneCtl, henergy, hunlatch, hzoneIs, Bool.false_eq_true, if_false, and_self, if_true])
  · intro s req unit hawake hadm  -- enClr
    exact run_wrote s hawake hadm rfl rfl
  · intro s unit vsh edge hawake hslotIs hshuntTaken  -- shuntSample
    refine run_ends s _ _ hawake ((if_neg (by rw [hslotIs]; decide)).trans ?_)
    unfold Hub.shuntTaken at hshuntTaken ⊢
    simp only [hshuntTaken]
  · intro s unit vsh edge c hawake hslotIs hshuntTaken  -- shuntSample
    refine run_ends s _ _ hawake ((if_neg (by rw [hslotIs]; decide)).trans ?_)
    unfold Hub.shuntTaken at hshuntTaken ⊢
    simp only [hshuntTaken]
  · intro s unit drain millivolts vgs hawake hslotIs hdrain  -- voltageSample
    exact run_ends s _ _ hawake (by simp [hslotIs, hdrain])
  · intro s unit drain millivolts vgs hawake hslotIs hdrain  -- voltageSample
    exact run_ends s _ _ hawake (by simp [hslotIs, hdrain])
  · intro s unit vsh edge hawake hzoneConducts hifastNv hilimEff hzoneCurrent  -- fastTrip
    exact run_ends s _ _ hawake (by simp [hzoneConducts, hifastNv, hilimEff, hzoneCurrent])
  · intro s unit edge hawake hzoneIs hrampMaxMs  -- rampTime
    exact run_ends s _ _ hawake (if_pos ⟨hzoneIs, hrampMaxMs⟩)
  · intro s unit hawake hzoneIs hturn  -- rampTurn
    exact run_ends s _ _ hawake (by simp [hzoneIs, hturn])
  · intro s unit hawake hzoneIs hzone  -- backoffEnd
    exact run_ends s _ _ hawake (by simp [hzoneIs, hzone])
  · intro s unit t hawake hzone hzoneMeasures ht  -- vinInRange
    refine run_ends s _ _ hawake ?_

    simp only [hzone]
    exact if_pos ⟨hzoneMeasures, ht⟩
  · intro s unit hawake hzoneIs hretryClr  -- retryClr
    exact run_ends s _ _ hawake (if_pos ⟨hzoneIs, hretryClr⟩)
  · intro s unit hawake hzoneQuiet hzone hzone2  -- zeroCold
    exact run_ends s _ _ hawake (if_pos ⟨hzoneQuiet, hzone, hzone2⟩)
  · intro s unit hawake hzoneQuiet hzone  -- zeroHot
    exact run_ends s _ _ hawake (if_pos ⟨hzoneQuiet, hzone⟩)
  · intro s unit vgs full hawake hzoneIs hcfgDmgChk hzone hgateMissed  -- gateT
    refine run_ends s _ _ hawake ((if_pos ⟨hzoneIs, by simp only [hcfgDmgChk, Bool.true_or], hgateMissed⟩).trans ?_)
    exact if_neg (by rw [hzone]; decide)
  · intro s unit t hawake hzoneMeasures hzone hdamageOffT hcfgDmgChk hzoneIs  -- offT
    exact run_ends s _ _ hawake (if_pos ⟨hzoneMeasures, by simp only [hzone, hdamageOffT, decide_true], .inl hcfgDmgChk, fun hbad => hzoneIs hbad.1⟩)
  · intro s unit offset hawake hzoneMeasures hzone hoffset hoffsetMin  -- chopCycle
    have hmeasured : ¬ ((!s.found.zoneMeasures) = true ∨ s.found.ns < (s.found.zone unit).chopDue) := by
      rw [hzoneMeasures]
      exact fun hbad => hbad.elim (by decide) (Nat.not_lt.2 hzone)
    exact run_ends s _ _ hawake ((if_neg hmeasured).trans (if_neg (by omega)))
  · intro s unit offset hawake hzoneMeasures hzone hbeyond  -- chopCycle
    exact run_ends s _ _ hawake (by simp [hzoneMeasures, hzone, hbeyond])
  · intro s req unit hawake hadm  -- imeas
    exact run_told s hawake hadm rfl rfl
  · intro s req unit hawake hadm  -- energyLo
    exact run_told s hawake hadm rfl rfl

/-! ### Faults and temperature -/

/-- Settles O24: each event meets what its branch asks for. -/
theorem faultCommandsComplete : Obligations.FaultCommandsComplete := by
  refine ⟨?_, ?_, ?_, ?_, ?_, ?_, ?_⟩
  · intro s sources hawake  -- faultTransition
    exact run_ends s _ _ hawake rfl
  · intro s e q hawake hqueue  -- fence
    exact run_ends s _ _ hawake (by simp only [hqueue])
  · intro s req key page hawake hadm hkey hfenced hfenceQueued hunitPages hunit  -- release
    have hresult : s.found.releaseResult key page = 0 := by
      rw [Hub.releaseResult, if_neg (not_not.2 hkey), hfenced, hfenceQueued, if_neg (by decide), hunitPages, if_neg (by decide)]
    exact run_wrote s hawake hadm rfl (by
      simp only [Hub.writeRelease, hresult, if_true]
      exact congrArg (fun h => Hub.releaseUnit h (unitOf page)) (if_neg hunit))
  · intro s page hawake hfenced hfenceCount hcfgRepeatClr  -- repeatClr
    have hover : ¬ (s.found.fenced (unitOf page) = true ∨ s.found.fenceCount (unitOf page) = 0 ∨
        s.found.clock < Map.getD s.found.flt.released (unitOf page) 0 + 500000000 * s.found.cfg pFlt FLT.CFG_REPEAT_CLR) := by
      simp only [hfenced, Bool.false_eq_true, false_or]
      omega
    exact run_ends s _ _ hawake (if_neg hover)
  · intro s t0 t1 t2 t3 hawake hunderTest hreadDue  -- thermalReading
    have hdue : ¬ (s.found.underTest pTherm = true ∨ s.found.clock < s.found.therm.readDue) := by
      simp only [hunderTest, Bool.false_eq_true, false_or]
      omega
    exact run_ends s _ _ hawake (if_neg hdue)
  · intro s t hawake hstatLevel hstatLevel2 hstepAt hcfgStepMs  -- stepMs
    refine run_ends s _ _ hawake ?_

    simp only [hstepAt]
    exact if_pos ⟨hstatLevel, hstatLevel2, hcfgStepMs⟩
  · intro s sensor t hawake hgetD hsensor hsensorInUse ht  -- sensorDiff
    refine run_ends s _ _ hawake ?_

    simp only [hgetD]
    exact if_pos ⟨hsensor, hsensorInUse, ht⟩

end Sys2Proof.Machine
end

section
/-!
PROOFS. The completion statements of the Steward: its coprocessor, its watchdogs, its fuses and its services.
-/
namespace Sys2Proof.Machine

open Reg

/-- The key of a register word that is a key above its operand. -/
theorem slice_key (key v : Nat) (hv : v < 65536) : slice (key % 65536 * 65536 + v) 16 16 = key % 65536 := by
  rw [slice, Nat.shiftRight_eq_div_pow]
  omega

theorem slice_key_alone (key : Nat) : slice (key % 65536 * 65536) 16 16 = key % 65536 :=
  (congrArg (slice · 16 16) (Nat.add_zero _).symm).trans (slice_key key 0 (by decide))

/-- The coprocessor works out the outcome of a job of the kind that the command names. -/
theorem Hub.copWork_fresh (h : Hub) (j : CopJob) (kind : CopOp → Bool) (hcop : h.stw.cop = some j) (hout : j.outcome = none) (hkind : kind j.op = true) :
    h.copWork kind = { (h.copOutcome j).2 with stw := { (h.copOutcome j).2.stw with cop := some { j with outcome := some (h.copOutcome j).1 } } } := by
  simp only [Hub.copWork, hcop]
  exact if_pos ⟨hkind, hout⟩

/-! ### The Steward -/

/-- Settles O25: each access is of the world that may make it and carries its key; the coprocessor and the timers find what they ask for. -/
theorem stewardCommandsComplete : Obligations.StewardCommandsComplete := by
  refine ⟨?_, ?_, ?_, ?_, ?_, ?_, ?_, ?_, ?_, ?_, ?_, ?_, ?_, ?_, ?_, ?_, ?_, ?_, ?_, ?_, ?_, ?_, ?_, ?_, ?_, ?_, ?_, ?_, ?_, ?_, ?_⟩
  · intro s code ptr len hawake hannexState hlen hinSram hannexHolds  -- ecall
    exact run_ends s _ _ hawake (by simp [hannexState, hlen, hinSram, hannexHolds])
  · intro s addr kind hawake hannexState hannexReaches  -- annexAccessFault
    exact run_ends s _ _ hawake (by simp [hannexState, hannexReaches])
  · intro s annex rd op hawake hworldRuns hannex hgateState hcontains hcoprocessorIdle  -- copStart
    subst hannex
    have hgate : ¬ (s.found.gateState 11 ≠ 0 ∨ s.found.sys.ungating.contains 11 = true) := by
      rw [hgateState, hcontains]
      decide
    refine run_ends s _ _ hawake ((if_neg (by rw [hworldRuns]; decide)).trans ((if_neg Bool.false_ne_true).trans ((if_neg hgate).trans ?_)))
    exact if_neg (by rw [hcoprocessorIdle]; decide)
  · intro s annex rd hawake hworldRuns hcoprocessorIdle  -- copWait
    exact run_ends s _ _ hawake (by simp [hworldRuns, hcoprocessorIdle])
  · intro s annex rd hawake hworldRuns hcoprocessorIdle  -- copWait
    exact run_ends s _ _ hawake (by simp [hworldRuns, hcoprocessorIdle])
  · intro s annex rd hawake hworldRuns  -- copPoll
    exact run_ends s _ _ hawake (by simp only [hworldRuns, if_true])
  · intro s annex rd j hawake hworldRuns hcop  -- copAbort
    refine run_ends s _ _ hawake ((if_neg (by rw [hworldRuns]; decide)).trans ?_)
    simp only [hcop]
  · intro s j a b c hawake hcop houtcome hop  -- sha256
    exact run_ends s _ _ hawake (s.found.copWork_fresh j _ hcop houtcome (by rw [hop]))
  · intro s j a b c hawake hcop houtcome hop  -- ecdsaP256
    exact run_ends s _ _ hawake (s.found.copWork_fresh j _ hcop houtcome (by rw [hop]))
  · intro s j hawake hcop houtcome hCopOp_unit  -- aes256Gcm
    exact run_ends s _ _ hawake (s.found.copWork_fresh j _ hcop houtcome (by rw [hCopOp_unit]; rfl))
  · intro s j a b c hawake hcop houtcome hop  -- crc32c
    exact run_ends s _ _ hawake (s.found.copWork_fresh j _ hcop houtcome (by rw [hop]))
  · intro s j hawake hcop houtcome hCopOp_unit  -- trackArithmetic
    exact run_ends s _ _ hawake (s.found.copWork_fresh j _ hcop houtcome (by rw [hCopOp_unit]; rfl))
  · intro s j hawake hcop houtcome hop  -- keyLoad
    exact run_ends s _ _ hawake (s.found.copWork_fresh j _ hcop houtcome (by rw [hop]; rfl))
  · intro s j a b hawake hcop houtcome hop  -- keyWrite
    exact run_ends s _ _ hawake (s.found.copWork_fresh j _ hcop houtcome (by rw [hop]))
  · intro s j a hawake hcop houtcome hop  -- keyClear
    exact run_ends s _ _ hawake (s.found.copWork_fresh j _ hcop houtcome (by rw [hop]))
  · intro s j o hawake hcop houtcome hstart hslot  -- coprocessorComplete
    refine run_ends s _ _ hawake ?_

    simp only [hcop, houtcome, if_neg (Nat.not_lt.2 hstart), hslot]
  · intro s req key hawake hadm hreq hkey  -- wdogKick
    subst hreq
    exact run_wrote_ok s hawake hadm rfl (if_pos (by rw [slice_key_alone, hkey]))
  · intro s req key hawake hadm hreq hkey  -- wdogKick
    subst hreq
    exact run_wrote_ok s hawake hadm rfl (if_pos (by rw [slice_key_alone, hkey]))
  · intro s hawake hsecureWatched hwdogSMs  -- wdogS
    exact run_ends s _ _ hawake (if_pos ⟨hsecureWatched, hwdogSMs⟩)
  · intro s hawake hannexState hwdogAMs hwdogAMs2  -- wdogA
    exact run_ends s _ _ hawake (if_pos ⟨hannexState, hwdogAMs, hwdogAMs2⟩)
  · intro s hawake hsecureWatched hwdogSMs  -- secureWatchdogHalf
    exact run_ends s _ _ hawake (if_pos ⟨hsecureWatched, hwdogSMs⟩)
  · intro s req key hawake hadm hreq hkey hstatCore hstatReady hmode  -- stewardReady
    have hopen : ¬ (key % 65536 ≠ 0x3EAD ∨ s.found.get pStw STW.STAT_CORE ≠ 2 ∨ s.found.on pStw STW.STAT_READY = true) := by
      rw [hkey, hstatCore, hstatReady]
      decide
    have hready : s.found.declareReady (key % 65536) = ((s.found.loadAnnex.setReady true).raiseRollback.mailCalls, true) :=
      (if_neg hopen).trans (by simp only [if_neg hmode])
    exact run_wrote_ok s hawake hadm rfl (by simp only [if_pos hreq, hready])
  · intro s req hawake hadm hreq  -- anxCtlStart
    exact run_wrote_ok s hawake hadm rfl (if_pos hreq)
  · intro s req hawake hadm hreq  -- anxCtlStop
    exact run_wrote_ok s hawake hadm rfl (if_pos hreq)
  · intro s req hawake hadm hreq  -- unload
    exact run_wrote_ok s hawake hadm rfl (if_pos hreq)
  · intro s annex value hawake hvalue hannex  -- timerComparator
    exact run_ends s _ _ hawake (by simp [hvalue, hannex])
  · intro s annex value hawake hvalue hannex hannexState  -- timerComparator
    exact run_ends s _ _ hawake (by simp [hvalue, hannex, hannexState])
  · intro s req key hawake hadm hreq hkey hotpStatBusy hotpSelWord  -- otpProg
    have hkeyed : ¬ slice (key % 65536 * 65536) 16 16 ≠ 0xB10E := by
      rw [slice_key_alone, hkey]
      decide
    have hprog : s.found.writeOtpProg (key % 65536 * 65536) = _ :=
      (if_neg (by rw [hotpStatBusy]; decide)).trans ((if_neg hkeyed).trans (if_neg (by rw [hotpSelWord]; decide)))
    exact run_wrote_ok s hawake hadm rfl ((if_pos hreq).trans (congrArg (·, true) hprog))
  · intro s blown word bits hawake hotp  -- otpProgDone
    exact run_ends s _ _ hawake (by simp only [hotp])
  · intro s req key target hawake hadm hreq hkey htrans htransStatTarget  -- trans
    have htarget : (key % 65536 * 65536 + target % 16) % 16 = target % 16 := by omega
    have hkeyed : ¬ (slice (key % 65536 * 65536 + target % 16) 16 16 ≠ 0x1C5E ∨ req ≠ .secure) := by
      rw [slice_key _ _ (by omega), hkey, hreq]
      decide
    refine run_wrote_ok s hawake hadm rfl ?_
    simp only [Hub.writeTrans, htrans, Option.isSome_none, Bool.false_eq_true, if_false, htarget, if_neg hkeyed, htransStatTarget, if_true]
    rfl
  · intro s copies b hawake htrans hcopies  -- lcTransitionDone
    refine run_ends s _ _ hawake ?_

    simp only [htrans]
    rfl

/-- A call that is served is taken off its queue and answered by its service. -/
theorem run_service (s : State) {cls : SvcClass} {code : Nat} {c : SvcCall} {f : Hub → Hub} {k : Hub → SvcCall → Hub × Nat × List Byte} {g : Hub}
    (hawake : s.awake) (hs : s.found.servesCall cls code c) (hf : f s.found = s.found.serve cls code k)
    (hk : (k (s.found.dropCall c) c).1.answer c (k (s.found.dropCall c) c).2.1 (k (s.found.dropCall c) c).2.2 = g) :
    run s f = .next (s.ends g) := by
  obtain ⟨hhead, hcode, hserves, hgood, hargs, hidle⟩ := hs
  refine run_ends s f g hawake ?_
  rw [hf, Hub.serve, hhead]
  simp only [hcode, hserves, hgood, hidle, decide_eq_false (Nat.not_lt.2 hargs), ne_eq, not_true_eq_false, Bool.not_true, Bool.false_eq_true, or_self,
    if_false]
  exact hk

/-! ### Services of the Steward -/

/-- Settles O26: a call that is served is answered by its service. -/
theorem stewardServicesComplete : Obligations.StewardServicesComplete := by
  refine ⟨?_, ?_, ?_, ?_, ?_, ?_, ?_, ?_, ?_, ?_⟩
  · intro s cls c hawake hservesCall  -- version
    exact run_service s hawake hservesCall rfl rfl
  · intro s cls c hawake hservesCall  -- status
    exact run_service s hawake hservesCall rfl rfl
  · intro s cls c hawake hservesCall  -- lcAdvance
    refine run_service s hawake hservesCall rfl ?_
    unfold Hub.lcAdvanced
    cases htoken : (s.found.dropCall c).tokenNonce c.args (leNat (c.args.take 4)) with
    | none => simp only [htoken]
    | some n =>
      simp only [htoken]
      split
      · rfl
      · rfl
  · intro s cls c hawake hservesCall hkey  -- keyRevoke
    refine run_service s hawake hservesCall rfl ?_
    unfold Hub.keyRevoked
    simp only [if_neg (Nat.not_lt.2 hkey)]
    cases htoken : (s.found.dropCall c).tokenNonce c.args (leNat (c.args.take 4)) with
    | none => rfl
    | some n =>
      dsimp only
      split
      · rfl
      · rfl
  · intro s cls c hawake hservesCall hcaller  -- anxStart
    exact run_service s hawake hservesCall rfl (by rw [if_pos (by simpa using hcaller)])
  · intro s cls c hawake hservesCall hcaller  -- anxStop
    exact run_service s hawake hservesCall rfl (by rw [if_pos (by simpa [or_assoc] using hcaller)])
  · intro s cls c hawake hservesCall howns hlength  -- anxPages
    exact run_service s hawake hservesCall rfl (by rw [if_neg (by rw [howns]; decide), if_neg (not_not.2 hlength)])
  · intro s cls c hawake hservesCall howns  -- gateRelease
    exact run_service s hawake hservesCall rfl (by rw [if_neg (by rw [howns]; decide)]; rfl)
  · intro s frame hawake htype hfield  -- stewardMessage
    exact run_ends s _ _ hawake (by simp [htype, hfield])
  · intro s frame hawake htype hfield htenantOn hsecureServes hlen hfilter  -- stewardMessage
    have hheard : ¬ (s.found.tenantOn frame.hdr.ten = false ∨ (!s.found.secureServes) = true ∨ 16 + frame.field 2 2 ≠ frame.hdr.len ∨
        4 ≤ (s.found.stw.calls.filter (fun c => SvcPath_cls c.path == .ring)).length) := by
      simp only [htenantOn, hsecureServes, hlen, Bool.true_eq_false, Bool.not_true, Bool.false_eq_true, ne_eq, not_true_eq_false, false_or]
      omega
    exact run_ends s _ _ hawake ((if_neg (not_not.2 htype)).trans ((if_neg (by omega)).trans (if_neg hheard)))

end Sys2Proof.Machine
end

section
/-!
PROOFS. The completion statements of the field update and the self-test.
-/
namespace Sys2Proof.Machine

open Reg

theorem Hub.upd_dropCall (h : Hub) (c : SvcCall) : (h.dropCall c).upd = h.upd := by
  unfold Hub.dropCall
  dsimp only
  split
  · rfl
  · split
    · rfl
    · rfl

/-- A call of an update service that is allowed is taken off its queue and answered by its service. -/
theorem run_update (s : State) {cls : SvcClass} {code : Nat} {c : SvcCall} {f : Hub → Hub} {k : Hub → SvcCall → Hub} {g : Hub}
    (hawake : s.awake) (hu : s.found.updatesCall cls code c) (hf : f s.found = s.found.update cls code k) (hk : k (s.found.dropCall c) c = g) :
    run s f = .next (s.ends g) := by
  obtain ⟨⟨hhead, hcode, hserves, hgood, hargs, hidle⟩, hcaller, hmode, hfence⟩ := hu
  have hdropped : (s.found.dropCall c).upd.running = none := by rwa [Hub.upd_dropCall]
  refine run_ends s f g hawake ?_
  rw [hf, Hub.update, hhead]
  simp only [hcode, hserves, hgood, hdropped, hcaller, hmode, hfence, decide_eq_false (Nat.not_lt.2 hargs), ne_eq, not_true_eq_false, Bool.not_true,
    Bool.false_eq_true, or_self, Option.isSome_none, if_false]
  exact hk

/-- Fitting data comes from the owner of the Landing while it is open. -/
theorem Hub.dataFits.open {h : Hub} {c : SvcCall} (hfits : h.dataFits c) : ¬ (h.landing ≠ 1 ∨ c.req ≠ h.get pUpd UPD.LAND_OWNER_REQ) := by
  obtain ⟨hland, howner, -⟩ := hfits
  exact fun hbad => hbad.elim (fun hne => hne hland) fun hne => hne howner

/-- Fitting data has the form that DATA asks for (R576). -/
theorem Hub.dataFits.args {h : Hub} {c : SvcCall} (hfits : h.dataFits c) :
    ¬ (leNat ((c.args.drop 7).take 1) ≠ 0 ∨ leNat ((c.args.drop 4).take 2) % 4 ≠ 0 ∨ leNat ((c.args.drop 4).take 2) = 0 ∨
      1024 < leNat ((c.args.drop 4).take 2) ∨
      65536 * h.get pUpd UPD.LAND_LEN_BLOCKS < leNat (c.args.take 4) + leNat ((c.args.drop 4).take 2) ∨
      (leNat ((c.args.drop 6).take 1) % 2 = 0 ∧ leNat ((c.args.drop 4).take 2) + 8 ≠ c.args.length)) := by
  obtain ⟨-, -, hzero, hwords, hsome, hlen, hroom, hinline⟩ := hfits
  rintro (hbad | hbad | hbad | hbad | hbad | ⟨hin, hbad⟩)
  · exact hbad hzero
  · exact hbad hwords
  · exact hsome.ne' hbad
  · exact hlen.not_gt hbad
  · exact hroom.not_gt hbad
  · exact hbad (hinline hin)

/-! ### The field update -/

/-- Settles O27: a call that is allowed is answered by its service; the ends of its work and the waits find what they ask for. -/
theorem updateCommandsComplete : Obligations.UpdateCommandsComplete := by
  refine ⟨?_, ?_, ?_, ?_, ?_, ?_, ?_, ?_, ?_, ?_, ?_, ?_, ?_, ?_, ?_, ?_⟩
  · intro s flashOk pot potUs hawake hstatCore hmode hlifecycle hlifecycle2 hselBoot hselBoot2  -- bootRomStart
    exact run_ends s _ _ hawake (by simp [hstatCore, hmode, hlifecycle, hlifecycle2, hselBoot, hselBoot2])
  · intro s cls c hawake hupdatesCall  -- updInfo
    exact run_update s hawake hupdatesCall rfl rfl
  · intro s cls flashOk c hawake hupdatesCall hidle hmin hmax hflashOk  -- updBegin
    subst hflashOk
    refine run_update s hawake hupdatesCall rfl ((if_neg ?_).trans (if_neg ?_))
    · rw [hidle]
      exact Bool.false_ne_true
    · omega
  · intro s cls flashOk c hawake hupdatesCall hfits hlandRxBytes  -- updData
    exact run_update s hawake hupdatesCall rfl ((if_neg (Hub.dataFits.open hfits)).trans ((if_neg (Hub.dataFits.args hfits)).trans (if_pos hlandRxBytes)))
  · intro s cls flashOk c hawake hupdatesCall hfits hnext hstored hlandRxBytes  -- updData
    have hnew : ¬ leNat (c.args.take 4) + leNat ((c.args.drop 4).take 2) ≤ (s.found.dropCall c).get pUpd UPD.LAND_RX_BYTES := by
      obtain ⟨-, -, -, -, hpos, -⟩ := hfits
      omega
    exact run_update s hawake hupdatesCall rfl ((if_neg (Hub.dataFits.open hfits)).trans ((if_neg (Hub.dataFits.args hfits)).trans ((if_neg hnew).trans
      ((if_neg (not_not.2 hnext)).trans ((if_neg (not_not.2 hstored)).trans (if_neg hlandRxBytes))))))
  · intro s cls c hawake hupdatesCall hreceived  -- updVerify
    exact run_update s hawake hupdatesCall rfl (if_pos hreceived)
  · intro s flashOk c hawake hrunning hlanding  -- verificationEnd
    refine run_ends s _ _ hawake ?_

    simp only [hrunning]
    exact if_neg (not_not.2 hlanding)
  · intro s cls flashOk c hawake hupdatesCall hverified hnoTrial hflashOk  -- updActivate
    subst hflashOk
    exact run_update s hawake hupdatesCall rfl (if_neg fun hbad => hbad.elim (fun hne => hne hverified) hnoTrial)
  · intro s flashOk c hawake hrunning hlanding hflashOk hlandLenBlocks  -- activationEnd
    refine run_ends s _ _ hawake ?_

    subst hflashOk
    simp only [hrunning]
    exact (if_neg (not_not.2 hlanding)).trans ((if_neg Bool.false_ne_true).trans (if_neg (not_not.2 hlandLenBlocks)))
  · intro s cls flashOk c i hawake hupdatesCall htrial hflashOk  -- updConfirm
    subst hflashOk
    exact run_update s hawake hupdatesCall rfl (by simp only [htrial]; rfl)
  · intro s flashOk i t hawake htrialSlot hcfgAutoConfirm hmode hrunSince hcfgConfirmS hrunning hfenced hstatReady hflashOk  -- autoConfirm
    have hdue : (match s.found.upd.runSince with
        | some t => decide (t + s.found.cfg pUpd UPD.CFG_CONFIRM_S * 1000000000 ≤ s.found.ns)
        | none => false) = true := by
      simp only [hrunSince, hcfgConfirmS, decide_true]
    subst hflashOk
    refine run_ends s _ _ hawake ?_
    simp only [htrialSlot]
    exact if_pos ⟨hcfgAutoConfirm, hmode, hdue, hrunning, hfenced, hstatReady⟩
  · intro s cls flashOk c hawake hupdatesCall hkept hflashOk  -- updRevert
    subst hflashOk
    exact run_update s hawake hupdatesCall rfl (if_pos hkept)
  · intro s cls flashOk c hawake hupdatesCall hnotVerifying hnotActivating hflashOk  -- updAbort
    subst hflashOk
    exact run_update s hawake hupdatesCall rfl (if_neg fun hbad => hbad.elim hnotVerifying hnotActivating)
  · intro s cls flashOk c hawake hupdatesCall hflashOk  -- updCellar
    subst hflashOk
    exact run_update s hawake hupdatesCall rfl rfl
  · intro s t hawake hreboot ht hmode  -- reboot
    refine run_ends s _ _ hawake ?_

    simp only [hreboot, decide_eq_false (Nat.not_lt.2 ht), Bool.false_eq_true, if_false]
    exact if_pos hmode
  · intro s t hawake hreboot ht hmode  -- reboot
    refine run_ends s _ _ hawake ?_

    simp only [hreboot, decide_eq_false (Nat.not_lt.2 ht), Bool.false_eq_true, if_false]
    exact if_neg hmode

/-! ### The self-test -/

/-- Settles O28: each phase or test that ends is the one under way. -/
theorem selfTestCommandsComplete : Obligations.SelfTestCommandsComplete := by
  refine ⟨?_, ?_, ?_, ?_, ?_, ?_, ?_, ?_⟩
  · intro s failed page detail hawake hphaseMin hphaseMax  -- bistPhaseEnd
    have hother : ¬ (s.found.bist.phase = 0 ∨ 5 < s.found.bist.phase) := by omega
    have hlast (bad : Nat) : decide (s.found.bist.phase = 5 ∧ bad ≠ 0) = false := decide_eq_false (by omega)
    refine run_ends s _ _ hawake ((if_neg hother).trans ?_)
    simp only [hlast]
    rfl
  · intro s hawake hphase hfailed  -- selfTestEnd
    exact run_ends s _ _ hawake ((if_neg (not_not.2 hphase)).trans (if_pos hfailed))
  · intro s cls c hawake hservesCall hcaller  -- bistInfo
    exact run_service s hawake hservesCall rfl (by rw [if_pos hcaller])
  · intro s cls c hawake hservesCall hcaller haccepted  -- unitTest
    refine run_service s hawake hservesCall rfl ?_
    unfold testItems testPage at haccepted ⊢
    simp only [hcaller, Bool.not_true, Bool.false_eq_true, if_false, haccepted]
  · intro s cls c hawake hservesCall hcaller  -- unitAbort
    exact run_service s hawake hservesCall rfl (by rw [if_pos hcaller])
  · intro s failed page detail hawake hunitBusy hfound hload  -- unitTestEnd
    refine run_ends s _ _ hawake ((if_neg (by rw [hunitBusy]; decide)).trans ?_)
    simp only [hfound, hload, Bool.false_eq_true, if_false]
  · intro s failed page detail hawake hunitBusy hfound hload  -- unitTestEnd
    refine run_ends s _ _ hawake ((if_neg (by rw [hunitBusy]; decide)).trans ?_)
    simp only [hfound, hload, if_true]
  · intro s failed page detail f q d hawake hunitBusy hfound hzone  -- unitTestEnd
    refine run_ends s _ _ hawake ((if_neg (by rw [hunitBusy]; decide)).trans ?_)
    simp only [hfound]
    exact if_neg (by rw [hzone]; decide)

end Sys2Proof.Machine
end

section
/-!
PROOFS. The edge of the 500 MHz clock that passes while no command waits (R169, R172).
-/
namespace Sys2Proof.Machine

open Reg

/-- The hub once an edge is counted, before what is due on it. -/
def Hub.edgeCounted (h : Hub) : Hub :=
  { h.begin with
    clock := h.clock + 1
    time := { h.time with
      tj := h.sampledTj
      c := (h.time.c + 1) % 2 ^ 64
      fb := (h.time.fb + h.get pTime TIME.FB_INC_INC) % 2 ^ 88 } }

theorem Hub.bridgeEdge_idle (h : Hub) (hexpress : h.brg.express = []) (hbulk : h.brg.bulk = []) (hown : h.brg.own = []) : h.bridgeEdge = h :=
  if_pos ⟨hexpress, hbulk, hown⟩

theorem Hub.etherEdge_idle (h : Hub) (hends : h.ether.ends = []) : h.etherEdge = h := by
  refine if_pos ?_
  rw [hends]
  rfl

theorem Hub.tick_asleep (h : Hub) (hsleep : h.coreRuns = false) : h.tick = h.begin := if_pos hsleep

/-- The hub once the crossbar, the bridge and the Ethernet port have had the edge. -/
def Hub.edgeServed (h : Hub) : Hub :=
  (if cellEdge h.clock && h.edgeCounted.cellsWait then h.edgeCounted.cellTime else h.edgeCounted).bridgeEdge.etherEdge

/-- Without a Prism engine that has state, an edge of the running core is counted and served, and ends as a command does. -/
theorem Hub.tick_awake (h : Hub) (hrun : h.coreRuns = true) (hunits : h.prismUnits = []) :
    h.tick = (h.edgeServed.prismUnits.foldl (fun g e => g.prismEnter e) h.edgeServed).finish h := by
  rw [Hub.tick, if_neg (by rw [hrun]; decide), hunits]
  rfl

/-- Where nothing is due on the edge, it is counted and nothing else happens. -/
theorem Hub.edgeServed_idle (h : Hub) (hcells : h.cellsWait = false) (hexpress : h.brg.express = []) (hbulk : h.brg.bulk = [])
    (hown : h.brg.own = []) (hends : h.ether.ends = []) : h.edgeServed = h.edgeCounted := by
  have hstill : ¬ (cellEdge h.clock && h.edgeCounted.cellsWait) = true := by
    rw [show h.edgeCounted.cellsWait = false from hcells, Bool.and_false]
    decide
  rw [Hub.edgeServed, if_neg hstill, h.edgeCounted.bridgeEdge_idle hexpress hbulk hown, h.edgeCounted.etherEdge_idle hends]

/-- Settles O30: a step on an empty queue is the edge, whether the core runs or not. -/
theorem idleStepIsAClockEdge : Obligations.IdleStepIsAClockEdge := by
  intro s hpending
  have hstep : step s = .next s.tick := by
    rw [step, hpending]
  refine ⟨s.tick, hstep, hpending, s.hub.tick_asleep, fun hawake hunits hcells hexpress hbulk hown hends => ?_⟩
  rw [State.tick, s.hub.tick_awake hawake hunits, s.hub.edgeServed_idle hcells hexpress hbulk hown hends,
    show s.hub.edgeCounted.prismUnits = [] from hunits]
  rfl

end Sys2Proof.Machine
end
